-- ==== Sys2Proof/Word.lean ====
section
/-! DEFINITION. The word types of the G36 (00_scope R3, R4) and the sparse tables its state is held in. -/

namespace Sys2Proof

/-- A byte (R4). -/
abbrev Byte := BitVec 8
/-- A 32-bit word (R4). -/
abbrev Word := BitVec 32
/-- A 64-bit doubleword (R4): addresses, pairs, predicate masks. -/
abbrev DWord := BitVec 64
/-- A set of lanes of a group, lane `l` at bit `l` (R41). -/
abbrev Mask := BitVec 64

/-- A sparse table: keys strictly rising, no entry equal to what an unlisted key reads as. -/
abbrev Table (α : Type) := List (Nat × α)

end Sys2Proof
end

