-- ==== Sys2Proof/Syntax.lean ====
section
/-! DEFINITION. The instructions and the steps of the part: one constructor of `Instr` for each row of the opcode table. -/

namespace Sys2Proof

/-- The register field of a lane instruction (02 R35): what each of its 256 values names. -/
inductive LReg where
  /-- 0x00 to 0xBF: a main register. -/
  | v (k : Fin 192)
  /-- 0xC0 to 0xCF: an operand register. -/
  | o (k : Fin 16)
  /-- 0xD0 to 0xD3: a last-result entry. -/
  | l (k : Fin 4)
  /-- 0xD4: zero as a source, discarded as a destination. -/
  | zero
  /-- 0xD5: the lane index. -/
  | lid
  /-- 0xD6: the quad index. -/
  | qid
  /-- 0xD7: names nothing. -/
  | none
  /-- 0xD8 to 0xDF: a hand-off queue. -/
  | q (k : Fin 8)
  /-- 0xE0 to 0xFF: a uniform register, read as a broadcast. -/
  | s (k : Fin 32)
  deriving DecidableEq, Repr

/-- A part in the sense of 18 R378 (and the core of 26 R441's KIND list). -/
inductive Part where
  | die (d : Nat)
  | pseudoChannel (d c : Nat)
  | boundary (b : Nat)
  | hostLink (k : Nat)
  | ethPort (e : Nat)
  | saveCopy (ctx : Nat) (isB : Bool)
  | core (d c : Nat)
  deriving DecidableEq, Repr

/-- A register of the host's view that has no row of its own in the opcode table (00 R6): a VF's queue block
(17 R350), the mailbox of the PF (0) or of a VF (18 R364), the bring-up report (26 R440), and the configuration of a host link (19 R399, R400):
bit 0 AtomicOp completion, bit 1 CXL.cache active, bit 2 trained. -/
inductive RegTarget where
  | accept (ctx q : Nat)
  | done (ctx q : Nat)
  | qstat (ctx q : Nat)
  | mailboxWord (vf i : Nat)
  | mbdoor (vf : Nat)
  | mbstat (vf : Nat)
  | buact0
  | buact1
  | linkControl (k : Nat)
  deriving DecidableEq, Repr

/-- A Staist flit (19 R389). -/
structure Flit where
  sn : BitVec 12
  esc : Bool
  vnet : BitVec 2
  payload : List Byte
  crc : Word
  deriving DecidableEq, Repr

/-- A Courier Ethernet frame (20 R414). -/
structure EthFrame where
  dst : BitVec 48
  sn : Nat
  slot : Nat
  nc : Nat
  base : Nat
  offset : Nat
  data : List Byte
  last : Bool
  deriving DecidableEq, Repr

/-- One instruction word of the part, or one of its events: each is a step, whole and indivisible
(95_what_each_step_holds). An event's arguments name the object it happens to, by the key `State` holds it under. -/
inductive Instr where
  /-- IADD (R111). Adds A and B in each active lane, with the type and saturation that PFX selects. -/
  | iadd (d : LReg) (a : LReg) (b : LReg)
  /-- ISUB (R111). Subtracts B from A in each active lane. -/
  | isub (d : LReg) (a : LReg) (b : LReg)
  /-- IMUL (R111). Multiplies A by B in each active lane. -/
  | imul (d : LReg) (a : LReg) (b : LReg)
  /-- IMULH (R111). Writes the high word of the signed product of A and B. -/
  | imulh (d : LReg) (a : LReg) (b : LReg)
  /-- UMULH (R111). Writes the high word of the unsigned product of A and B. -/
  | umulh (d : LReg) (a : LReg) (b : LReg)
  /-- IMAD (R111). Writes A times B plus C in each active lane. -/
  | imad (d : LReg) (a : LReg) (b : LReg)
  /-- IMIN (R111). Writes the signed minimum of A and B. -/
  | imin (d : LReg) (a : LReg) (b : LReg)
  /-- IMAX (R111). Writes the signed maximum of A and B. -/
  | imax (d : LReg) (a : LReg) (b : LReg)
  /-- UMIN (R111). Writes the unsigned minimum of A and B. -/
  | umin (d : LReg) (a : LReg) (b : LReg)
  /-- UMAX (R111). Writes the unsigned maximum of A and B. -/
  | umax (d : LReg) (a : LReg) (b : LReg)
  /-- AND (R114). Writes the bitwise AND of A and B. -/
  | and (d : LReg) (a : LReg) (b : LReg)
  /-- OR (R114). Writes the bitwise OR of A and B. -/
  | or (d : LReg) (a : LReg) (b : LReg)
  /-- XOR (R114). Writes the bitwise XOR of A and B. -/
  | xor (d : LReg) (a : LReg) (b : LReg)
  /-- ANDN (R114). Writes A AND NOT B. -/
  | andn (d : LReg) (a : LReg) (b : LReg)
  /-- SHL (R114). Shifts A left by the register count B. -/
  | shl (d : LReg) (a : LReg) (b : LReg)
  /-- SHR (R114). Shifts A right with zero fill by the register count B. -/
  | shr (d : LReg) (a : LReg) (b : LReg)
  /-- SAR (R114). Shifts A right with sign fill by the register count B. -/
  | sar (d : LReg) (a : LReg) (b : LReg)
  /-- ROL (R114). Rotates A left by B[4:0]. -/
  | rol (d : LReg) (a : LReg) (b : LReg)
  /-- POPC (R114). Writes the number of 1 bits of A. -/
  | popc (d : LReg) (a : LReg)
  /-- CLZ (R114). Writes the number of leading zero bits of A. -/
  | clz (d : LReg) (a : LReg)
  /-- BREV (R114). Writes A with its bits reversed. -/
  | brev (d : LReg) (a : LReg)
  /-- BFX (R115). Extracts a bit field of A whose position and length come from B. -/
  | bfx (d : LReg) (a : LReg) (b : LReg)
  /-- BFI (R115). Inserts A as a bit field into C at the position and length of B. -/
  | bfi (d : LReg) (a : LReg) (b : LReg)
  /-- ICMP (R117). Writes a signed integer comparison of A and B into a predicate. -/
  | icmp (c : BitVec 5) (p : BitVec 3) (a : LReg) (b : LReg)
  /-- UCMP (R117). Writes an unsigned integer comparison of A and B into a predicate. -/
  | ucmp (c : BitVec 5) (p : BitVec 3) (a : LReg) (b : LReg)
  /-- MOV (R118). Copies A, or a 64-bit pair under TYPE 12, to D. -/
  | mov (d : LReg) (a : LReg)
  /-- SEL (R118). Writes A where C is nonzero and B elsewhere. -/
  | sel (d : LReg) (a : LReg) (b : LReg)
  /-- IADDI (R111). Adds the sign-extended immediate to A. -/
  | iaddi (d : LReg) (a : LReg) (i : BitVec 8)
  /-- SHLI (R114). Shifts A left by an immediate count. -/
  | shli (d : LReg) (a : LReg) (i : BitVec 5)
  /-- SHRI (R114). Shifts A right with zero fill by an immediate count. -/
  | shri (d : LReg) (a : LReg) (i : BitVec 5)
  /-- SARI (R114). Shifts A right with sign fill by an immediate count. -/
  | sari (d : LReg) (a : LReg) (i : BitVec 5)
  /-- ANDI (R114). ANDs A with the zero-extended immediate. -/
  | andi (d : LReg) (a : LReg) (i : BitVec 8)
  /-- ORI (R114). ORs A with the zero-extended immediate. -/
  | ori (d : LReg) (a : LReg) (i : BitVec 8)
  /-- XORI (R114). XORs A with the zero-extended immediate. -/
  | xori (d : LReg) (a : LReg) (i : BitVec 8)
  /-- MOVI (R118). Writes a sign-extended 16-bit immediate, or a 32-bit one with PFXI. -/
  | movi (d : LReg) (i : BitVec 16)
  /-- FADD (R119). Adds two FP32 operands with one rounding. -/
  | fadd (d : LReg) (a : LReg) (b : LReg)
  /-- FSUB (R119). Subtracts two FP32 operands with one rounding. -/
  | fsub (d : LReg) (a : LReg) (b : LReg)
  /-- FMUL (R119). Multiplies two FP32 operands with one rounding. -/
  | fmul (d : LReg) (a : LReg) (b : LReg)
  /-- FFMA (R119). Computes A times B plus C in FP32 with one rounding. -/
  | ffma (d : LReg) (a : LReg) (b : LReg)
  /-- FMIN (R120). Returns the lesser FP32 operand, with NaN handling of R120. -/
  | fmin (d : LReg) (a : LReg) (b : LReg)
  /-- FMAX (R120). Returns the greater FP32 operand, with NaN handling of R120. -/
  | fmax (d : LReg) (a : LReg) (b : LReg)
  /-- FCMP (R117). Writes an FP32 comparison of A and B into a predicate. -/
  | fcmp (c : BitVec 5) (p : BitVec 3) (a : LReg) (b : LReg)
  /-- FCLASS (R121). Writes a one-hot class mask of an FP32 operand. -/
  | fclass (d : LReg) (a : LReg)
  /-- FRCP (R122). Computes the reciprocal by the table algorithm of R75. -/
  | frcp (d : LReg) (a : LReg)
  /-- FRSQ (R122). Computes the reciprocal square root by R75. -/
  | frsq (d : LReg) (a : LReg)
  /-- FSQRT (R122). Computes the square root by R75. -/
  | fsqrt (d : LReg) (a : LReg)
  /-- FEXP2 (R122). Computes 2 to the power A by R75. -/
  | fexp2 (d : LReg) (a : LReg)
  /-- FLOG2 (R122). Computes the base-2 logarithm by R75. -/
  | flog2 (d : LReg) (a : LReg)
  /-- FSIN (R122). Computes the sine by R75. -/
  | fsin (d : LReg) (a : LReg)
  /-- FCOS (R122). Computes the cosine by R75. -/
  | fcos (d : LReg) (a : LReg)
  /-- FTANH (R122). Computes the hyperbolic tangent by R75. -/
  | ftanh (d : LReg) (a : LReg)
  /-- HADD2 (R123). Adds packed FP16 or BF16 pairs element by element. -/
  | hadd2 (d : LReg) (a : LReg) (b : LReg)
  /-- HMUL2 (R123). Multiplies packed half pairs element by element. -/
  | hmul2 (d : LReg) (a : LReg) (b : LReg)
  /-- HFMA2 (R123). Fused multiply-add on packed half pairs. -/
  | hfma2 (d : LReg) (a : LReg) (b : LReg)
  /-- HMIN2 (R123). Element-wise minimum of packed half pairs. -/
  | hmin2 (d : LReg) (a : LReg) (b : LReg)
  /-- HMAX2 (R123). Element-wise maximum of packed half pairs. -/
  | hmax2 (d : LReg) (a : LReg) (b : LReg)
  /-- DOT4 (R124). Adds the dot product of four packed bytes of A and B to C. -/
  | dot4 (d : LReg) (a : LReg) (b : LReg)
  /-- FDOT2 (R124). Adds the dot product of two packed halves to C in FP32 with one rounding. -/
  | fdot2 (d : LReg) (a : LReg) (b : LReg)
  /-- FRND (R119). Rounds an FP32 operand to an integral value. -/
  | frnd (d : LReg) (a : LReg)
  /-- CVTIF (R125). Converts an integer to FP32. -/
  | cvtif (d : LReg) (a : LReg)
  /-- CVTFI (R125). Converts FP32 to a saturated integer. -/
  | cvtfi (d : LReg) (a : LReg)
  /-- CVTFH (R125). Packs two FP32 values into an FP16 or BF16 pair. -/
  | cvtfh (d : LReg) (a : LReg) (b : LReg)
  /-- CVTHF (R125). Unpacks a half pair into two FP32 registers. -/
  | cvthf (d : LReg) (a : LReg)
  /-- CVT8P (R125). Packs four registers into four 8-bit elements. -/
  | cvt8p (d : LReg) (a : LReg)
  /-- CVT8U (R125). Unpacks four 8-bit elements into four registers. -/
  | cvt8u (d : LReg) (a : LReg)
  /-- QSWAPX (R127). Reads A from lane l XOR 1 within held quads. -/
  | qswapx (d : LReg) (a : LReg)
  /-- QSWAPY (R127). Reads A from lane l XOR 2 within held quads. -/
  | qswapy (d : LReg) (a : LReg)
  /-- QSWAPD (R127). Reads A from lane l XOR 3 within held quads. -/
  | qswapd (d : LReg) (a : LReg)
  /-- QBCAST (R127). Broadcasts A from the quad lane that B selects. -/
  | qbcast (d : LReg) (a : LReg) (b : LReg)
  /-- SHFL (R127). Reads A from the lane that B names. -/
  | shfl (d : LReg) (a : LReg) (b : LReg)
  /-- SHFLUP (R127). Reads A from lane l minus B. -/
  | shflup (d : LReg) (a : LReg) (b : LReg)
  /-- SHFLDN (R127). Reads A from lane l plus B. -/
  | shfldn (d : LReg) (a : LReg) (b : LReg)
  /-- REORDER (R129). Sorts the active lanes by key and moves a register range with them, or inverts a saved permutation. -/
  | reorder (b : LReg) (k : LReg) (i : BitVec 1) (c : BitVec 6)
  /-- LD8U (R234). Loads a byte, zero-extended, counting against a flag. -/
  | ld8u (d : LReg) (a : LReg) (f : BitVec 8)
  /-- LD8S (R234). Loads a byte, sign-extended, counting against a flag. -/
  | ld8s (d : LReg) (a : LReg) (f : BitVec 8)
  /-- LD16U (R234). Loads a halfword, zero-extended. -/
  | ld16u (d : LReg) (a : LReg) (f : BitVec 8)
  /-- LD32 (R234). Loads a word from global memory. -/
  | ld32 (d : LReg) (a : LReg) (f : BitVec 8)
  /-- LD64 (R234). Loads a doubleword into a register pair. -/
  | ld64 (d : LReg) (a : LReg) (f : BitVec 8)
  /-- LD128 (R234). Loads a quadword into four registers. -/
  | ld128 (d : LReg) (a : LReg) (f : BitVec 8)
  /-- ST8 (R235). Stores a byte to global memory, buffered or released. -/
  | st8 (d : LReg) (a : LReg) (f : BitVec 8)
  /-- ST16 (R235). Stores a halfword to global memory. -/
  | st16 (d : LReg) (a : LReg) (f : BitVec 8)
  /-- ST32 (R235). Stores a word to global memory. -/
  | st32 (d : LReg) (a : LReg) (f : BitVec 8)
  /-- ST64 (R235). Stores a doubleword to global memory. -/
  | st64 (d : LReg) (a : LReg) (f : BitVec 8)
  /-- ST128 (R235). Stores a quadword to global memory. -/
  | st128 (d : LReg) (a : LReg) (f : BitVec 8)
  /-- LCPY (R251). Copies up to 32 global bytes per lane into the scratchpad, zero-filling the rest. -/
  | lcpy (d : LReg) (a : LReg) (f : BitVec 8)
  /-- LDS32 (R237). Loads a scratchpad word, counting against a flag. -/
  | lds32 (d : LReg) (a : LReg) (f : BitVec 8)
  /-- LDS64 (R237). Loads a scratchpad doubleword. -/
  | lds64 (d : LReg) (a : LReg) (f : BitVec 8)
  /-- LDS128 (R237). Loads a scratchpad quadword. -/
  | lds128 (d : LReg) (a : LReg) (f : BitVec 8)
  /-- STS32 (R237). Stores a word to the scratchpad at issue. -/
  | sts32 (d : LReg) (a : LReg) (f : BitVec 8)
  /-- STS64 (R237). Stores a doubleword to the scratchpad at issue. -/
  | sts64 (d : LReg) (a : LReg) (f : BitVec 8)
  /-- STS128 (R237). Stores a quadword to the scratchpad at issue. -/
  | sts128 (d : LReg) (a : LReg) (f : BitVec 8)
  /-- ATADD (R244). Atomically adds B to memory and returns the old value. -/
  | atadd (d : LReg) (a : LReg) (b : LReg)
  /-- ATFADD (R244). Atomically adds an FP32 operand to memory. -/
  | atfadd (d : LReg) (a : LReg) (b : LReg)
  /-- ATMIN (R244). Atomically takes the minimum with memory. -/
  | atmin (d : LReg) (a : LReg) (b : LReg)
  /-- ATMAX (R244). Atomically takes the maximum with memory. -/
  | atmax (d : LReg) (a : LReg) (b : LReg)
  /-- ATAND (R244). Atomically ANDs B into memory. -/
  | atand (d : LReg) (a : LReg) (b : LReg)
  /-- ATOR (R244). Atomically ORs B into memory. -/
  | ator (d : LReg) (a : LReg) (b : LReg)
  /-- ATXOR (R244). Atomically XORs B into memory. -/
  | atxor (d : LReg) (a : LReg) (b : LReg)
  /-- ATXCHG (R244). Atomically exchanges B with memory. -/
  | atxchg (d : LReg) (a : LReg) (b : LReg)
  /-- ATCAS (R244). Atomically writes C where memory equals B. -/
  | atcas (d : LReg) (a : LReg) (b : LReg)
  /-- ATINC (R244). Atomically increments memory, wrapping to 0 at the limit B. -/
  | atinc (d : LReg) (a : LReg) (b : LReg)
  /-- REDADD (R245). Adds B into memory without return, folded in an update-only L1 line. -/
  | redadd (a : LReg) (b : LReg)
  /-- REDFADD (R245). Adds an FP32 operand into memory without return. -/
  | redfadd (a : LReg) (b : LReg)
  /-- REDMIN (R245). Folds a minimum into memory without return. -/
  | redmin (a : LReg) (b : LReg)
  /-- REDMAX (R245). Folds a maximum into memory without return. -/
  | redmax (a : LReg) (b : LReg)
  /-- MMA (R271). Multiplies register fragments of A and B and accumulates into a tile. -/
  | mma (y : BitVec 4) (t : BitVec 4) (a : LReg) (b : LReg)
  /-- ACCRD (R273). Reads eight rows of a tile into registers, counting against a flag. -/
  | accrd (r : LReg) (t : BitVec 4) (g : BitVec 2)
  /-- ACCWR (R273). Writes eight registers into eight rows of a tile. -/
  | accwr (r : LReg) (t : BitVec 4) (g : BitVec 2)
  /-- NEVAL (R309). Sends each active lane's inputs to the caravan for evaluation by its network handle. -/
  | neval (d : LReg) (a : LReg) (h : LReg)
  /-- TEX (R315). Samples a texture in point or neural mode, counting against a flag. -/
  | tex (d : LReg) (c : LReg) (s : BitVec 2)
  /-- SPLAT (R325). Submits each active lane's splat record to the die's splat unit. -/
  | splat (r : LReg) (f : BitVec 4)
  /-- SUMQ (R292). Inserts each active lane's FP32 value into a quantile summary. -/
  | sumq (a : BitVec 4) (v : LReg)
  /-- SUMH (R292). Inserts each active lane's key into a heavy-hitter summary. -/
  | sumh (a : BitVec 4) (v : LReg)
  /-- SUMD (R292). Inserts each active lane's key into a distinct-count summary. -/
  | sumd (a : BitVec 4) (v : LReg)
  /-- CLAUSE (R83). Opens a clause, waits for its WAIT flags, zeroes L0 to L3 and sets the counting flags. -/
  | clause (w : BitVec 12) (a : BitVec 4) (b : BitVec 4) (l : BitVec 4)
  /-- PFX (R91). Supplies C, mask, zeroing, rounding, type, saturation, ordering and flag choice to the next lane instruction. -/
  | pfx (c : LReg) (m : BitVec 3) (z : BitVec 1) (r : BitVec 3) (t : BitVec 4) (s : BitVec 1) (o : BitVec 2) (f : BitVec 1)
  /-- PFXI (R94). Supplies a 24-bit immediate that replaces B of the next lane instruction. -/
  | pfxi (i : BitVec 24)
  /-- REP (R96). Issues the following lane instruction COUNT + 1 times with stepped register fields. -/
  | rep (c : BitVec 6) (d : BitVec 3) (a : BitVec 3) (b : BitVec 3)
  /-- NOP (R97). Has no effect. -/
  | nop
  /-- BRA (R136). Moves the whole fibre to the target clause. -/
  | bra (o : BitVec 24)
  /-- BRC (R136). Moves the fibre to the target when an S register passes the selected test. -/
  | brc (s : BitVec 6) (n : BitVec 2) (o : BitVec 16)
  /-- BRP (R137). Branches on a predicate in split, any, all or none mode, dividing the fibre in split mode. -/
  | brp (p : BitVec 3) (n : BitVec 2) (o : BitVec 16)
  /-- CALL (R138). Pushes the return address and moves the fibre to the target. -/
  | call (o : BitVec 24)
  /-- RET (R138). Pops the return stack and moves the fibre there, or leaves handler level at depth H. -/
  | ret
  /-- FORK (R155). Starts a new fibre at the target with the predicated lanes, without a branch. -/
  | fork (p : BitVec 3) (o : BitVec 16)
  /-- FDONE (R156). Commits the region and parks the fibre with its lanes kept live. -/
  | fdone
  /-- JOIN (R157). Commits the region and parks the fibre until the lanes it needs have arrived. -/
  | join (p : BitVec 3)
  /-- YIELD (R158). Gives the fibre a yield mark stamped with GT. -/
  | yield
  /-- WAITF (R139). Holds the fibre until every named completion flag reads 0. -/
  | waitf (m : BitVec 12)
  /-- EXIT (R140). Commits the region and ends the fibre. -/
  | exit
  /-- SADD (R132). Adds two S registers. -/
  | sadd (d : BitVec 6) (a : BitVec 6) (b : BitVec 6)
  /-- SSUB (R132). Subtracts two S registers. -/
  | ssub (d : BitVec 6) (a : BitVec 6) (b : BitVec 6)
  /-- SMUL (R132). Multiplies two S registers, low word. -/
  | smul (d : BitVec 6) (a : BitVec 6) (b : BitVec 6)
  /-- SMULH (R132). Writes the high word of a signed or unsigned product of two S registers. -/
  | smulh (d : BitVec 6) (a : BitVec 6) (b : BitVec 6) (u : BitVec 1)
  /-- SAND (R132). ANDs two S registers. -/
  | sand (d : BitVec 6) (a : BitVec 6) (b : BitVec 6)
  /-- SOR (R132). ORs two S registers. -/
  | sor (d : BitVec 6) (a : BitVec 6) (b : BitVec 6)
  /-- SXOR (R132). XORs two S registers. -/
  | sxor (d : BitVec 6) (a : BitVec 6) (b : BitVec 6)
  /-- SSHL (R132). Shifts an S register left by a register count. -/
  | sshl (d : BitVec 6) (a : BitVec 6) (b : BitVec 6)
  /-- SSHL_IMM (R132). Shifts an S register left by an immediate count. -/
  | sshlImm (d : BitVec 6) (a : BitVec 6) (n : BitVec 5)
  /-- SSHR (R132). Shifts an S register right with zero fill by a register count. -/
  | sshr (d : BitVec 6) (a : BitVec 6) (b : BitVec 6)
  /-- SSHR_IMM (R132). Shifts an S register right with zero fill by an immediate count. -/
  | sshrImm (d : BitVec 6) (a : BitVec 6) (n : BitVec 5)
  /-- SSAR (R132). Shifts an S register right with sign fill by a register count. -/
  | ssar (d : BitVec 6) (a : BitVec 6) (b : BitVec 6)
  /-- SSAR_IMM (R132). Shifts an S register right with sign fill by an immediate count. -/
  | ssarImm (d : BitVec 6) (a : BitVec 6) (n : BitVec 5)
  /-- SMIN (R132). Writes the signed or unsigned minimum of two S registers. -/
  | smin (d : BitVec 6) (a : BitVec 6) (b : BitVec 6) (u : BitVec 1)
  /-- SMAX (R132). Writes the signed or unsigned maximum of two S registers. -/
  | smax (d : BitVec 6) (a : BitVec 6) (b : BitVec 6) (u : BitVec 1)
  /-- SCMP (R132). Writes 1 or 0 by comparing two S registers under a condition. -/
  | scmp (d : BitVec 6) (a : BitVec 6) (b : BitVec 6) (u : BitVec 1) (c : BitVec 3)
  /-- SSEL (R132). Selects Sa where Sc is nonzero and Sb elsewhere. -/
  | ssel (d : BitVec 6) (a : BitVec 6) (b : BitVec 6) (c : BitVec 6)
  /-- SPOPC (R132). Counts the 1 bits of an S register. -/
  | spopc (d : BitVec 6) (a : BitVec 6)
  /-- SCLZ (R132). Counts the leading zeros of an S register. -/
  | sclz (d : BitVec 6) (a : BitVec 6)
  /-- SMOV (R132). Copies one S register to another. -/
  | smov (d : BitVec 6) (a : BitVec 6)
  /-- SMOVI (R133). Writes a sign-extended 18-bit immediate to an S register. -/
  | smovi (d : BitVec 6) (i : BitVec 18)
  /-- SMOVH (R133). Writes a 16-bit immediate to the high half of an S register. -/
  | smovh (d : BitVec 6) (i : BitVec 16)
  /-- SADDI (R133). Adds a sign-extended immediate to an S register. -/
  | saddi (d : BitVec 6) (i : BitVec 18)
  /-- SADD64 (R132). Adds two 64-bit S pairs. -/
  | sadd64 (d : BitVec 6) (a : BitVec 6) (b : BitVec 6)
  /-- SBALLOT (R134). Writes a predicate from the bits of a 64-bit S pair. -/
  | sballot (p : BitVec 3) (a : BitVec 6)
  /-- SBALLOT_TO_S (R134). Writes a predicate ANDed with P0 into a 64-bit S pair. -/
  | sballotToS (d : BitVec 6) (p : BitVec 3)
  /-- PAND (R134). ANDs two predicates over the fibre's lanes. -/
  | pand (d : BitVec 3) (a : BitVec 3) (b : BitVec 3)
  /-- POR (R134). ORs two predicates over the fibre's lanes. -/
  | por (d : BitVec 3) (a : BitVec 3) (b : BitVec 3)
  /-- PXOR (R134). XORs two predicates over the fibre's lanes. -/
  | pxor (d : BitVec 3) (a : BitVec 3) (b : BitVec 3)
  /-- PNOT (R134). Inverts a predicate over the fibre's lanes. -/
  | pnot (d : BitVec 3) (a : BitVec 3)
  /-- RDLANE (R135). Reads one lane's register into an S register. -/
  | rdlane (d : BitVec 6) (a : BitVec 6) (v : LReg)
  /-- WRLANE (R135). Writes an S register into one owned lane's register. -/
  | wrlane (d : BitVec 6) (a : BitVec 6) (v : LReg)
  /-- SLD (R246). Loads 4, 8 or 16 bytes from global memory into S registers. -/
  | sld (d : BitVec 6) (a : BitVec 6) (b : BitVec 6) (z : BitVec 2) (o : BitVec 1)
  /-- SST (R246). Stores 4, 8 or 16 bytes from S registers to global memory. -/
  | sst (d : BitVec 6) (a : BitVec 6) (b : BitVec 6) (z : BitVec 2) (o : BitVec 1)
  /-- SATOM (R247). Performs a 32-bit atomic on global memory from S registers. -/
  | satom (d : BitVec 6) (a : BitVec 6) (b : BitVec 6) (o : BitVec 2) (p : BitVec 4)
  /-- FENCE (R248). Performs a release, acquire or full fence of system scope. -/
  | fence (f : BitVec 2)
  /-- ICINV (R229). Drops the lines of a range from every instruction cache of the partition. -/
  | icinv (a : BitVec 6) (b : BitVec 6)
  /-- ISYNC (R230). Discards instruction words fetched ahead for the group. -/
  | isync
  /-- CWB (R249). Writes back dirty scope 0 and 1 lines of a range. -/
  | cwb (a : BitVec 6) (b : BitVec 6)
  /-- CWB_ALL (R249). Writes back every dirty scope 0 and 1 line of the context in the core's L1. -/
  | cwbAll
  /-- PREF (R250). Prefetches a range into the core's L1. -/
  | pref (a : BitVec 6) (b : BitVec 6)
  /-- PREF_HOME (R250). Prefetches a range into the homes and lodges only. -/
  | prefHome (a : BitVec 6) (b : BitVec 6)
  /-- PCOPY (R256). Issues a Porter copy between any spaces. -/
  | pcopy (t : BitVec 6) (d : BitVec 6) (k : BitVec 1) (f : BitVec 4)
  /-- PTILE (R258). Issues a Porter load of a stored tile into canonical scratchpad layout. -/
  | ptile (t : BitVec 6) (d : BitVec 6) (k : BitVec 1) (f : BitVec 4)
  /-- PSTORE (R259). Issues a Porter store of an FP32 scratchpad tile in a storage format. -/
  | pstore (t : BitVec 6) (d : BitVec 6) (k : BitVec 1) (f : BitVec 4)
  /-- PGATH (R260). Issues a Porter gather of indexed global rows into the scratchpad. -/
  | pgath (t : BitVec 6) (d : BitVec 6) (k : BitVec 1) (f : BitVec 4)
  /-- PSCAT (R260). Issues a Porter scatter of scratchpad rows to indexed global rows. -/
  | pscat (t : BitVec 6) (d : BitVec 6) (k : BitVec 1) (f : BitVec 4)
  /-- PFILL (R257). Issues a Porter fill of a range with a 32-bit pattern. -/
  | pfill (t : BitVec 6) (d : BitVec 6) (k : BitVec 1) (f : BitVec 4)
  /-- MLOOP (R279). Queues a loop of matrix steps for the group's quartet. -/
  | mloop (d : BitVec 6) (f : BitVec 4)
  /-- ACCZ (R274). Sets every element of a tile to +0. -/
  | accz (t : BitVec 4)
  /-- ACCLD (R275). Loads a tile from the scratchpad, counting against a flag. -/
  | accld (t : BitVec 4) (a : BitVec 6) (f : BitVec 4)
  /-- ACCST (R275). Stores a tile to the scratchpad, counting against a flag. -/
  | accst (t : BitVec 4) (a : BitVec 6) (f : BitVec 4)
  /-- MLINK (R185). Links the group's earlier matrix operations to its next arrival at a barrier. -/
  | mlink (l : BitVec 2) (n : BitVec 4)
  /-- BARR (R180). Arrives at a barrier and returns a phase token without waiting. -/
  | barr (d : BitVec 6) (l : BitVec 2) (n : BitVec 4)
  /-- BARW (R180). Waits until the barrier's generation differs from the token, then acquires. -/
  | barw (a : BitVec 6) (l : BitVec 2) (n : BitVec 4)
  /-- BARRW (R180). Arrives at a barrier and waits for that phase's release, then acquires. -/
  | barrw (l : BitVec 2) (n : BitVec 4)
  /-- BARQ (R183). Reads a barrier's status word in one step. -/
  | barq (d : BitVec 6) (l : BitVec 2) (n : BitVec 4)
  /-- SPINH (R360). Waits for a write to a spun-on line or for FAIRT, then helps saved groups of the context. -/
  | spinh (a : BitVec 6)
  /-- SUMINIT (R293). Writes a fresh summary object of the given kind. -/
  | suminit (k : BitVec 2) (a : BitVec 6) (f : BitVec 4)
  /-- SUMMERGE (R294). Merges a snapshot of a source summary into a target summary. -/
  | summerge (a : BitVec 6) (b : BitVec 6) (f : BitVec 4)
  /-- SUMRD (R295). Queries a summary object for a quantile, count, entry or estimate. -/
  | sumrd (d : BitVec 6) (a : BitVec 6) (b : BitVec 6) (q : BitVec 6)
  /-- NBIND (R307). Binds a network record to a weight handle. -/
  | nbind (d : BitVec 6) (a : BitVec 6)
  /-- NBIND_REL (R307). Releases a weight handle. -/
  | nbindRel (d : BitVec 6) (a : BitVec 6)
  /-- SPFLUSH (R329). Requests the flush, sort and compositing of a frame across the partition. -/
  | spflush (d : BitVec 6) (a : BitVec 6) (f : BitVec 4)
  /-- SPTILE (R334). Claims one ready tile of the frame on the issuing die. -/
  | sptile (d : BitVec 6) (a : BitVec 6)
  /-- CSTART (R415). Starts a collective program on every active die of the partition. -/
  | cstart (d : BitVec 6) (a : BitVec 6) (f : BitVec 4)
  /-- CARM (R416). Adds to a receive counter of a running slot on the issuing die. -/
  | carm (a : BitVec 6) (b : BitVec 6) (n : BitVec 4)
  /-- CQUERY (R417). Reads a receive counter of a collective slot. -/
  | cquery (d : BitVec 6) (a : BitVec 6) (n : BitVec 4)
  /-- CQUERY_STATE (R417). Reads the state word of a collective slot. -/
  | cqueryState (d : BitVec 6) (a : BitVec 6)
  /-- TRAP (R141). Takes a trap with cause 0x0B and the given code. -/
  | trap (i : BitVec 18)
  /-- RDSR (R142). Reads a system register into an S register, subject to the level columns. -/
  | rdsr (d : BitVec 6) (i : BitVec 18)
  /-- WRSR (R142). Writes an S register to a system register, subject to the level columns. -/
  | wrsr (d : BitVec 6) (i : BitVec 18)
  /-- RDTIME (R145). Reads the die's 64-bit GT into an S pair. -/
  | rdtime (d : BitVec 6)
  /-- RNG (R147). Draws two noise halfwords into an S register. -/
  | rng (d : BitVec 6)
  /-- REGION (R241). Commits the fibre's idempotent region. -/
  | region
  /-- LAUNCH (R148). Releases and hands a LAUNCH packet to the command processor for a queue. -/
  | launch (d : BitVec 6) (a : BitVec 6) (b : BitVec 6) (f : BitVec 4)
  /-- FIBRE_WAIT_MET (R166). A waiting fibre's condition is met and it becomes ready with a new stamp. -/
  | fibreWaitMet (g : Nat) (f : Nat)
  /-- FIBRE_DUE (R163). A fibre's ready-since stamp passes FAIRT and it becomes due. -/
  | fibreDue (g : Nat) (f : Nat)
  /-- ABORTED_FIBRE_RESUME (R218). Every page that aborted a fibre becomes usable and the fibre is ready at its region start. -/
  | abortedFibreResume (g : Nat) (f : Nat)
  /-- TRAP_DELIVERY (R367). A trap is delivered to the handler, or is unhandled and faults the context. -/
  | trapDelivery (g : Nat) (f : Nat)
  /-- LOAD_RETURN (R234). A load's data returns, its destinations are written and its flag is decremented. -/
  | loadReturn (op : Nat)
  /-- LDS_RETURN (R238). A scratchpad load writes its destination and decrements its flag. -/
  | ldsReturn (op : Nat)
  /-- LCPY_COMPLETE (R252). An LCPY's scratchpad words are written and its flag is decremented. -/
  | lcpyComplete (op : Nat)
  /-- ATOMIC_RETURN (R244). A returning atomic's old values return and its flag is decremented. -/
  | atomicReturn (op : Nat)
  /-- SLD_RETURN (R246). An SLD's data returns and its S destination is written. -/
  | sldReturn (op : Nat)
  /-- HOME_FILL (R192). A home slice serves a fill and grants a lease. -/
  | homeFill (op : Nat) (line : Nat)
  /-- FILL_INSTALL (R193). A fill arrives at an L1 and is installed unless an acquire discard covers it. -/
  | fillInstall (fill : Nat)
  /-- LEASE_EXPIRY (R193). A leased sector's expiry passes and the L1 stops serving it. -/
  | leaseExpiry (core : Nat) (line : Nat)
  /-- HOME_WRITE_APPLY (R194). A home applies a write and computes its WCT. -/
  | homeWriteApply (wr : Nat)
  /-- WRITE_ACK (R197). A write acknowledgement with its WCT reaches the issuing fibre. -/
  | writeAck (wr : Nat)
  /-- L1_EVICTION (R191). An L1 evicts a dirty write-back line and writes its dirty bytes home. -/
  | l1Eviction (core : Nat) (line : Nat)
  /-- UPDATE_ONLY_GRANT (R202). A home grants an L1 update-only permission for reductions. -/
  | updateOnlyGrant (wr : Nat)
  /-- PARTIAL_FOLD (R203). A partial sent home is folded into its line. -/
  | partialFold (part : Nat)
  /-- RECALL_REPLY (R203). Holders' partials or holds arrive in answer to a recall and the waiting request is served. -/
  | recallReply (line : Nat)
  /-- PAGE_WALK (R216). A TLB miss is resolved by a walk of the page tables at their homes. -/
  | pageWalk (core : Nat) (ctx : Nat) (va : Nat)
  /-- STAGING_DONE (R226). A staged page's copy completes and its leaf becomes resident. -/
  | stagingDone (job : Nat)
  /-- EVICTION_DONE (R226). An evicted page's write-back completes and its leaf returns to STATE 1. -/
  | evictionDone (job : Nat)
  /-- COLLAPSE_DONE (R222). All copy leases have expired and the page becomes resident with REPL 0. -/
  | collapseDone (job : Nat)
  /-- MIGRATION_BEGIN (R227). The command processor sets a page migrating and starts its copy. -/
  | migrationBegin (ctx : Nat) (va : Nat) (die : Nat) (frame : Nat)
  /-- MIGRATION_DONE (R227). A migration copy passes its WCT and the page becomes resident at the new frame. -/
  | migrationDone (job : Nat)
  /-- UNCORRECTABLE_ERROR (R225). An uncorrectable memory error poisons a line or is refilled from a sound copy. -/
  | uncorrectableError (line : Nat)
  /-- HOTNESS_HALVE (R228). Every 1 ms of GT every hotness counter is halved. -/
  | hotnessHalve (die : Nat)
  /-- PORTER_START (R209). A Porter command begins its reads and writes after earlier conflicting commands complete. -/
  | porterStart (cmd : Nat)
  /-- PORTER_COMPLETE (R210). A Porter command completes, releases its ranges, writes its token and decrements its flag. -/
  | porterComplete (cmd : Nat)
  /-- MMA_COMPLETE (R271). An MMA has updated every tile element and decrements its flag. -/
  | mmaComplete (g : Nat) (op : Nat)
  /-- ACCRD_COMPLETE (R273). An ACCRD writes its registers and decrements its flag. -/
  | accrdComplete (g : Nat) (op : Nat)
  /-- ACC_MOVE_COMPLETE (R275). An ACCLD or ACCST has moved every word and decrements its flag. -/
  | accMoveComplete (g : Nat) (op : Nat)
  /-- MLOOP_START (R280). All four quartet members have issued and the steps start, or a mismatch is recorded. -/
  | mloopStart (block : Nat) (quartet : Nat)
  /-- MLOOP_COMPLETE (R281). A room writes the last MLOOP step and decrements its member's flag. -/
  | mloopComplete (g : Nat) (op : Nat)
  /-- BARRIER_RELEASE (R177). A barrier's release is delivered to every member and its generation flips. -/
  | barrierRelease (bar : Nat)
  /-- SUMMARY_STEP (R290). The summary unit applies one summary instruction to its object under a hold. -/
  | summaryStep (g : Nat) (op : Nat)
  /-- SUMMARY_COMPLETE (R290). A summary step passes its hold's WCT and decrements its flag. -/
  | summaryComplete (g : Nat) (op : Nat)
  /-- SUMRD_RESULT (R295). A summary query is answered and its S destination written. -/
  | sumrdResult (g : Nat) (f : Nat)
  /-- HOLD_RECALL (R290). A request at a home recalls another core's summary hold. -/
  | holdRecall (line : Nat)
  /-- NBIND_RESOLVE (R307). NBIND's header read completes and the table entry is bound or a status written. -/
  | nbindResolve (g : Nat) (f : Nat)
  /-- CARAVAN_LANE_PLACE (R310). An admitted instruction's lanes are placed into open caravan tiles. -/
  | caravanLanePlace (ev : Nat)
  /-- CARAVAN_WINDOW_EXPIRY (R310). A tile's gather window ends and it closes padded. -/
  | caravanWindowExpiry (tile : Nat)
  /-- CARAVAN_TILE_DONE (R312). A closed tile's evaluation ends, with outputs or a tile fault. -/
  | caravanTileDone (tile : Nat)
  /-- NEVAL_COMPLETE (R309). Every sent lane has returned; outputs and status are written and the flag decrements. -/
  | nevalComplete (ev : Nat)
  /-- TEX_COMPLETE (R317). A TEX writes its channels or network outputs and decrements its flag. -/
  | texComplete (ev : Nat)
  /-- SPLAT_SUBMIT (R325). The die's splat unit takes a SPLAT, opens the frame, culls and numbers the records. -/
  | splatSubmit (op : Nat)
  /-- SPLAT_COMPLETE (R325). Every submitted record has entered the splat network and the flag decrements. -/
  | splatComplete (op : Nat)
  /-- WAYSTATION_FILE (R328). An owning die files an arriving record in token order, or drops it on overflow. -/
  | waystationFile (recd : Nat)
  /-- FLUSH_REQUEST (R329). A die receives a flush request and sends its per-owner lists to the coordinator. -/
  | flushRequest (fl : Nat) (die : Nat)
  /-- FLUSH_LISTS_FORWARD (R329). The coordinator forwards the lists from every die to each owning die. -/
  | flushListsForward (fl : Nat)
  /-- TILE_COMPOSITE (R332). A tile whose records are all filed is sorted, composited, written and marked ready. -/
  | tileComposite (fl : Nat) (tile : Nat)
  /-- SPFLUSH_COMPLETE (R329). Every tile is written, the frame closes, the token is written and the flag decrements. -/
  | spflushComplete (fl : Nat)
  /-- LAUNCH_APPEND (R148). The command processor reads a device LAUNCH packet, appends it and writes the status. -/
  | launchAppend (la : Nat)
  /-- COURIER_SETUP (R403). The coordinating Courier reads the program, takes a slot and sends it to every die. -/
  | courierSetup (cmd : Nat)
  /-- COURIER_PROGRAM_BEGIN (R403). Every die has acknowledged and every instance begins at step 0. -/
  | courierProgramBegin (slot : Nat)
  /-- CSTEP_SEND (R405). Copies a chunk to a peer's buffer and raises its counter on delivery. -/
  | cstepSend (slot : Nat) (rank : Nat) (stp : Nat)
  /-- CSTEP_RECV (R405). Waits until a receive counter reaches a threshold. -/
  | cstepRecv (slot : Nat) (rank : Nat) (stp : Nat)
  /-- CSTEP_RRED (R405). Sends the local reduction of two buffers to a peer. -/
  | cstepRred (slot : Nat) (rank : Nat) (stp : Nat)
  /-- CSTEP_RACC (R405). Reduces one local buffer into another. -/
  | cstepRacc (slot : Nat) (rank : Nat) (stp : Nat)
  /-- CSTEP_COPY (R405). Copies one local buffer to another. -/
  | cstepCopy (slot : Nat) (rank : Nat) (stp : Nat)
  /-- CSTEP_WAIT (R405). Waits until every started SEND and RRED has been delivered. -/
  | cstepWait (slot : Nat) (rank : Nat) (stp : Nat)
  /-- CSTEP_LOOP (R405). Opens a loop and sets the loop index to 0. -/
  | cstepLoop (slot : Nat) (rank : Nat) (stp : Nat)
  /-- CSTEP_NEXT (R405). Advances the loop index and branches back while it is below the count. -/
  | cstepNext (slot : Nat) (rank : Nat) (stp : Nat)
  /-- CSTEP_ARM (R408). Arms a triggered step on a counter threshold. -/
  | cstepArm (slot : Nat) (rank : Nat) (stp : Nat)
  /-- CSTEP_SIG (R405). Releases and writes a value to a local word. -/
  | cstepSig (slot : Nat) (rank : Nat) (stp : Nat)
  /-- CSTEP_HALT (R409). Waits for every armed step and delivery, then halts the instance. -/
  | cstepHalt (slot : Nat) (rank : Nat) (stp : Nat)
  /-- COURIER_DELIVERY (R407). A SEND or RRED is applied at the peer past its WCT and the peer's counter is raised. -/
  | courierDelivery (dl : Nat)
  /-- COURIER_FAILURE (R418). An instance fails, tells every other instance to stop, and the slot is freed. -/
  | courierFailure (slot : Nat) (rank : Nat) (stp : Nat) (code : Nat)
  /-- COURIER_PROGRAM_END (R409). Every instance has halted and passed its WCT; the slot is freed and the flag decrements. -/
  | courierProgramEnd (slot : Nat)
  /-- GANG_PLACE (R358). A pending gang is placed on its die, pre-empting lower priorities if needed. -/
  | gangPlace (k : Nat)
  /-- GROUP_RETIRE (R140). A group whose fibres have ended, flags drained and WCTs passed retires. -/
  | groupRetire (g : Nat)
  /-- GROUP_SAVE (R371). A group is pre-empted and its record is written to both save copies. -/
  | groupSave (g : Nat)
  /-- GROUP_RESTORE (R376). A saved group is loaded from its record and placed with a new identifier. -/
  | groupRestore (g : Nat)
  /-- DRAIN_TOKEN_RETURN (R173). A fabric drain token returns and a wrapped group slot may be reused. -/
  | drainTokenReturn (die : Nat) (room : Nat) (slot : Nat)
  /-- STARV_ISSUE (R359). A begun group ready for STARV without issuing takes the next slot. -/
  | starvIssue (g : Nat)
  /-- STARV_RESTORE (R359). A begun group saved for STARV is restored at once. -/
  | starvRestore (g : Nat)
  /-- SPINH_TIMEOUT (R360). FAIRT passes in SPINH with no write and saved groups are treated as due. -/
  | spinhTimeout (g : Nat) (f : Nat)
  /-- WATCHDOG_EXPIRY (R348). A kernel's watchdog reaches WDOG and every fibre takes trap 0x0A. -/
  | watchdogExpiry (k : Nat)
  /-- WATCHDOG_FINAL (R369). WDOG more passes after expiry and every live fibre ends without a trap. -/
  | watchdogFinal (k : Nat)
  /-- KERNEL_RECORD_READ (R338). The launch record is read and merged, or rejected with status 3. -/
  | kernelRecordRead (k : Nat)
  /-- KERNEL_RELEASE (R356). The queue's dependences release a LAUNCH into staging. -/
  | kernelRelease (k : Nat)
  /-- KERNEL_STAGED (R343). Every working-set page is resident and the kernel is staged. -/
  | kernelStaged (k : Nat)
  /-- STAGING_TIMEOUT (R343). Staging waits WDOG and the kernel is interrupted with status 4. -/
  | stagingTimeout (k : Nat)
  /-- KERNEL_COMPLETE (R346). Draining write-back passes its WCT and the completion record is written. -/
  | kernelComplete (k : Nat)
  /-- DOORBELL (R350). A kick is written to a queue's doorbell and acceptance tries begin. -/
  | doorbell (ctx : Nat) (q : Nat) (kick : Word)
  /-- ACCEPT_REREAD (R354). A failing slot read is retried after 250 ns. -/
  | acceptReread (ctx : Nat) (q : Nat)
  /-- STALE_KICK (R354). A kick's tries go stale after STALE; STALEK is set and an event posted. -/
  | staleKick (ctx : Nat) (q : Nat)
  /-- PACKET_ACCEPT (R355). Both journal copies of a matched packet are written and ACCEPT advances. -/
  | packetAccept (ctx : Nat) (q : Nat)
  /-- PKT_LAUNCH (R353). A LAUNCH packet begins its kernel. -/
  | pktLaunch (ctx : Nat) (q : Nat) (sn : Nat)
  /-- PKT_COPY (R353). A COPY packet copies a global range on the copy channels. -/
  | pktCopy (ctx : Nat) (q : Nat) (sn : Nat)
  /-- PKT_WAIT (R353). A WAIT packet reads a word until its condition holds. -/
  | pktWait (ctx : Nat) (q : Nat) (sn : Nat)
  /-- PKT_WAIT_REREAD (R353). A WAIT packet's read is repeated after 1 µs or a write to the line. -/
  | pktWaitReread (ctx : Nat) (q : Nat) (sn : Nat)
  /-- PKT_SIGNAL (R353). A SIGNAL packet releases and writes or adds a value atomically. -/
  | pktSignal (ctx : Nat) (q : Nat) (sn : Nat)
  /-- PKT_STAGE (R353). A STAGE packet stages one range. -/
  | pktStage (ctx : Nat) (q : Nat) (sn : Nat)
  /-- PKT_INVALIDATE (R217). An INVALIDATE packet clears TLB entries of a range and waits for older accesses. -/
  | pktInvalidate (ctx : Nat) (q : Nat) (sn : Nat)
  /-- PKT_RESYNC (R361). A RESYNC packet writes a snapshot of the partition. -/
  | pktResync (ctx : Nat) (q : Nat) (sn : Nat)
  /-- PKT_NOP (R353). A NOP packet ends at once. -/
  | pktNop (ctx : Nat) (q : Nat) (sn : Nat)
  /-- PACKET_END (R356). A packet ends; DONE advances over ended packets and NOTIFY posts an event. -/
  | packetEnd (ctx : Nat) (q : Nat) (sn : Nat)
  /-- PCREATE (R364). Creates a partition and generates its key slot 0 and nonce. -/
  | pcreate (vf : Nat) (x0 : Nat) (y0 : Nat) (w : Nat) (h : Nat) (starv : Nat)
  /-- PDESTROY (R364). Destroys a partition's contexts, erases its keys and idles its positions. -/
  | pdestroy (vf : Nat) (p : Nat)
  /-- CCREATE (R364). Creates a context from a descriptor. -/
  | ccreate (vf : Nat) (p : Nat) (addr : Nat)
  /-- CUPDATE (R364). Reloads a context descriptor's fields. -/
  | cupdate (vf : Nat) (p : Nat) (n : Nat) (addr : Nat)
  /-- CRUN (R364). Moves a context from created to ready. -/
  | crun (vf : Nat) (p : Nat) (n : Nat)
  /-- CSAVE (R366). Saves every group of a context. -/
  | csave (vf : Nat) (p : Nat) (n : Nat)
  /-- CRESTORE (R366). Makes a saved context's gangs pending again. -/
  | crestore (vf : Nat) (p : Nat) (n : Nat)
  /-- CDESTROY (R366). Stops and scrubs a context. -/
  | cdestroy (vf : Nat) (p : Nat) (n : Nat)
  /-- LOGREAD (R442). Writes one die's error log to host memory. -/
  | logread (vf : Nat) (die : Nat) (addr : Nat)
  /-- MAILBOX_UNKNOWN_CODE (R364). A mailbox command with a code that names no command returns RESULT 1. -/
  | mailboxUnknownCode (vf : Nat) (code : Nat)
  /-- REGISTER_WRITE (R6). A write to a register with no row of its own follows its access codes. -/
  | registerWrite (reg : RegTarget) (val : Word)
  /-- PART_FAIL (R378). A part fails its retry and is marked failed. -/
  | partFail (part : Part)
  /-- GET_VERSION (R379). SPDM request for supported versions. -/
  | getVersion (link : Nat)
  /-- GET_CAPABILITIES (R379). SPDM request for capabilities. -/
  | getCapabilities (link : Nat)
  /-- NEGOTIATE_ALGORITHMS (R379). SPDM algorithm negotiation. -/
  | negotiateAlgorithms (link : Nat) (algs : Word)
  /-- GET_DIGESTS (R379). SPDM request for certificate digests. -/
  | getDigests (link : Nat)
  /-- GET_CERTIFICATE (R379). SPDM request for a certificate chain. -/
  | getCertificate (link : Nat) (cslot : Nat)
  /-- CHALLENGE (R379). SPDM challenge with a dual signature. -/
  | challenge (link : Nat) (nonce : BitVec 256)
  /-- GET_MEASUREMENTS (R380). SPDM request for signed measurement blocks. -/
  | getMeasurements (link : Nat) (idx : Nat) (nonce : BitVec 256)
  /-- KEY_EXCHANGE (R379). SPDM session key exchange. -/
  | keyExchange (link : Nat) (req : Nat)
  /-- FINISH (R379). SPDM session finish. -/
  | finish (link : Nat) (ok : Bool)
  /-- END_SESSION (R379). SPDM session end. -/
  | endSession (link : Nat)
  /-- HEARTBEAT (R379). SPDM session heartbeat. -/
  | heartbeat (link : Nat)
  /-- SETKEY (R383). Vendor request loading key slot 1 to 15. -/
  | setkey (link : Nat) (p : Nat) (kslot : Nat) (key : BitVec 512)
  /-- GETNONCE (R384). Vendor request returning the partition's passport nonce. -/
  | getnonce (link : Nat) (p : Nat)
  /-- PKEYS (R385). Vendor request setting the tenant's passport verification keys. -/
  | pkeys (link : Nat) (p : Nat) (ed : List Byte) (ml : List Byte)
  /-- PPINST (R385). Vendor request installing a passport. -/
  | ppinst (link : Nat) (p : Nat) (pass : List Byte)
  /-- PPDEL (R385). Vendor request removing the installed passport. -/
  | ppdel (link : Nat) (p : Nat)
  /-- PASSPORT_EXPIRY (R385). GT reaches the passport's EXPIRY and the debug registers clear. -/
  | passportExpiry (p : Nat)
  /-- LOCK_INTERFACE (R382). TDISP request locking a VF's configuration. -/
  | lockInterface (link : Nat) (vf : Nat)
  /-- START_INTERFACE (R382). TDISP request moving a locked context to ready. -/
  | startInterface (link : Nat) (vf : Nat)
  /-- STOP_INTERFACE (R382). TDISP request destroying the context and unlocking the TDI. -/
  | stopInterface (link : Nat) (vf : Nat)
  /-- GET_DEVICE_INTERFACE_REPORT (R382). TDISP request returning the VF's BARs, partition and context. -/
  | getDeviceInterfaceReport (link : Nat) (vf : Nat)
  /-- IDE_KM (R382). Keys a selective IDE stream through SPDM. -/
  | ideKm (link : Nat) (vf : Nat) (strm : Nat)
  /-- TLP_OUTSIDE_IDE_STREAM (R382). A TLP to a TDI outside its stream completes as UR and the TDI enters ERROR. -/
  | tlpOutsideIdeStream (vf : Nat)
  /-- TIME_EXCHANGE (R24). Every 10 µs a non-root die sends a stamped time request to its parent. -/
  | timeExchange (die : Nat)
  /-- TIME_REPLY (R24). A parent stamps a time request and replies. -/
  | timeReply (die : Nat)
  /-- TIME_CORRECTION (R24). A child receives the reply, computes the correction and slews or steps GT. -/
  | timeCorrection (die : Nat)
  /-- TIME_EXCHANGE_RETRY (R26). A failed exchange is retried, then the die re-parents or is marked time-lost. -/
  | timeExchangeRetry (die : Nat) (ok : Bool)
  /-- FLIT_RECEIVE (R390). A receiver accepts a flit or discards it and requests replay. -/
  | flitReceive (bnd : Nat) (dir : Nat) (flit : Flit)
  /-- REPLAY_REQUEST (R390). A sender resends from the named flit, or the boundary retrains. -/
  | replayRequest (bnd : Nat) (dir : Nat) (sn : Nat)
  /-- TRAINING_COMPLETE (R391). Boundary training ends up, degraded or failed. -/
  | trainingComplete (bnd : Nat) (bad : List Nat)
  /-- TRAINING_TIMEOUT (R391). Retraining has not ended 50 µs after it began. -/
  | trainingTimeout (bnd : Nat)
  /-- ETH_FRAME_RECEIVE (R414). A Courier Ethernet frame is written and the remote counter raised, or dropped. -/
  | ethFrameReceive (port : Nat) (frame : EthFrame)
  /-- ETH_RESEND_TIMEOUT (R414). 20 µs pass without acknowledgement and go-back-N resends. -/
  | ethResendTimeout (port : Nat)
  /-- ETH_LINK_LOSS (R401). An Ethernet port loses its link. -/
  | ethLinkLoss (port : Nat)
  /-- CXL_SNOOP (R400). A host snoop is answered after the line's leases expire. -/
  | cxlSnoop (line : Nat)
  /-- HOST_LINK_RESET (R437). PERST# or hot reset resets one host link port. -/
  | hostLinkReset (link : Nat)
  /-- VF_FLR (R437). A VF function-level reset destroys its context. -/
  | vfFlr (vf : Nat)
  /-- PF_FLR (R437). A PF function-level reset destroys every partition. -/
  | pfFlr
  /-- HEALTH_TEST_FAIL (R147). A noise health test fails; drawing stalls and HFAIL is set. -/
  | healthTestFail (core : Nat)
  /-- HEALTH_TEST_PASS (R147). The noise health tests pass again and drawing resumes. -/
  | healthTestPass (core : Nat)
  /-- HEALTH_FAIL_LOG (R147). A health failure lasting 1 ms is logged as a core error. -/
  | healthFailLog (core : Nat)
  /-- POWER_EN_RISE (R437). POWER_EN rises and panel reset begins. -/
  | powerEnRise
  /-- POWER_EN_FALL (R436). POWER_EN falls and the module goes off. -/
  | powerEnFall
  /-- RESET_N_ASSERT (R437). RESET_N held low for 1 ms causes panel reset. -/
  | resetNAssert
  /-- THERMAL_THROTTLE (R435). A junction above 105 °C lowers the arithmetic clock. -/
  | thermalThrottle (die : Nat)
  /-- THERMAL_SHUTDOWN (R435). A die or stack at 115 °C removes power from the module. -/
  | thermalShutdown (die : Nat)
  /-- UNDERVOLTAGE (R435). Input below 40 V for 1 ms removes power from the module. -/
  | undervoltage
  /-- FLIT_ACKNOWLEDGE (R390). A receiver's acknowledgement reaches the sender and the acknowledged flits leave its retry buffer. -/
  | flitAcknowledge (bnd : Nat) (dir : Nat) (sn : Nat)
  /-- FRAME_ACKNOWLEDGE (R414). An acknowledgement of Courier Ethernet frames reaches the sending Courier and stops their go-back-N resend. -/
  | frameAcknowledge (port : Nat) (sn : Nat)
  /-- HAND_OVER_ANNOUNCEMENT (R26). A die receives the new root's hand-over announcement on the time sideband, takes its parent in the new tree and exchanges within 2 µs. -/
  | handOverAnnouncement (die : Nat)
  /-- BARRIER_SIDEBAND_FAILURE (R391). A barrier-sideband exchange fails twice in a row and the boundary enters retraining. -/
  | barrierSidebandFailure (bnd : Nat)
  /-- TRANSIENT_FAULT (R378). An operation on a part fails once, its retry succeeds, and the fault is logged as transient. -/
  | transientFault (part : Part)
  /-- SCOREBOARD_WRITE_COMPLETE (R85). A short-latency instruction's register write completes and fibres held on it by the scoreboard become ready. -/
  | scoreboardWriteComplete (g : Nat)
  /-- CLEARING_COMPLETE (R52). The hardware clearing of a placed group's structures ends, so its first fibre can issue. -/
  | clearingComplete (g : Nat)
  /-- CQUERY_RESULT (R417). The Courier answers a CQUERY; Sd is written and the fibre performs acquire(4). -/
  | cqueryResult (g : Nat) (f : Nat)
  /-- BRING_UP_END (R437). Panel reset's training, tests, routing and time-tree build end; GT starts at zero and READY is set. -/
  | bringUpEnd (dead : List Nat) (bad : List Nat)
  deriving DecidableEq, Repr

end Sys2Proof
end

