-- ==== Sys2Proof/Decode.lean ====
section
/-! DEFINITION. Words to instructions and back (04_encoding R83 to R99, and the word formats of 05 to 20). -/

namespace Sys2Proof

/-- Why a word is no instruction. -/
inductive Reject where
  /-- The opcode is reserved in R98 or R99. -/
  | reservedOpcode
  /-- A field that must hold a fixed value holds another (R87, R88). -/
  | fixedBits
  deriving DecidableEq, Repr

/-- The register field's value (R35). -/
def LReg.ofField (b : BitVec 8) : LReg :=
  let n := b.toNat
  if h : n < 192 then .v ⟨n, h⟩
  else if n < 208 then .o (Fin.ofNat 16 (n - 192))
  else if n < 212 then .l (Fin.ofNat 4 (n - 208))
  else if n = 212 then .zero
  else if n = 213 then .lid
  else if n = 214 then .qid
  else if n = 215 then .none
  else if n < 224 then .q (Fin.ofNat 8 (n - 216))
  else .s (Fin.ofNat 32 (n - 224))

/-- The field that names a register (R35). -/
def LReg.toField : LReg → BitVec 8
  | .v k => BitVec.ofNat 8 k.val
  | .o k => BitVec.ofNat 8 (192 + k.val)
  | .l k => BitVec.ofNat 8 (208 + k.val)
  | .zero => 0xD4
  | .lid => 0xD5
  | .qid => 0xD6
  | .none => 0xD7
  | .q k => BitVec.ofNat 8 (216 + k.val)
  | .s k => BitVec.ofNat 8 (224 + k.val)

/-- The `n` bits of a word from bit `lo` up. -/
def field (w : Word) (lo n : Nat) : BitVec n := BitVec.ofNat n (w.toNat / 2 ^ lo)

/-- The lane register named by the eight bits from bit `lo` up (R35, R86). -/
def reg (w : Word) (lo : Nat) : LReg := LReg.ofField (field w lo 8)

/-- The sum of fields, each given by its lowest bit and its value. -/
def packFields : List (Nat × Nat) → Nat
  | [] => 0
  | (lo, v) :: fs => v * 2 ^ lo + packFields fs

/-- A word: its fixed bits and its fields in their places. -/
def word (fixed : Nat) (fields : List (Nat × Nat)) : Option Word := some (BitVec.ofNat 32 (fixed + packFields fields))

/-- Row 0x00 of the lane opcode map (R98). -/
def decodeRow0 (w : Word) (col : Nat) : Except Reject Instr :=
  match col with
  | 0 => .ok (.iadd (reg w 16) (reg w 8) (reg w 0))
  | 1 => .ok (.isub (reg w 16) (reg w 8) (reg w 0))
  | 2 => .ok (.imul (reg w 16) (reg w 8) (reg w 0))
  | 3 => .ok (.imulh (reg w 16) (reg w 8) (reg w 0))
  | 4 => .ok (.umulh (reg w 16) (reg w 8) (reg w 0))
  | 5 => .ok (.imad (reg w 16) (reg w 8) (reg w 0))
  | 6 => .ok (.imin (reg w 16) (reg w 8) (reg w 0))
  | 7 => .ok (.imax (reg w 16) (reg w 8) (reg w 0))
  | _ => .error .reservedOpcode

/-- Row 0x08 of the lane opcode map (R98). -/
def decodeRow1 (w : Word) (col : Nat) : Except Reject Instr :=
  match col with
  | 0 => .ok (.umin (reg w 16) (reg w 8) (reg w 0))
  | 1 => .ok (.umax (reg w 16) (reg w 8) (reg w 0))
  | 2 => .ok (.and (reg w 16) (reg w 8) (reg w 0))
  | 3 => .ok (.or (reg w 16) (reg w 8) (reg w 0))
  | 4 => .ok (.xor (reg w 16) (reg w 8) (reg w 0))
  | 5 => .ok (.andn (reg w 16) (reg w 8) (reg w 0))
  | 6 => .ok (.shl (reg w 16) (reg w 8) (reg w 0))
  | 7 => .ok (.shr (reg w 16) (reg w 8) (reg w 0))
  | _ => .error .reservedOpcode

/-- Row 0x10 of the lane opcode map (R98). -/
def decodeRow2 (w : Word) (col : Nat) : Except Reject Instr :=
  match col with
  | 0 => .ok (.sar (reg w 16) (reg w 8) (reg w 0))
  | 1 => .ok (.rol (reg w 16) (reg w 8) (reg w 0))
  | 2 => if field w 0 8 = 0xd4 then .ok (.popc (reg w 16) (reg w 8)) else .error .fixedBits
  | 3 => if field w 0 8 = 0xd4 then .ok (.clz (reg w 16) (reg w 8)) else .error .fixedBits
  | 4 => if field w 0 8 = 0xd4 then .ok (.brev (reg w 16) (reg w 8)) else .error .fixedBits
  | 5 => .ok (.bfx (reg w 16) (reg w 8) (reg w 0))
  | 6 => .ok (.bfi (reg w 16) (reg w 8) (reg w 0))
  | 7 => .ok (.icmp (field w 19 5) (field w 16 3) (reg w 8) (reg w 0))
  | _ => .error .reservedOpcode

/-- Row 0x18 of the lane opcode map (R98). -/
def decodeRow3 (w : Word) (col : Nat) : Except Reject Instr :=
  match col with
  | 0 => .ok (.ucmp (field w 19 5) (field w 16 3) (reg w 8) (reg w 0))
  | 1 => if field w 0 8 = 0xd4 then .ok (.mov (reg w 16) (reg w 8)) else .error .fixedBits
  | 2 => .ok (.sel (reg w 16) (reg w 8) (reg w 0))
  | 4 => .ok (.iaddi (reg w 16) (reg w 8) (field w 0 8))
  | 5 => if field w 5 3 = 0 then .ok (.shli (reg w 16) (reg w 8) (field w 0 5)) else .error .fixedBits
  | 6 => if field w 5 3 = 0 then .ok (.shri (reg w 16) (reg w 8) (field w 0 5)) else .error .fixedBits
  | 7 => if field w 5 3 = 0 then .ok (.sari (reg w 16) (reg w 8) (field w 0 5)) else .error .fixedBits
  | _ => .error .reservedOpcode

/-- Row 0x20 of the lane opcode map (R98). -/
def decodeRow4 (w : Word) (col : Nat) : Except Reject Instr :=
  match col with
  | 0 => .ok (.andi (reg w 16) (reg w 8) (field w 0 8))
  | 1 => .ok (.ori (reg w 16) (reg w 8) (field w 0 8))
  | 2 => .ok (.xori (reg w 16) (reg w 8) (field w 0 8))
  | 3 => .ok (.movi (reg w 16) (field w 0 16))
  | _ => .error .reservedOpcode

/-- Row 0x28 of the lane opcode map (R98). -/
def decodeRow5 (w : Word) (col : Nat) : Except Reject Instr :=
  match col with
  | 0 => .ok (.fadd (reg w 16) (reg w 8) (reg w 0))
  | 1 => .ok (.fsub (reg w 16) (reg w 8) (reg w 0))
  | 2 => .ok (.fmul (reg w 16) (reg w 8) (reg w 0))
  | 3 => .ok (.ffma (reg w 16) (reg w 8) (reg w 0))
  | 4 => .ok (.fmin (reg w 16) (reg w 8) (reg w 0))
  | 5 => .ok (.fmax (reg w 16) (reg w 8) (reg w 0))
  | 6 => .ok (.fcmp (field w 19 5) (field w 16 3) (reg w 8) (reg w 0))
  | 7 => if field w 0 8 = 0xd4 then .ok (.fclass (reg w 16) (reg w 8)) else .error .fixedBits
  | _ => .error .reservedOpcode

/-- Row 0x30 of the lane opcode map (R98). -/
def decodeRow6 (w : Word) (col : Nat) : Except Reject Instr :=
  match col with
  | 0 => if field w 0 8 = 0xd4 then .ok (.frcp (reg w 16) (reg w 8)) else .error .fixedBits
  | 1 => if field w 0 8 = 0xd4 then .ok (.frsq (reg w 16) (reg w 8)) else .error .fixedBits
  | 2 => if field w 0 8 = 0xd4 then .ok (.fsqrt (reg w 16) (reg w 8)) else .error .fixedBits
  | 3 => if field w 0 8 = 0xd4 then .ok (.fexp2 (reg w 16) (reg w 8)) else .error .fixedBits
  | 4 => if field w 0 8 = 0xd4 then .ok (.flog2 (reg w 16) (reg w 8)) else .error .fixedBits
  | 5 => if field w 0 8 = 0xd4 then .ok (.fsin (reg w 16) (reg w 8)) else .error .fixedBits
  | 6 => if field w 0 8 = 0xd4 then .ok (.fcos (reg w 16) (reg w 8)) else .error .fixedBits
  | 7 => if field w 0 8 = 0xd4 then .ok (.ftanh (reg w 16) (reg w 8)) else .error .fixedBits
  | _ => .error .reservedOpcode

/-- Row 0x38 of the lane opcode map (R98). -/
def decodeRow7 (w : Word) (col : Nat) : Except Reject Instr :=
  match col with
  | 0 => .ok (.hadd2 (reg w 16) (reg w 8) (reg w 0))
  | 1 => .ok (.hmul2 (reg w 16) (reg w 8) (reg w 0))
  | 2 => .ok (.hfma2 (reg w 16) (reg w 8) (reg w 0))
  | 3 => .ok (.hmin2 (reg w 16) (reg w 8) (reg w 0))
  | 4 => .ok (.hmax2 (reg w 16) (reg w 8) (reg w 0))
  | 5 => .ok (.dot4 (reg w 16) (reg w 8) (reg w 0))
  | 6 => .ok (.fdot2 (reg w 16) (reg w 8) (reg w 0))
  | 7 => if field w 0 8 = 0xd4 then .ok (.frnd (reg w 16) (reg w 8)) else .error .fixedBits
  | _ => .error .reservedOpcode

/-- Row 0x40 of the lane opcode map (R98). -/
def decodeRow8 (w : Word) (col : Nat) : Except Reject Instr :=
  match col with
  | 0 => if field w 0 8 = 0xd4 then .ok (.cvtif (reg w 16) (reg w 8)) else .error .fixedBits
  | 1 => if field w 0 8 = 0xd4 then .ok (.cvtfi (reg w 16) (reg w 8)) else .error .fixedBits
  | 2 => .ok (.cvtfh (reg w 16) (reg w 8) (reg w 0))
  | 3 => if field w 0 8 = 0xd4 then .ok (.cvthf (reg w 16) (reg w 8)) else .error .fixedBits
  | 4 => if field w 0 8 = 0xd4 then .ok (.cvt8p (reg w 16) (reg w 8)) else .error .fixedBits
  | 5 => if field w 0 8 = 0xd4 then .ok (.cvt8u (reg w 16) (reg w 8)) else .error .fixedBits
  | _ => .error .reservedOpcode

/-- Row 0x48 of the lane opcode map (R98). -/
def decodeRow9 (w : Word) (col : Nat) : Except Reject Instr :=
  match col with
  | 0 => if field w 0 8 = 0xd4 then .ok (.qswapx (reg w 16) (reg w 8)) else .error .fixedBits
  | 1 => if field w 0 8 = 0xd4 then .ok (.qswapy (reg w 16) (reg w 8)) else .error .fixedBits
  | 2 => if field w 0 8 = 0xd4 then .ok (.qswapd (reg w 16) (reg w 8)) else .error .fixedBits
  | 3 => .ok (.qbcast (reg w 16) (reg w 8) (reg w 0))
  | 4 => .ok (.shfl (reg w 16) (reg w 8) (reg w 0))
  | 5 => .ok (.shflup (reg w 16) (reg w 8) (reg w 0))
  | 6 => .ok (.shfldn (reg w 16) (reg w 8) (reg w 0))
  | 7 => if field w 7 1 = 0 then .ok (.reorder (reg w 16) (reg w 8) (field w 6 1) (field w 0 6)) else .error .fixedBits
  | _ => .error .reservedOpcode

/-- Row 0x50 of the lane opcode map (R98). -/
def decodeRow10 (w : Word) (col : Nat) : Except Reject Instr :=
  match col with
  | 0 => .ok (.ld8u (reg w 16) (reg w 8) (field w 0 8))
  | 1 => .ok (.ld8s (reg w 16) (reg w 8) (field w 0 8))
  | 2 => .ok (.ld16u (reg w 16) (reg w 8) (field w 0 8))
  | 3 => .ok (.ld32 (reg w 16) (reg w 8) (field w 0 8))
  | 4 => .ok (.ld64 (reg w 16) (reg w 8) (field w 0 8))
  | 5 => .ok (.ld128 (reg w 16) (reg w 8) (field w 0 8))
  | 6 => .ok (.st8 (reg w 16) (reg w 8) (field w 0 8))
  | 7 => .ok (.st16 (reg w 16) (reg w 8) (field w 0 8))
  | _ => .error .reservedOpcode

/-- Row 0x58 of the lane opcode map (R98). -/
def decodeRow11 (w : Word) (col : Nat) : Except Reject Instr :=
  match col with
  | 0 => .ok (.st32 (reg w 16) (reg w 8) (field w 0 8))
  | 1 => .ok (.st64 (reg w 16) (reg w 8) (field w 0 8))
  | 2 => .ok (.st128 (reg w 16) (reg w 8) (field w 0 8))
  | 3 => .ok (.lcpy (reg w 16) (reg w 8) (field w 0 8))
  | 4 => .ok (.lds32 (reg w 16) (reg w 8) (field w 0 8))
  | 5 => .ok (.lds64 (reg w 16) (reg w 8) (field w 0 8))
  | 6 => .ok (.lds128 (reg w 16) (reg w 8) (field w 0 8))
  | 7 => .ok (.sts32 (reg w 16) (reg w 8) (field w 0 8))
  | _ => .error .reservedOpcode

/-- Row 0x60 of the lane opcode map (R98). -/
def decodeRow12 (w : Word) (col : Nat) : Except Reject Instr :=
  match col with
  | 0 => .ok (.sts64 (reg w 16) (reg w 8) (field w 0 8))
  | 1 => .ok (.sts128 (reg w 16) (reg w 8) (field w 0 8))
  | 2 => .ok (.atadd (reg w 16) (reg w 8) (reg w 0))
  | 3 => .ok (.atfadd (reg w 16) (reg w 8) (reg w 0))
  | 4 => .ok (.atmin (reg w 16) (reg w 8) (reg w 0))
  | 5 => .ok (.atmax (reg w 16) (reg w 8) (reg w 0))
  | 6 => .ok (.atand (reg w 16) (reg w 8) (reg w 0))
  | 7 => .ok (.ator (reg w 16) (reg w 8) (reg w 0))
  | _ => .error .reservedOpcode

/-- Row 0x68 of the lane opcode map (R98). -/
def decodeRow13 (w : Word) (col : Nat) : Except Reject Instr :=
  match col with
  | 0 => .ok (.atxor (reg w 16) (reg w 8) (reg w 0))
  | 1 => .ok (.atxchg (reg w 16) (reg w 8) (reg w 0))
  | 2 => .ok (.atcas (reg w 16) (reg w 8) (reg w 0))
  | 3 => .ok (.atinc (reg w 16) (reg w 8) (reg w 0))
  | 4 => if field w 16 8 = 0xd4 then .ok (.redadd (reg w 8) (reg w 0)) else .error .fixedBits
  | 5 => if field w 16 8 = 0xd4 then .ok (.redfadd (reg w 8) (reg w 0)) else .error .fixedBits
  | 6 => if field w 16 8 = 0xd4 then .ok (.redmin (reg w 8) (reg w 0)) else .error .fixedBits
  | 7 => if field w 16 8 = 0xd4 then .ok (.redmax (reg w 8) (reg w 0)) else .error .fixedBits
  | _ => .error .reservedOpcode

/-- Row 0x70 of the lane opcode map (R98). -/
def decodeRow14 (w : Word) (col : Nat) : Except Reject Instr :=
  match col with
  | 0 => .ok (.mma (field w 20 4) (field w 16 4) (reg w 8) (reg w 0))
  | 1 => if field w 12 4 = 0 ∧ field w 2 6 = 0 then .ok (.accrd (reg w 16) (field w 8 4) (field w 0 2)) else .error .fixedBits
  | 2 => if field w 12 4 = 0 ∧ field w 2 6 = 0 then .ok (.accwr (reg w 16) (field w 8 4) (field w 0 2)) else .error .fixedBits
  | 3 => .ok (.neval (reg w 16) (reg w 8) (reg w 0))
  | 4 => if field w 5 3 = 0x7 ∧ field w 0 3 = 0 then .ok (.tex (reg w 16) (reg w 8) (field w 3 2)) else .error .fixedBits
  | 5 => if field w 13 3 = 0x7 ∧ field w 0 9 = 0xd4 then .ok (.splat (reg w 16) (field w 9 4)) else .error .fixedBits
  | 6 => if field w 13 11 = 0x6a7 ∧ field w 8 1 = 0 then .ok (.sumq (field w 9 4) (reg w 0)) else .error .fixedBits
  | 7 => if field w 13 11 = 0x6a7 ∧ field w 8 1 = 0 then .ok (.sumh (field w 9 4) (reg w 0)) else .error .fixedBits
  | _ => .error .reservedOpcode

/-- Row 0x78 of the lane opcode map (R98). -/
def decodeRow15 (w : Word) (col : Nat) : Except Reject Instr :=
  match col with
  | 0 => if field w 13 11 = 0x6a7 ∧ field w 8 1 = 0 then .ok (.sumd (field w 9 4) (reg w 0)) else .error .fixedBits
  | _ => .error .reservedOpcode

/-- Row 0x00 of the uniform opcode map (R99). -/
def decodeRow16 (w : Word) (col : Nat) : Except Reject Instr :=
  match col with
  | 0 => .ok (.clause (field w 12 12) (field w 8 4) (field w 4 4) (field w 0 4))
  | 1 => if field w 0 1 = 0 then .ok (.pfx (reg w 16) (field w 13 3) (field w 12 1) (field w 9 3) (field w 5 4) (field w 4 1) (field w 2 2) (field w 1 1)) else .error .fixedBits
  | 2 => .ok (.pfxi (field w 0 24))
  | 3 => if field w 0 9 = 0 then .ok (.rep (field w 18 6) (field w 15 3) (field w 12 3) (field w 9 3)) else .error .fixedBits
  | 4 => if field w 0 24 = 0 then .ok (.nop) else .error .fixedBits
  | 5 => .ok (.bra (field w 0 24))
  | 6 => .ok (.brc (field w 18 6) (field w 16 2) (field w 0 16))
  | 7 => if field w 21 3 = 0 then .ok (.brp (field w 18 3) (field w 16 2) (field w 0 16)) else .error .fixedBits
  | _ => .error .reservedOpcode

/-- Row 0x08 of the uniform opcode map (R99). -/
def decodeRow17 (w : Word) (col : Nat) : Except Reject Instr :=
  match col with
  | 0 => .ok (.call (field w 0 24))
  | 1 => if field w 0 24 = 0 then .ok (.ret) else .error .fixedBits
  | 2 => if field w 21 3 = 0 ∧ field w 16 2 = 0 then .ok (.fork (field w 18 3) (field w 0 16)) else .error .fixedBits
  | 3 => if field w 0 24 = 0 then .ok (.fdone) else .error .fixedBits
  | 4 => if field w 15 9 = 0 ∧ field w 0 12 = 0 then .ok (.join (field w 12 3)) else .error .fixedBits
  | 5 => if field w 0 24 = 0 then .ok (.yield) else .error .fixedBits
  | 6 => if field w 12 12 = 0 then .ok (.waitf (field w 0 12)) else .error .fixedBits
  | 7 => if field w 0 24 = 0 then .ok (.exit) else .error .fixedBits
  | _ => .error .reservedOpcode

/-- Row 0x10 of the uniform opcode map (R99). -/
def decodeRow18 (w : Word) (col : Nat) : Except Reject Instr :=
  match col with
  | 0 => if field w 0 6 = 0 then .ok (.sadd (field w 18 6) (field w 12 6) (field w 6 6)) else .error .fixedBits
  | 1 => if field w 0 6 = 0 then .ok (.ssub (field w 18 6) (field w 12 6) (field w 6 6)) else .error .fixedBits
  | 2 => if field w 0 6 = 0 then .ok (.smul (field w 18 6) (field w 12 6) (field w 6 6)) else .error .fixedBits
  | 3 => if field w 1 5 = 0 then .ok (.smulh (field w 18 6) (field w 12 6) (field w 6 6) (field w 0 1)) else .error .fixedBits
  | 4 => if field w 0 6 = 0 then .ok (.sand (field w 18 6) (field w 12 6) (field w 6 6)) else .error .fixedBits
  | 5 => if field w 0 6 = 0 then .ok (.sor (field w 18 6) (field w 12 6) (field w 6 6)) else .error .fixedBits
  | 6 => if field w 0 6 = 0 then .ok (.sxor (field w 18 6) (field w 12 6) (field w 6 6)) else .error .fixedBits
  | 7 => if field w 0 6 = 0 then .ok (.sshl (field w 18 6) (field w 12 6) (field w 6 6)) else if field w 5 7 = 0x1 then .ok (.sshlImm (field w 18 6) (field w 12 6) (field w 0 5)) else .error .fixedBits
  | _ => .error .reservedOpcode

/-- Row 0x18 of the uniform opcode map (R99). -/
def decodeRow19 (w : Word) (col : Nat) : Except Reject Instr :=
  match col with
  | 0 => if field w 0 6 = 0 then .ok (.sshr (field w 18 6) (field w 12 6) (field w 6 6)) else if field w 5 7 = 0x1 then .ok (.sshrImm (field w 18 6) (field w 12 6) (field w 0 5)) else .error .fixedBits
  | 1 => if field w 0 6 = 0 then .ok (.ssar (field w 18 6) (field w 12 6) (field w 6 6)) else if field w 5 7 = 0x1 then .ok (.ssarImm (field w 18 6) (field w 12 6) (field w 0 5)) else .error .fixedBits
  | 2 => if field w 1 5 = 0 then .ok (.smin (field w 18 6) (field w 12 6) (field w 6 6) (field w 0 1)) else .error .fixedBits
  | 3 => if field w 1 5 = 0 then .ok (.smax (field w 18 6) (field w 12 6) (field w 6 6) (field w 0 1)) else .error .fixedBits
  | 4 => if field w 4 2 = 0 then .ok (.scmp (field w 18 6) (field w 12 6) (field w 6 6) (field w 3 1) (field w 0 3)) else .error .fixedBits
  | 5 => .ok (.ssel (field w 18 6) (field w 12 6) (field w 6 6) (field w 0 6))
  | 6 => if field w 0 12 = 0 then .ok (.spopc (field w 18 6) (field w 12 6)) else .error .fixedBits
  | 7 => if field w 0 12 = 0 then .ok (.sclz (field w 18 6) (field w 12 6)) else .error .fixedBits
  | _ => .error .reservedOpcode

/-- Row 0x20 of the uniform opcode map (R99). -/
def decodeRow20 (w : Word) (col : Nat) : Except Reject Instr :=
  match col with
  | 0 => if field w 0 12 = 0 then .ok (.smov (field w 18 6) (field w 12 6)) else .error .fixedBits
  | 1 => .ok (.smovi (field w 18 6) (field w 0 18))
  | 2 => if field w 16 2 = 0 then .ok (.smovh (field w 18 6) (field w 0 16)) else .error .fixedBits
  | 3 => .ok (.saddi (field w 18 6) (field w 0 18))
  | 4 => if field w 0 6 = 0 then .ok (.sadd64 (field w 18 6) (field w 12 6) (field w 6 6)) else .error .fixedBits
  | 5 => if field w 21 3 = 0 ∧ field w 0 12 = 0 then .ok (.sballot (field w 18 3) (field w 12 6)) else if field w 15 3 = 0 ∧ field w 0 12 = 0x1 then .ok (.sballotToS (field w 18 6) (field w 12 3)) else .error .fixedBits
  | 6 => if field w 21 3 = 0 ∧ field w 15 3 = 0 ∧ field w 9 3 = 0 ∧ field w 0 6 = 0 then .ok (.pand (field w 18 3) (field w 12 3) (field w 6 3)) else .error .fixedBits
  | 7 => if field w 21 3 = 0 ∧ field w 15 3 = 0 ∧ field w 9 3 = 0 ∧ field w 0 6 = 0 then .ok (.por (field w 18 3) (field w 12 3) (field w 6 3)) else .error .fixedBits
  | _ => .error .reservedOpcode

/-- Row 0x28 of the uniform opcode map (R99). -/
def decodeRow21 (w : Word) (col : Nat) : Except Reject Instr :=
  match col with
  | 0 => if field w 21 3 = 0 ∧ field w 15 3 = 0 ∧ field w 9 3 = 0 ∧ field w 0 6 = 0 then .ok (.pxor (field w 18 3) (field w 12 3) (field w 6 3)) else .error .fixedBits
  | 1 => if field w 21 3 = 0 ∧ field w 15 3 = 0 ∧ field w 0 12 = 0 then .ok (.pnot (field w 18 3) (field w 12 3)) else .error .fixedBits
  | 2 => if field w 0 4 = 0 then .ok (.rdlane (field w 18 6) (field w 12 6) (reg w 4)) else .error .fixedBits
  | 3 => if field w 0 4 = 0 then .ok (.wrlane (field w 18 6) (field w 12 6) (reg w 4)) else .error .fixedBits
  | _ => .error .reservedOpcode

/-- Row 0x30 of the uniform opcode map (R99). -/
def decodeRow22 (w : Word) (col : Nat) : Except Reject Instr :=
  match col with
  | 0 => if field w 0 3 = 0 then .ok (.sld (field w 18 6) (field w 12 6) (field w 6 6) (field w 4 2) (field w 3 1)) else .error .fixedBits
  | 1 => if field w 0 3 = 0 then .ok (.sst (field w 18 6) (field w 12 6) (field w 6 6) (field w 4 2) (field w 3 1)) else .error .fixedBits
  | 2 => .ok (.satom (field w 18 6) (field w 12 6) (field w 6 6) (field w 4 2) (field w 0 4))
  | 3 => if field w 2 22 = 0 then .ok (.fence (field w 0 2)) else .error .fixedBits
  | 4 => if field w 18 6 = 0 ∧ field w 0 6 = 0 then .ok (.icinv (field w 12 6) (field w 6 6)) else .error .fixedBits
  | 5 => if field w 0 24 = 0 then .ok (.isync) else .error .fixedBits
  | 6 => if field w 18 6 = 0 ∧ field w 0 6 = 0 then .ok (.cwb (field w 12 6) (field w 6 6)) else if field w 0 24 = 0x1 then .ok (.cwbAll) else .error .fixedBits
  | 7 => if field w 18 6 = 0 ∧ field w 0 6 = 0 then .ok (.pref (field w 12 6) (field w 6 6)) else if field w 18 6 = 0 ∧ field w 0 6 = 0x1 then .ok (.prefHome (field w 12 6) (field w 6 6)) else .error .fixedBits
  | _ => .error .reservedOpcode

/-- Row 0x40 of the uniform opcode map (R99). -/
def decodeRow24 (w : Word) (col : Nat) : Except Reject Instr :=
  match col with
  | 0 => if field w 5 7 = 0 then .ok (.pcopy (field w 18 6) (field w 12 6) (field w 4 1) (field w 0 4)) else .error .fixedBits
  | 1 => if field w 5 7 = 0 then .ok (.ptile (field w 18 6) (field w 12 6) (field w 4 1) (field w 0 4)) else .error .fixedBits
  | 2 => if field w 5 7 = 0 then .ok (.pstore (field w 18 6) (field w 12 6) (field w 4 1) (field w 0 4)) else .error .fixedBits
  | 3 => if field w 5 7 = 0 then .ok (.pgath (field w 18 6) (field w 12 6) (field w 4 1) (field w 0 4)) else .error .fixedBits
  | 4 => if field w 5 7 = 0 then .ok (.pscat (field w 18 6) (field w 12 6) (field w 4 1) (field w 0 4)) else .error .fixedBits
  | 5 => if field w 5 7 = 0 then .ok (.pfill (field w 18 6) (field w 12 6) (field w 4 1) (field w 0 4)) else .error .fixedBits
  | _ => .error .reservedOpcode

/-- Row 0x48 of the uniform opcode map (R99). -/
def decodeRow25 (w : Word) (col : Nat) : Except Reject Instr :=
  match col with
  | 0 => if field w 18 6 = 0 ∧ field w 4 8 = 0 then .ok (.mloop (field w 12 6) (field w 0 4)) else .error .fixedBits
  | 1 => if field w 4 20 = 0 then .ok (.accz (field w 0 4)) else .error .fixedBits
  | 2 => if field w 22 2 = 0 ∧ field w 4 8 = 0 then .ok (.accld (field w 18 4) (field w 12 6) (field w 0 4)) else .error .fixedBits
  | 3 => if field w 22 2 = 0 ∧ field w 4 8 = 0 then .ok (.accst (field w 18 4) (field w 12 6) (field w 0 4)) else .error .fixedBits
  | 4 => if field w 6 18 = 0 then .ok (.mlink (field w 4 2) (field w 0 4)) else .error .fixedBits
  | _ => .error .reservedOpcode

/-- Row 0x50 of the uniform opcode map (R99). -/
def decodeRow26 (w : Word) (col : Nat) : Except Reject Instr :=
  match col with
  | 0 => if field w 6 12 = 0 then .ok (.barr (field w 18 6) (field w 4 2) (field w 0 4)) else .error .fixedBits
  | 1 => if field w 18 6 = 0 ∧ field w 6 6 = 0 then .ok (.barw (field w 12 6) (field w 4 2) (field w 0 4)) else .error .fixedBits
  | 2 => if field w 6 18 = 0 then .ok (.barrw (field w 4 2) (field w 0 4)) else .error .fixedBits
  | 3 => if field w 6 12 = 0 then .ok (.barq (field w 18 6) (field w 4 2) (field w 0 4)) else .error .fixedBits
  | 4 => if field w 18 6 = 0 ∧ field w 0 12 = 0 then .ok (.spinh (field w 12 6)) else .error .fixedBits
  | _ => .error .reservedOpcode

/-- Row 0x58 of the uniform opcode map (R99). -/
def decodeRow27 (w : Word) (col : Nat) : Except Reject Instr :=
  match col with
  | 0 => if field w 20 4 = 0 ∧ field w 4 8 = 0 then .ok (.suminit (field w 18 2) (field w 12 6) (field w 0 4)) else .error .fixedBits
  | 1 => if field w 18 6 = 0 ∧ field w 4 2 = 0 then .ok (.summerge (field w 12 6) (field w 6 6) (field w 0 4)) else .error .fixedBits
  | 2 => .ok (.sumrd (field w 18 6) (field w 12 6) (field w 6 6) (field w 0 6))
  | _ => .error .reservedOpcode

/-- Row 0x60 of the uniform opcode map (R99). -/
def decodeRow28 (w : Word) (col : Nat) : Except Reject Instr :=
  match col with
  | 0 => if field w 0 12 = 0 then .ok (.nbind (field w 18 6) (field w 12 6)) else if field w 0 12 = 0x1 then .ok (.nbindRel (field w 18 6) (field w 12 6)) else .error .fixedBits
  | 1 => if field w 4 8 = 0 then .ok (.spflush (field w 18 6) (field w 12 6) (field w 0 4)) else .error .fixedBits
  | 2 => if field w 0 12 = 0 then .ok (.sptile (field w 18 6) (field w 12 6)) else .error .fixedBits
  | _ => .error .reservedOpcode

/-- Row 0x68 of the uniform opcode map (R99). -/
def decodeRow29 (w : Word) (col : Nat) : Except Reject Instr :=
  match col with
  | 0 => if field w 4 8 = 0 then .ok (.cstart (field w 18 6) (field w 12 6) (field w 0 4)) else .error .fixedBits
  | 1 => if field w 18 6 = 0 ∧ field w 4 2 = 0 then .ok (.carm (field w 12 6) (field w 6 6) (field w 0 4)) else .error .fixedBits
  | 2 => if field w 4 8 = 0 then .ok (.cquery (field w 18 6) (field w 12 6) (field w 0 4)) else if field w 0 12 = 0x10 then .ok (.cqueryState (field w 18 6) (field w 12 6)) else .error .fixedBits
  | _ => .error .reservedOpcode

/-- Row 0x70 of the uniform opcode map (R99). -/
def decodeRow30 (w : Word) (col : Nat) : Except Reject Instr :=
  match col with
  | 0 => if field w 18 6 = 0 then .ok (.trap (field w 0 18)) else .error .fixedBits
  | 1 => .ok (.rdsr (field w 18 6) (field w 0 18))
  | 2 => .ok (.wrsr (field w 18 6) (field w 0 18))
  | 3 => if field w 0 18 = 0 then .ok (.rdtime (field w 18 6)) else .error .fixedBits
  | 4 => if field w 0 18 = 0 then .ok (.rng (field w 18 6)) else .error .fixedBits
  | 5 => if field w 0 24 = 0 then .ok (.region) else .error .fixedBits
  | 6 => if field w 4 2 = 0 then .ok (.launch (field w 18 6) (field w 12 6) (field w 6 6) (field w 0 4)) else .error .fixedBits
  | _ => .error .reservedOpcode

/-- The instruction of a word (R86, R88, R98, R99). Total: a word of no row is rejected by name. -/
def decode (w : Word) : Except Reject Instr :=
  let col := (field w 24 3).toNat
  match (field w 27 5).toNat with
  | 0 => decodeRow0 w col
  | 1 => decodeRow1 w col
  | 2 => decodeRow2 w col
  | 3 => decodeRow3 w col
  | 4 => decodeRow4 w col
  | 5 => decodeRow5 w col
  | 6 => decodeRow6 w col
  | 7 => decodeRow7 w col
  | 8 => decodeRow8 w col
  | 9 => decodeRow9 w col
  | 10 => decodeRow10 w col
  | 11 => decodeRow11 w col
  | 12 => decodeRow12 w col
  | 13 => decodeRow13 w col
  | 14 => decodeRow14 w col
  | 15 => decodeRow15 w col
  | 16 => decodeRow16 w col
  | 17 => decodeRow17 w col
  | 18 => decodeRow18 w col
  | 19 => decodeRow19 w col
  | 20 => decodeRow20 w col
  | 21 => decodeRow21 w col
  | 22 => decodeRow22 w col
  | 24 => decodeRow24 w col
  | 25 => decodeRow25 w col
  | 26 => decodeRow26 w col
  | 27 => decodeRow27 w col
  | 28 => decodeRow28 w col
  | 29 => decodeRow29 w col
  | 30 => decodeRow30 w col
  | _ => .error .reservedOpcode

/-- The word of an instruction, from the encoding tables (R83 to R99); an event has none. -/
def encode : Instr → Option Word
  | .iadd d a b => word 0x00000000 [(16, d.toField.toNat), (8, a.toField.toNat), (0, b.toField.toNat)]
  | .isub d a b => word 0x01000000 [(16, d.toField.toNat), (8, a.toField.toNat), (0, b.toField.toNat)]
  | .imul d a b => word 0x02000000 [(16, d.toField.toNat), (8, a.toField.toNat), (0, b.toField.toNat)]
  | .imulh d a b => word 0x03000000 [(16, d.toField.toNat), (8, a.toField.toNat), (0, b.toField.toNat)]
  | .umulh d a b => word 0x04000000 [(16, d.toField.toNat), (8, a.toField.toNat), (0, b.toField.toNat)]
  | .imad d a b => word 0x05000000 [(16, d.toField.toNat), (8, a.toField.toNat), (0, b.toField.toNat)]
  | .imin d a b => word 0x06000000 [(16, d.toField.toNat), (8, a.toField.toNat), (0, b.toField.toNat)]
  | .imax d a b => word 0x07000000 [(16, d.toField.toNat), (8, a.toField.toNat), (0, b.toField.toNat)]
  | .umin d a b => word 0x08000000 [(16, d.toField.toNat), (8, a.toField.toNat), (0, b.toField.toNat)]
  | .umax d a b => word 0x09000000 [(16, d.toField.toNat), (8, a.toField.toNat), (0, b.toField.toNat)]
  | .and d a b => word 0x0A000000 [(16, d.toField.toNat), (8, a.toField.toNat), (0, b.toField.toNat)]
  | .or d a b => word 0x0B000000 [(16, d.toField.toNat), (8, a.toField.toNat), (0, b.toField.toNat)]
  | .xor d a b => word 0x0C000000 [(16, d.toField.toNat), (8, a.toField.toNat), (0, b.toField.toNat)]
  | .andn d a b => word 0x0D000000 [(16, d.toField.toNat), (8, a.toField.toNat), (0, b.toField.toNat)]
  | .shl d a b => word 0x0E000000 [(16, d.toField.toNat), (8, a.toField.toNat), (0, b.toField.toNat)]
  | .shr d a b => word 0x0F000000 [(16, d.toField.toNat), (8, a.toField.toNat), (0, b.toField.toNat)]
  | .sar d a b => word 0x10000000 [(16, d.toField.toNat), (8, a.toField.toNat), (0, b.toField.toNat)]
  | .rol d a b => word 0x11000000 [(16, d.toField.toNat), (8, a.toField.toNat), (0, b.toField.toNat)]
  | .popc d a => word 0x120000D4 [(16, d.toField.toNat), (8, a.toField.toNat)]
  | .clz d a => word 0x130000D4 [(16, d.toField.toNat), (8, a.toField.toNat)]
  | .brev d a => word 0x140000D4 [(16, d.toField.toNat), (8, a.toField.toNat)]
  | .bfx d a b => word 0x15000000 [(16, d.toField.toNat), (8, a.toField.toNat), (0, b.toField.toNat)]
  | .bfi d a b => word 0x16000000 [(16, d.toField.toNat), (8, a.toField.toNat), (0, b.toField.toNat)]
  | .icmp c p a b => word 0x17000000 [(19, c.toNat), (16, p.toNat), (8, a.toField.toNat), (0, b.toField.toNat)]
  | .ucmp c p a b => word 0x18000000 [(19, c.toNat), (16, p.toNat), (8, a.toField.toNat), (0, b.toField.toNat)]
  | .mov d a => word 0x190000D4 [(16, d.toField.toNat), (8, a.toField.toNat)]
  | .sel d a b => word 0x1A000000 [(16, d.toField.toNat), (8, a.toField.toNat), (0, b.toField.toNat)]
  | .iaddi d a i => word 0x1C000000 [(16, d.toField.toNat), (8, a.toField.toNat), (0, i.toNat)]
  | .shli d a i => word 0x1D000000 [(16, d.toField.toNat), (8, a.toField.toNat), (0, i.toNat)]
  | .shri d a i => word 0x1E000000 [(16, d.toField.toNat), (8, a.toField.toNat), (0, i.toNat)]
  | .sari d a i => word 0x1F000000 [(16, d.toField.toNat), (8, a.toField.toNat), (0, i.toNat)]
  | .andi d a i => word 0x20000000 [(16, d.toField.toNat), (8, a.toField.toNat), (0, i.toNat)]
  | .ori d a i => word 0x21000000 [(16, d.toField.toNat), (8, a.toField.toNat), (0, i.toNat)]
  | .xori d a i => word 0x22000000 [(16, d.toField.toNat), (8, a.toField.toNat), (0, i.toNat)]
  | .movi d i => word 0x23000000 [(16, d.toField.toNat), (0, i.toNat)]
  | .fadd d a b => word 0x28000000 [(16, d.toField.toNat), (8, a.toField.toNat), (0, b.toField.toNat)]
  | .fsub d a b => word 0x29000000 [(16, d.toField.toNat), (8, a.toField.toNat), (0, b.toField.toNat)]
  | .fmul d a b => word 0x2A000000 [(16, d.toField.toNat), (8, a.toField.toNat), (0, b.toField.toNat)]
  | .ffma d a b => word 0x2B000000 [(16, d.toField.toNat), (8, a.toField.toNat), (0, b.toField.toNat)]
  | .fmin d a b => word 0x2C000000 [(16, d.toField.toNat), (8, a.toField.toNat), (0, b.toField.toNat)]
  | .fmax d a b => word 0x2D000000 [(16, d.toField.toNat), (8, a.toField.toNat), (0, b.toField.toNat)]
  | .fcmp c p a b => word 0x2E000000 [(19, c.toNat), (16, p.toNat), (8, a.toField.toNat), (0, b.toField.toNat)]
  | .fclass d a => word 0x2F0000D4 [(16, d.toField.toNat), (8, a.toField.toNat)]
  | .frcp d a => word 0x300000D4 [(16, d.toField.toNat), (8, a.toField.toNat)]
  | .frsq d a => word 0x310000D4 [(16, d.toField.toNat), (8, a.toField.toNat)]
  | .fsqrt d a => word 0x320000D4 [(16, d.toField.toNat), (8, a.toField.toNat)]
  | .fexp2 d a => word 0x330000D4 [(16, d.toField.toNat), (8, a.toField.toNat)]
  | .flog2 d a => word 0x340000D4 [(16, d.toField.toNat), (8, a.toField.toNat)]
  | .fsin d a => word 0x350000D4 [(16, d.toField.toNat), (8, a.toField.toNat)]
  | .fcos d a => word 0x360000D4 [(16, d.toField.toNat), (8, a.toField.toNat)]
  | .ftanh d a => word 0x370000D4 [(16, d.toField.toNat), (8, a.toField.toNat)]
  | .hadd2 d a b => word 0x38000000 [(16, d.toField.toNat), (8, a.toField.toNat), (0, b.toField.toNat)]
  | .hmul2 d a b => word 0x39000000 [(16, d.toField.toNat), (8, a.toField.toNat), (0, b.toField.toNat)]
  | .hfma2 d a b => word 0x3A000000 [(16, d.toField.toNat), (8, a.toField.toNat), (0, b.toField.toNat)]
  | .hmin2 d a b => word 0x3B000000 [(16, d.toField.toNat), (8, a.toField.toNat), (0, b.toField.toNat)]
  | .hmax2 d a b => word 0x3C000000 [(16, d.toField.toNat), (8, a.toField.toNat), (0, b.toField.toNat)]
  | .dot4 d a b => word 0x3D000000 [(16, d.toField.toNat), (8, a.toField.toNat), (0, b.toField.toNat)]
  | .fdot2 d a b => word 0x3E000000 [(16, d.toField.toNat), (8, a.toField.toNat), (0, b.toField.toNat)]
  | .frnd d a => word 0x3F0000D4 [(16, d.toField.toNat), (8, a.toField.toNat)]
  | .cvtif d a => word 0x400000D4 [(16, d.toField.toNat), (8, a.toField.toNat)]
  | .cvtfi d a => word 0x410000D4 [(16, d.toField.toNat), (8, a.toField.toNat)]
  | .cvtfh d a b => word 0x42000000 [(16, d.toField.toNat), (8, a.toField.toNat), (0, b.toField.toNat)]
  | .cvthf d a => word 0x430000D4 [(16, d.toField.toNat), (8, a.toField.toNat)]
  | .cvt8p d a => word 0x440000D4 [(16, d.toField.toNat), (8, a.toField.toNat)]
  | .cvt8u d a => word 0x450000D4 [(16, d.toField.toNat), (8, a.toField.toNat)]
  | .qswapx d a => word 0x480000D4 [(16, d.toField.toNat), (8, a.toField.toNat)]
  | .qswapy d a => word 0x490000D4 [(16, d.toField.toNat), (8, a.toField.toNat)]
  | .qswapd d a => word 0x4A0000D4 [(16, d.toField.toNat), (8, a.toField.toNat)]
  | .qbcast d a b => word 0x4B000000 [(16, d.toField.toNat), (8, a.toField.toNat), (0, b.toField.toNat)]
  | .shfl d a b => word 0x4C000000 [(16, d.toField.toNat), (8, a.toField.toNat), (0, b.toField.toNat)]
  | .shflup d a b => word 0x4D000000 [(16, d.toField.toNat), (8, a.toField.toNat), (0, b.toField.toNat)]
  | .shfldn d a b => word 0x4E000000 [(16, d.toField.toNat), (8, a.toField.toNat), (0, b.toField.toNat)]
  | .reorder b k i c => word 0x4F000000 [(16, b.toField.toNat), (8, k.toField.toNat), (6, i.toNat), (0, c.toNat)]
  | .ld8u d a f => word 0x50000000 [(16, d.toField.toNat), (8, a.toField.toNat), (0, f.toNat)]
  | .ld8s d a f => word 0x51000000 [(16, d.toField.toNat), (8, a.toField.toNat), (0, f.toNat)]
  | .ld16u d a f => word 0x52000000 [(16, d.toField.toNat), (8, a.toField.toNat), (0, f.toNat)]
  | .ld32 d a f => word 0x53000000 [(16, d.toField.toNat), (8, a.toField.toNat), (0, f.toNat)]
  | .ld64 d a f => word 0x54000000 [(16, d.toField.toNat), (8, a.toField.toNat), (0, f.toNat)]
  | .ld128 d a f => word 0x55000000 [(16, d.toField.toNat), (8, a.toField.toNat), (0, f.toNat)]
  | .st8 d a f => word 0x56000000 [(16, d.toField.toNat), (8, a.toField.toNat), (0, f.toNat)]
  | .st16 d a f => word 0x57000000 [(16, d.toField.toNat), (8, a.toField.toNat), (0, f.toNat)]
  | .st32 d a f => word 0x58000000 [(16, d.toField.toNat), (8, a.toField.toNat), (0, f.toNat)]
  | .st64 d a f => word 0x59000000 [(16, d.toField.toNat), (8, a.toField.toNat), (0, f.toNat)]
  | .st128 d a f => word 0x5A000000 [(16, d.toField.toNat), (8, a.toField.toNat), (0, f.toNat)]
  | .lcpy d a f => word 0x5B000000 [(16, d.toField.toNat), (8, a.toField.toNat), (0, f.toNat)]
  | .lds32 d a f => word 0x5C000000 [(16, d.toField.toNat), (8, a.toField.toNat), (0, f.toNat)]
  | .lds64 d a f => word 0x5D000000 [(16, d.toField.toNat), (8, a.toField.toNat), (0, f.toNat)]
  | .lds128 d a f => word 0x5E000000 [(16, d.toField.toNat), (8, a.toField.toNat), (0, f.toNat)]
  | .sts32 d a f => word 0x5F000000 [(16, d.toField.toNat), (8, a.toField.toNat), (0, f.toNat)]
  | .sts64 d a f => word 0x60000000 [(16, d.toField.toNat), (8, a.toField.toNat), (0, f.toNat)]
  | .sts128 d a f => word 0x61000000 [(16, d.toField.toNat), (8, a.toField.toNat), (0, f.toNat)]
  | .atadd d a b => word 0x62000000 [(16, d.toField.toNat), (8, a.toField.toNat), (0, b.toField.toNat)]
  | .atfadd d a b => word 0x63000000 [(16, d.toField.toNat), (8, a.toField.toNat), (0, b.toField.toNat)]
  | .atmin d a b => word 0x64000000 [(16, d.toField.toNat), (8, a.toField.toNat), (0, b.toField.toNat)]
  | .atmax d a b => word 0x65000000 [(16, d.toField.toNat), (8, a.toField.toNat), (0, b.toField.toNat)]
  | .atand d a b => word 0x66000000 [(16, d.toField.toNat), (8, a.toField.toNat), (0, b.toField.toNat)]
  | .ator d a b => word 0x67000000 [(16, d.toField.toNat), (8, a.toField.toNat), (0, b.toField.toNat)]
  | .atxor d a b => word 0x68000000 [(16, d.toField.toNat), (8, a.toField.toNat), (0, b.toField.toNat)]
  | .atxchg d a b => word 0x69000000 [(16, d.toField.toNat), (8, a.toField.toNat), (0, b.toField.toNat)]
  | .atcas d a b => word 0x6A000000 [(16, d.toField.toNat), (8, a.toField.toNat), (0, b.toField.toNat)]
  | .atinc d a b => word 0x6B000000 [(16, d.toField.toNat), (8, a.toField.toNat), (0, b.toField.toNat)]
  | .redadd a b => word 0x6CD40000 [(8, a.toField.toNat), (0, b.toField.toNat)]
  | .redfadd a b => word 0x6DD40000 [(8, a.toField.toNat), (0, b.toField.toNat)]
  | .redmin a b => word 0x6ED40000 [(8, a.toField.toNat), (0, b.toField.toNat)]
  | .redmax a b => word 0x6FD40000 [(8, a.toField.toNat), (0, b.toField.toNat)]
  | .mma y t a b => word 0x70000000 [(20, y.toNat), (16, t.toNat), (8, a.toField.toNat), (0, b.toField.toNat)]
  | .accrd r t g => word 0x71000000 [(16, r.toField.toNat), (8, t.toNat), (0, g.toNat)]
  | .accwr r t g => word 0x72000000 [(16, r.toField.toNat), (8, t.toNat), (0, g.toNat)]
  | .neval d a h => word 0x73000000 [(16, d.toField.toNat), (8, a.toField.toNat), (0, h.toField.toNat)]
  | .tex d c s => word 0x740000E0 [(16, d.toField.toNat), (8, c.toField.toNat), (3, s.toNat)]
  | .splat r f => word 0x7500E0D4 [(16, r.toField.toNat), (9, f.toNat)]
  | .sumq a v => word 0x76D4E000 [(9, a.toNat), (0, v.toField.toNat)]
  | .sumh a v => word 0x77D4E000 [(9, a.toNat), (0, v.toField.toNat)]
  | .sumd a v => word 0x78D4E000 [(9, a.toNat), (0, v.toField.toNat)]
  | .clause w a b l => word 0x80000000 [(12, w.toNat), (8, a.toNat), (4, b.toNat), (0, l.toNat)]
  | .pfx c m z r t s o f => word 0x81000000 [(16, c.toField.toNat), (13, m.toNat), (12, z.toNat), (9, r.toNat), (5, t.toNat), (4, s.toNat), (2, o.toNat), (1, f.toNat)]
  | .pfxi i => word 0x82000000 [(0, i.toNat)]
  | .rep c d a b => word 0x83000000 [(18, c.toNat), (15, d.toNat), (12, a.toNat), (9, b.toNat)]
  | .nop => word 0x84000000 []
  | .bra o => word 0x85000000 [(0, o.toNat)]
  | .brc s n o => word 0x86000000 [(18, s.toNat), (16, n.toNat), (0, o.toNat)]
  | .brp p n o => word 0x87000000 [(18, p.toNat), (16, n.toNat), (0, o.toNat)]
  | .call o => word 0x88000000 [(0, o.toNat)]
  | .ret => word 0x89000000 []
  | .fork p o => word 0x8A000000 [(18, p.toNat), (0, o.toNat)]
  | .fdone => word 0x8B000000 []
  | .join p => word 0x8C000000 [(12, p.toNat)]
  | .yield => word 0x8D000000 []
  | .waitf m => word 0x8E000000 [(0, m.toNat)]
  | .exit => word 0x8F000000 []
  | .sadd d a b => word 0x90000000 [(18, d.toNat), (12, a.toNat), (6, b.toNat)]
  | .ssub d a b => word 0x91000000 [(18, d.toNat), (12, a.toNat), (6, b.toNat)]
  | .smul d a b => word 0x92000000 [(18, d.toNat), (12, a.toNat), (6, b.toNat)]
  | .smulh d a b u => word 0x93000000 [(18, d.toNat), (12, a.toNat), (6, b.toNat), (0, u.toNat)]
  | .sand d a b => word 0x94000000 [(18, d.toNat), (12, a.toNat), (6, b.toNat)]
  | .sor d a b => word 0x95000000 [(18, d.toNat), (12, a.toNat), (6, b.toNat)]
  | .sxor d a b => word 0x96000000 [(18, d.toNat), (12, a.toNat), (6, b.toNat)]
  | .sshl d a b => word 0x97000000 [(18, d.toNat), (12, a.toNat), (6, b.toNat)]
  | .sshlImm d a n => word 0x97000020 [(18, d.toNat), (12, a.toNat), (0, n.toNat)]
  | .sshr d a b => word 0x98000000 [(18, d.toNat), (12, a.toNat), (6, b.toNat)]
  | .sshrImm d a n => word 0x98000020 [(18, d.toNat), (12, a.toNat), (0, n.toNat)]
  | .ssar d a b => word 0x99000000 [(18, d.toNat), (12, a.toNat), (6, b.toNat)]
  | .ssarImm d a n => word 0x99000020 [(18, d.toNat), (12, a.toNat), (0, n.toNat)]
  | .smin d a b u => word 0x9A000000 [(18, d.toNat), (12, a.toNat), (6, b.toNat), (0, u.toNat)]
  | .smax d a b u => word 0x9B000000 [(18, d.toNat), (12, a.toNat), (6, b.toNat), (0, u.toNat)]
  | .scmp d a b u c => word 0x9C000000 [(18, d.toNat), (12, a.toNat), (6, b.toNat), (3, u.toNat), (0, c.toNat)]
  | .ssel d a b c => word 0x9D000000 [(18, d.toNat), (12, a.toNat), (6, b.toNat), (0, c.toNat)]
  | .spopc d a => word 0x9E000000 [(18, d.toNat), (12, a.toNat)]
  | .sclz d a => word 0x9F000000 [(18, d.toNat), (12, a.toNat)]
  | .smov d a => word 0xA0000000 [(18, d.toNat), (12, a.toNat)]
  | .smovi d i => word 0xA1000000 [(18, d.toNat), (0, i.toNat)]
  | .smovh d i => word 0xA2000000 [(18, d.toNat), (0, i.toNat)]
  | .saddi d i => word 0xA3000000 [(18, d.toNat), (0, i.toNat)]
  | .sadd64 d a b => word 0xA4000000 [(18, d.toNat), (12, a.toNat), (6, b.toNat)]
  | .sballot p a => word 0xA5000000 [(18, p.toNat), (12, a.toNat)]
  | .sballotToS d p => word 0xA5000001 [(18, d.toNat), (12, p.toNat)]
  | .pand d a b => word 0xA6000000 [(18, d.toNat), (12, a.toNat), (6, b.toNat)]
  | .por d a b => word 0xA7000000 [(18, d.toNat), (12, a.toNat), (6, b.toNat)]
  | .pxor d a b => word 0xA8000000 [(18, d.toNat), (12, a.toNat), (6, b.toNat)]
  | .pnot d a => word 0xA9000000 [(18, d.toNat), (12, a.toNat)]
  | .rdlane d a v => word 0xAA000000 [(18, d.toNat), (12, a.toNat), (4, v.toField.toNat)]
  | .wrlane d a v => word 0xAB000000 [(18, d.toNat), (12, a.toNat), (4, v.toField.toNat)]
  | .sld d a b z o => word 0xB0000000 [(18, d.toNat), (12, a.toNat), (6, b.toNat), (4, z.toNat), (3, o.toNat)]
  | .sst d a b z o => word 0xB1000000 [(18, d.toNat), (12, a.toNat), (6, b.toNat), (4, z.toNat), (3, o.toNat)]
  | .satom d a b o p => word 0xB2000000 [(18, d.toNat), (12, a.toNat), (6, b.toNat), (4, o.toNat), (0, p.toNat)]
  | .fence f => word 0xB3000000 [(0, f.toNat)]
  | .icinv a b => word 0xB4000000 [(12, a.toNat), (6, b.toNat)]
  | .isync => word 0xB5000000 []
  | .cwb a b => word 0xB6000000 [(12, a.toNat), (6, b.toNat)]
  | .cwbAll => word 0xB6000001 []
  | .pref a b => word 0xB7000000 [(12, a.toNat), (6, b.toNat)]
  | .prefHome a b => word 0xB7000001 [(12, a.toNat), (6, b.toNat)]
  | .pcopy t d k f => word 0xC0000000 [(18, t.toNat), (12, d.toNat), (4, k.toNat), (0, f.toNat)]
  | .ptile t d k f => word 0xC1000000 [(18, t.toNat), (12, d.toNat), (4, k.toNat), (0, f.toNat)]
  | .pstore t d k f => word 0xC2000000 [(18, t.toNat), (12, d.toNat), (4, k.toNat), (0, f.toNat)]
  | .pgath t d k f => word 0xC3000000 [(18, t.toNat), (12, d.toNat), (4, k.toNat), (0, f.toNat)]
  | .pscat t d k f => word 0xC4000000 [(18, t.toNat), (12, d.toNat), (4, k.toNat), (0, f.toNat)]
  | .pfill t d k f => word 0xC5000000 [(18, t.toNat), (12, d.toNat), (4, k.toNat), (0, f.toNat)]
  | .mloop d f => word 0xC8000000 [(12, d.toNat), (0, f.toNat)]
  | .accz t => word 0xC9000000 [(0, t.toNat)]
  | .accld t a f => word 0xCA000000 [(18, t.toNat), (12, a.toNat), (0, f.toNat)]
  | .accst t a f => word 0xCB000000 [(18, t.toNat), (12, a.toNat), (0, f.toNat)]
  | .mlink l n => word 0xCC000000 [(4, l.toNat), (0, n.toNat)]
  | .barr d l n => word 0xD0000000 [(18, d.toNat), (4, l.toNat), (0, n.toNat)]
  | .barw a l n => word 0xD1000000 [(12, a.toNat), (4, l.toNat), (0, n.toNat)]
  | .barrw l n => word 0xD2000000 [(4, l.toNat), (0, n.toNat)]
  | .barq d l n => word 0xD3000000 [(18, d.toNat), (4, l.toNat), (0, n.toNat)]
  | .spinh a => word 0xD4000000 [(12, a.toNat)]
  | .suminit k a f => word 0xD8000000 [(18, k.toNat), (12, a.toNat), (0, f.toNat)]
  | .summerge a b f => word 0xD9000000 [(12, a.toNat), (6, b.toNat), (0, f.toNat)]
  | .sumrd d a b q => word 0xDA000000 [(18, d.toNat), (12, a.toNat), (6, b.toNat), (0, q.toNat)]
  | .nbind d a => word 0xE0000000 [(18, d.toNat), (12, a.toNat)]
  | .nbindRel d a => word 0xE0000001 [(18, d.toNat), (12, a.toNat)]
  | .spflush d a f => word 0xE1000000 [(18, d.toNat), (12, a.toNat), (0, f.toNat)]
  | .sptile d a => word 0xE2000000 [(18, d.toNat), (12, a.toNat)]
  | .cstart d a f => word 0xE8000000 [(18, d.toNat), (12, a.toNat), (0, f.toNat)]
  | .carm a b n => word 0xE9000000 [(12, a.toNat), (6, b.toNat), (0, n.toNat)]
  | .cquery d a n => word 0xEA000000 [(18, d.toNat), (12, a.toNat), (0, n.toNat)]
  | .cqueryState d a => word 0xEA000010 [(18, d.toNat), (12, a.toNat)]
  | .trap i => word 0xF0000000 [(0, i.toNat)]
  | .rdsr d i => word 0xF1000000 [(18, d.toNat), (0, i.toNat)]
  | .wrsr d i => word 0xF2000000 [(18, d.toNat), (0, i.toNat)]
  | .rdtime d => word 0xF3000000 [(18, d.toNat)]
  | .rng d => word 0xF4000000 [(18, d.toNat)]
  | .region => word 0xF5000000 []
  | .launch d a b f => word 0xF6000000 [(18, d.toNat), (12, a.toNat), (6, b.toNat), (0, f.toNat)]
  | .fibreWaitMet _ _ => none
  | .fibreDue _ _ => none
  | .abortedFibreResume _ _ => none
  | .trapDelivery _ _ => none
  | .loadReturn _ => none
  | .ldsReturn _ => none
  | .lcpyComplete _ => none
  | .atomicReturn _ => none
  | .sldReturn _ => none
  | .homeFill _ _ => none
  | .fillInstall _ => none
  | .leaseExpiry _ _ => none
  | .homeWriteApply _ => none
  | .writeAck _ => none
  | .l1Eviction _ _ => none
  | .updateOnlyGrant _ => none
  | .partialFold _ => none
  | .recallReply _ => none
  | .pageWalk _ _ _ => none
  | .stagingDone _ => none
  | .evictionDone _ => none
  | .collapseDone _ => none
  | .migrationBegin _ _ _ _ => none
  | .migrationDone _ => none
  | .uncorrectableError _ => none
  | .hotnessHalve _ => none
  | .porterStart _ => none
  | .porterComplete _ => none
  | .mmaComplete _ _ => none
  | .accrdComplete _ _ => none
  | .accMoveComplete _ _ => none
  | .mloopStart _ _ => none
  | .mloopComplete _ _ => none
  | .barrierRelease _ => none
  | .summaryStep _ _ => none
  | .summaryComplete _ _ => none
  | .sumrdResult _ _ => none
  | .holdRecall _ => none
  | .nbindResolve _ _ => none
  | .caravanLanePlace _ => none
  | .caravanWindowExpiry _ => none
  | .caravanTileDone _ => none
  | .nevalComplete _ => none
  | .texComplete _ => none
  | .splatSubmit _ => none
  | .splatComplete _ => none
  | .waystationFile _ => none
  | .flushRequest _ _ => none
  | .flushListsForward _ => none
  | .tileComposite _ _ => none
  | .spflushComplete _ => none
  | .launchAppend _ => none
  | .courierSetup _ => none
  | .courierProgramBegin _ => none
  | .cstepSend _ _ _ => none
  | .cstepRecv _ _ _ => none
  | .cstepRred _ _ _ => none
  | .cstepRacc _ _ _ => none
  | .cstepCopy _ _ _ => none
  | .cstepWait _ _ _ => none
  | .cstepLoop _ _ _ => none
  | .cstepNext _ _ _ => none
  | .cstepArm _ _ _ => none
  | .cstepSig _ _ _ => none
  | .cstepHalt _ _ _ => none
  | .courierDelivery _ => none
  | .courierFailure _ _ _ _ => none
  | .courierProgramEnd _ => none
  | .gangPlace _ => none
  | .groupRetire _ => none
  | .groupSave _ => none
  | .groupRestore _ => none
  | .drainTokenReturn _ _ _ => none
  | .starvIssue _ => none
  | .starvRestore _ => none
  | .spinhTimeout _ _ => none
  | .watchdogExpiry _ => none
  | .watchdogFinal _ => none
  | .kernelRecordRead _ => none
  | .kernelRelease _ => none
  | .kernelStaged _ => none
  | .stagingTimeout _ => none
  | .kernelComplete _ => none
  | .doorbell _ _ _ => none
  | .acceptReread _ _ => none
  | .staleKick _ _ => none
  | .packetAccept _ _ => none
  | .pktLaunch _ _ _ => none
  | .pktCopy _ _ _ => none
  | .pktWait _ _ _ => none
  | .pktWaitReread _ _ _ => none
  | .pktSignal _ _ _ => none
  | .pktStage _ _ _ => none
  | .pktInvalidate _ _ _ => none
  | .pktResync _ _ _ => none
  | .pktNop _ _ _ => none
  | .packetEnd _ _ _ => none
  | .pcreate _ _ _ _ _ _ => none
  | .pdestroy _ _ => none
  | .ccreate _ _ _ => none
  | .cupdate _ _ _ _ => none
  | .crun _ _ _ => none
  | .csave _ _ _ => none
  | .crestore _ _ _ => none
  | .cdestroy _ _ _ => none
  | .logread _ _ _ => none
  | .mailboxUnknownCode _ _ => none
  | .registerWrite _ _ => none
  | .partFail _ => none
  | .getVersion _ => none
  | .getCapabilities _ => none
  | .negotiateAlgorithms _ _ => none
  | .getDigests _ => none
  | .getCertificate _ _ => none
  | .challenge _ _ => none
  | .getMeasurements _ _ _ => none
  | .keyExchange _ _ => none
  | .finish _ _ => none
  | .endSession _ => none
  | .heartbeat _ => none
  | .setkey _ _ _ _ => none
  | .getnonce _ _ => none
  | .pkeys _ _ _ _ => none
  | .ppinst _ _ _ => none
  | .ppdel _ _ => none
  | .passportExpiry _ => none
  | .lockInterface _ _ => none
  | .startInterface _ _ => none
  | .stopInterface _ _ => none
  | .getDeviceInterfaceReport _ _ => none
  | .ideKm _ _ _ => none
  | .tlpOutsideIdeStream _ => none
  | .timeExchange _ => none
  | .timeReply _ => none
  | .timeCorrection _ => none
  | .timeExchangeRetry _ _ => none
  | .flitReceive _ _ _ => none
  | .replayRequest _ _ _ => none
  | .trainingComplete _ _ => none
  | .trainingTimeout _ => none
  | .ethFrameReceive _ _ => none
  | .ethResendTimeout _ => none
  | .ethLinkLoss _ => none
  | .cxlSnoop _ => none
  | .hostLinkReset _ => none
  | .vfFlr _ => none
  | .pfFlr => none
  | .healthTestFail _ => none
  | .healthTestPass _ => none
  | .healthFailLog _ => none
  | .powerEnRise => none
  | .powerEnFall => none
  | .resetNAssert => none
  | .thermalThrottle _ => none
  | .thermalShutdown _ => none
  | .undervoltage => none
  | .flitAcknowledge _ _ _ => none
  | .frameAcknowledge _ _ => none
  | .handOverAnnouncement _ => none
  | .barrierSidebandFailure _ => none
  | .transientFault _ => none
  | .scoreboardWriteComplete _ => none
  | .clearingComplete _ => none
  | .cqueryResult _ _ => none
  | .bringUpEnd _ _ => none

/-- The instruction the decoder reads from `nbits` bits `w` (32: a word, bit 0 least significant). -/
def decodeTableWord (nbits w : Nat) : Option Instr :=
  if nbits = 32 then (decode (BitVec.ofNat 32 w)).toOption else none

end Sys2Proof
end

