-- ==== Sys2Proof/Machine/State.lean ====
section
/-! DEFINITION. The state of the panel, as plain data, and the panel right after reset. -/

namespace Sys2Proof.Machine

/-! ## Work: fibres, groups, blocks -/

/-- A prefix word sequence read so far (04 R90): the chain's first address and its modifiers. `done` counts the
repetitions that stand complete (04 R96), `upto` how many a batched slot may have run so far (02 R33). -/
structure Chain where
  start : DWord
  rep : Option (BitVec 6 × BitVec 3 × BitVec 3 × BitVec 3)
  pfx : Option (LReg × BitVec 3 × BitVec 1 × BitVec 3 × BitVec 4 × BitVec 1 × BitVec 2 × BitVec 1)
  pfxi : Option (BitVec 24)
  done : Nat
  upto : Option Nat
  deriving DecidableEq, Repr

/-- The clause a fibre is in (04 R80, R83): its CLAUSE word's address, its counting flags, its wait mask and its words
as fetched; a word on a poisoned line is `none` (10 R218). -/
structure Clause where
  start : DWord
  flagA : Nat
  flagB : Nat
  words : List (Option Word)
  deriving DecidableEq, Repr

/-- A trap raised and not yet delivered (18 R367): `raised` orders the traps of a group, `clause` is the trapping
clause, `owed` says that the trap stands for a status already charged. -/
structure Trap where
  cause : Nat
  epc : DWord
  addr : DWord
  mask : Mask
  raised : Nat
  clause : Option Clause
  deriving DecidableEq, Repr

/-- A status that the fibre takes as a trap at its next wait on `flag` (11 R263, 12 R280, 13 R298, 14 R314, 15 R325,
20 R418). -/
structure Owed where
  flag : Nat
  cause : Nat
  addr : DWord
  mask : Mask
  deriving DecidableEq, Repr

/-- The fold operation of a reduction or an atomic (11 R243, R245, R247). -/
inductive AtomOp where
  | add | fadd | smin | smax | umin | umax | and | or | xor | xchg | cas | inc
  deriving DecidableEq, Repr

/-- One buffered write of a lane (11 R239): a store of bytes, or a reduction with its TYPE (09 R202). `va` is its global virtual
address. -/
inductive BufWrite where
  | store (va : Nat) (bytes : List Byte)
  | reduce (va : Nat) (op : AtomOp) (ty : Nat) (width : Nat) (b : DWord)
  deriving DecidableEq, Repr

/-- One instruction's buffered writes, in lane order, and the region-buffer entries they take (11 R239). -/
structure BufEntry where
  entries : Nat
  writes : List BufWrite
  deriving DecidableEq, Repr

/-- What a waiting fibre waits for (07 R153). The retried kinds re-execute their word once ready. -/
inductive Wait where
  /-- A clause start or WAITF: every flag of the mask reads 0. -/
  | flags (mask : BitVec 12)
  /-- A release wait: stores acknowledged and GT past the latest WCT of every scope up to `scope` (09 R197). -/
  | release (scope : Nat)
  /-- Elements of the hand-off queues popped, and a place in the one pushed (07 R171). -/
  | queue (pops : List Nat) (push : Option Nat)
  /-- A pending token S register (11 R246, R254). -/
  | token (reg : Nat)
  /-- Delivery of its first pending trap (18 R367). -/
  | trap
  /-- A code page in STATE 0, 1, 2 or 5 (10 R218). -/
  | fetch (va : Nat)
  /-- The release of barrier `bar`'s phase `gen`; the word then completes with an acquire (08 R180, R182). -/
  | barrier (bar : Nat) (gen : Bool)
  /-- A held lane of its own arrival while GEN was `gen` (08 R178): BARR's destination, or BARRW, which then waits for
  that phase. -/
  | held (bar : Nat) (gen : Bool) (reg : Option Nat)
  /-- An acknowledgement of every core (10 R229). -/
  | icinv
  /-- Write-backs up to this WCT (11 R249). -/
  | writeback (wct : Nat)
  /-- A write to a line, or a GT (17 R360). -/
  | spin (line : Nat) (until_ : Nat) (hit : Bool)
  /-- NBIND of the record at this address, or NBIND.REL of this handle, into this S register (14 R307). -/
  | nbind (rel : Bool) (arg : Nat) (reg : Nat)
  /-- The result of its SUMRD, an operation of its group's summary queue (13 R295). -/
  | sumrd (op : Nat)
  /-- SPTILE on a frame while no tile is claimable (15 R334). -/
  | sptile (va : Nat)
  /-- CQUERY: slot, counter or state word, destination (20 R417). -/
  | cquery (slot : Nat) (nc : Option Nat) (reg : Nat)
  /-- `n` draws, for a replay page that is not resident or a failed health test (06 R147). -/
  | noise (n : Nat)
  /-- An acquiring access that has not returned: its operation (11 R234, 09 R198). -/
  | acquire (op : Nat)
  deriving DecidableEq, Repr

/-- What holds the word of a stalled fibre (07 R153): writes in flight to registers, by their codes (04 R85); a flag at 127
(02 R44); or a bounded resource that its engine has no room in: `n` Porter lock entries (09 R206), a place in the MLOOP queue (12
R280), a frame's record (15 R325), a place in its Courier's command queue (20 R415); or a way through the mesh for its accesses (19
R390). -/
inductive Hold where
  | board (codes : List Nat)
  | flag (k : Nat)
  | locks (n : Nat)
  | loops
  | frame (va : Nat)
  | command
  | way
  deriving DecidableEq, Repr

/-- The state of a fibre (07 R153). -/
inductive FState where
  | ready
  | stalled (h : Hold)
  | waiting (w : Wait)
  | joinParked (need : Mask)
  | doneParked
  /-- Each page that aborted it: an address in it, whether the access only read, and whether the page was in STATE 0 and no
  INVALIDATE over it has ended since (10 R218). -/
  | aborted (pages : List (Nat × Bool × Bool))
  | ended
  deriving DecidableEq, Repr

/-- A fibre (02 R30). -/
structure Fibre where
  pc : DWord
  p0 : Mask
  state : FState
  clause : Option Clause
  chain : Option Chain
  /-- The branch word by which the fibre reached `pc`, when it did (04 R82). -/
  branch : Option DWord
  /-- Last-result file: key entry·64 + lane (02 R39). -/
  last : Table Word
  /-- Return stack, newest first (06 R138). -/
  stack : List DWord
  /-- Latest write completion time of each scope (09 R197). -/
  wct : Table Nat
  /-- Region buffer, oldest first (11 R239). -/
  buffer : List BufEntry
  /-- Region start (07 R159): its address and the clause in force there; `fresh` says that the next word the fibre
  issues begins a region. -/
  regionStart : DWord
  regionClause : Option Clause
  fresh : Bool
  /-- Handler level: the depth H (18 R367). -/
  handler : Option Nat
  trapClause : Option Clause
  traps : List Trap
  owed : List Owed
  yieldMark : Option Nat
  readySince : Option Nat
  due : Bool
  /-- A delivered watchdog trap: its RET at depth H ends the fibre (18 R369). -/
  doomed : Bool
  deriving DecidableEq, Repr

/-- The group states that are not derived from the fibres (07 R151): begun, waiting and region-aborted are one. -/
inductive GState where
  | pending | resident | begun | saved | retired
  deriving DecidableEq, Repr

/-- A member's quarter of an MLOOP's B (12 R281): X1 and X2 of its descriptor, and its V registers. -/
structure Quarter where
  x1 : Word
  x2 : Word
  v : Table Word
  deriving DecidableEq, Repr

/-- A tile operation not yet applied (12 R276): operands are as read at issue. -/
inductive TileKind where
  /-- MMA: types of A and B, and the fragments' registers, each numbered from its base. -/
  | mma (ta tb : Nat) (a b : Table Word)
  | accrd (reg : LReg) (rowg : Nat) (lanes : Mask) (zero : Mask)
  | accwr (rowg : Nat) (lanes : Mask) (vals : Table Word)
  | accz
  | accld (off : Nat)
  | accst (off : Nat)
  /-- MLOOP: its three descriptor words and its place in the member's sequence; once started, the quarters of the
  four members and the scratchpad as its steps read them. -/
  | mloop (x0 x1 x2 : Word) (seq : Nat) (read : Option (List Quarter × Table Byte))
  deriving DecidableEq, Repr

/-- One queued tile operation: its tile, and the flag it counts against (0: none). -/
structure TileOp where
  id : Nat
  fib : Nat
  kind : TileKind
  tile : Nat
  flag : Nat
  applied : Bool
  deriving DecidableEq, Repr

/-- A summary instruction of a group not yet complete (13 R290); SUMRD with its query, operand and destination. -/
inductive SumKind where
  | q | h | d
  | init (kind : Nat)
  | merge (src : Nat)
  | rd (fn : Nat) (arg : Word) (reg : Nat)
  deriving DecidableEq, Repr

/-- Its object, its contributions in lane order, its flag, the WCT once its step has been applied, and its status
(cause, address). -/
structure SumOp where
  id : Nat
  fib : Nat
  kind : SumKind
  va : Nat
  vals : List (Nat × DWord)
  flag : Nat
  applied : Option Nat
  status : Option (Nat × Nat)
  deriving DecidableEq, Repr

/-- A SPLAT of a group not yet complete (15 R325): record base register, lanes, frame, flag. -/
structure SplatOp where
  id : Nat
  gid : Nat
  fib : Nat
  rec0 : Nat
  lanes : Mask
  va : Nat
  flag : Nat
  taken : Bool
  status : Option Nat
  deriving DecidableEq, Repr

/-- A group (07 R150 to R152): a window of main registers, S, P, tiles, flags and fibres. -/
structure Group where
  kernel : Nat
  block : Nat
  width : Nat
  window : Nat
  tiles : Nat
  s1 : Nat
  s2 : Nat
  s3 : Nat
  given : Mask
  helpers : Mask
  state : GState
  clearing : Bool
  die : Nat
  core : Nat
  room : Nat
  slot : Nat
  gen : Nat
  /-- The window base: the first of its quad-rows of the room's register file, which all its fibres share (02 R30, R36). -/
  base : Nat
  /-- The room of its first placement, which names its shared tiles wherever it is restored (12 R265). -/
  accSet : Nat
  owed : List Owed
  /-- V registers: key register·64 + lane (02 R36). -/
  v : Table Word
  /-- O registers: key register·64 + lane (02 R38). -/
  o : Table Word
  s : Table Word
  /-- P1 to P7 (02 R41). -/
  p : Table Mask
  /-- Own accumulator tiles: key tile·2048 + row·64 + column (02 R42). -/
  acc : Table Word
  flags : Table Nat
  fibres : Table Fibre
  nextFibre : Nat
  tcause : Word
  tepc : DWord
  taddr : DWord
  tmask : Mask
  gtime : DWord
  pcsel : Table Word
  pcnt : Table Nat
  dbgctl : Word
  brk : DWord
  /-- Draws made from the group's noise segment, and whether logging has stopped (06 R147). -/
  segPos : Nat
  logStopped : Bool
  /-- Halfwords of the noise log not yet stored: address and value (06 R147). -/
  logQueue : List (Nat × Nat)
  /-- S registers whose value an operation will write (11 R246, R254): register, operation. -/
  tokens : Table Nat
  /-- V and O register codes whose short-latency write is in flight (04 R85). -/
  board : List Nat
  /-- Registers of lanes that a counting operation has written before its flag drains (04 R85): operation, register's cell. -/
  landed : List (Nat × Nat)
  tileOps : List TileOp
  mloopSeq : Nat
  /-- MLINK marks: barrier key, tile operations linked (08 R185). -/
  links : List (Nat × List Nat)
  sumOps : List SumOp
  /-- Latest WCT of every store the group issued (06 R140). -/
  wctMax : Nat
  /-- Words fetched ahead, by address (10 R230). -/
  ahead : Table Word
  beganAt : Nat
  savedAt : Nat
  starved : Bool
  lastIssue : Nat
  watchdogTrap : Bool
  /-- Restored groups perform acquire(4) before their first access (18 R376). -/
  placedSeq : Nat
  starvRestored : Nat
  /-- The groups whose timed-out SPINH helped restore it (17 R360). -/
  lentBy : List Nat
  /-- Its gang has been chosen for pre-emption (17 R358, R359). -/
  preempt : Bool
  deriving DecidableEq, Repr

/-- A block (02 R28): its scratchpad, hand-off queues and shared tiles. -/
structure Block where
  kernel : Nat
  s2 : Nat
  s3 : Nat
  die : Nat
  core : Nat
  placed : Bool
  size : Nat
  scratch : Table Byte
  /-- Queue k: its elements oldest first, each a table lane ↦ value. -/
  queues : Table (List (Table Word))
  /-- Shared tiles: key set·32768 + tile·2048 + row·64 + column (12 R265). -/
  shared : Table Word
  retired : Nat
  deriving DecidableEq, Repr

/-- The state of a barrier instance (08 R177). -/
inductive BState where
  | idle | counting | released
  deriving DecidableEq, Repr

/-- A barrier instance (08 R174, R177): its level 0 to 3 and number, its container (group, block, cluster or kernel),
the lanes covered for each group, held lanes, and the groups whose arrival is counted in the current phase. `linked` are the
lanes of each group whose arrival waits for the operations linked to it (R185), `sent` the groups whose arrival at a grid barrier
has left them and is held on its way (R184). -/
structure Barrier where
  kernel : Nat
  level : Nat
  num : Nat
  container : Nat
  gen : Bool
  state : BState
  covered : Table Mask
  held : Table Mask
  came : List Nat
  linked : Table Mask
  sent : List Nat
  deriving DecidableEq, Repr

/-! ## Memory in flight -/

/-- The home's record of a line (09 R192, R202; 13 R290), by physical line number. Each update-only holder, a core, stands
with the WCT of its grant. -/
structure HomeLine where
  eMax : Nat
  holders : List (Nat × Nat)
  hold : Option Nat
  recalling : Bool
  deriving DecidableEq, Repr

/-- A byte held in an L1 (09 R186, R191, R193): its scope, its lease expiry (scopes 2 to 4), whether it is dirty and the
group that owns it (scope 0). -/
structure L1Byte where
  val : Byte
  scope : Nat
  expiry : Nat
  dirty : Bool
  owner : Option Nat
  ctx : Nat
  served : Nat
  deriving DecidableEq, Repr

/-- A partial of reductions held by an L1, or sent home and not yet folded (09 R202): its kind is its operation, TYPE and
width. -/
structure Partial where
  core : Nat
  addr : Nat
  op : AtomOp
  ty : Nat
  width : Nat
  val : DWord
  sent : Bool
  ctx : Nat
  deriving DecidableEq, Repr

/-- What a write on its way does at its point of coherence. -/
inductive WriteKind where
  | store (bytes : List Byte)
  /-- A lane of returning atomic `op`: operation, width in bytes, operands. -/
  | atomic (op : Nat) (lane : Nat) (f : AtomOp) (width : Nat) (b c : DWord)
  /-- A reduction that asks for its line update-only (09 R202). -/
  | reduce (f : AtomOp) (ty : Nat) (width : Nat) (b : DWord)
  /-- A reduction on a page that is not cacheable, folded at the home (09 R190). -/
  | fold (f : AtomOp) (width : Nat) (b : DWord)
  deriving DecidableEq, Repr

/-- A write sent and not yet acknowledged (09 R194, R197), with its kernel, the 32-bit identifier that its acknowledgement is
addressed to (07 R173), and the fibres whose completion-time state it enters. `wct` is set once it has been applied. -/
structure Write where
  kernel : Nat
  ident : Nat
  gid : Nat
  fibs : List Nat
  core : Nat
  ctx : Nat
  scope : Nat
  addr : Nat
  kind : WriteKind
  wct : Option Nat
  /-- The key under which its acknowledgement entered the mesh, once it is applied (19 R398). -/
  replied : Nat := 0
  deriving DecidableEq, Repr

/-- Where an operation's result goes. -/
inductive Dest where
  | lane (r : LReg) (regs : Nat)
  | sreg (k : Nat) (regs : Nat)
  | scratch
  deriving DecidableEq, Repr

/-- The kind of a counted memory operation. -/
inductive OpKind where
  | load | lds | lcpy | atomic | sld | satom | tex
  deriving DecidableEq, Repr

/-- One lane's piece of an access: `n` bytes at physical address `addr` (its bytes land at `off` in the lane's data),
in a page of a scope, cacheable or not. -/
structure Piece where
  lane : Nat
  off : Nat
  addr : Nat
  n : Nat
  scope : Nat
  cache : Bool
  deriving DecidableEq, Repr

/-- A memory operation in flight (11 R234, R238, R243, R246, R252). `got` holds bytes captured, key lane·512 + offset;
`base` and `skip` give, for each lane, the lowest virtual address captured and how many bytes lie below the access's
own; `overlay` lists the fibre's own buffered writes that the access sees; `scope` is the acquire's. -/
structure Op where
  kind : OpKind
  /-- The 32-bit identifier of the group that its data are addressed to (07 R150, R173). -/
  ident : Nat
  gid : Nat
  fib : Nat
  core : Nat
  ctx : Nat
  flag : Nat
  dest : Dest
  size : Nat
  signed : Bool
  lanes : Mask
  zero : Mask
  pieces : List Piece
  base : Table Nat
  skip : Table Nat
  overlay : List BufWrite
  got : Table Byte
  scope : Nat
  acquire : Bool
  /-- LCPY: scratchpad offset and byte count of each lane. -/
  copies : List (Nat × Nat × Nat)
  deriving DecidableEq, Repr

/-- A fill on its way to an L1 (09 R192, R193): its bytes are the grain from byte `off` of its line (11 R233); `keep` says
that the L1 installs it, `served` orders fills by service; `ident` is the identifier of the group that it is addressed to (07
R150, R173). -/
structure Fill where
  op : Nat
  ident : Nat
  core : Nat
  ctx : Nat
  line : Nat
  off : Nat
  bytes : List Byte
  scope : Nat
  expiry : Nat
  keep : Bool
  owner : Option Nat
  served : Nat
  deriving DecidableEq, Repr

/-- A page TLB entry (10 R216). -/
structure TlbEntry where
  core : Nat
  ctx : Nat
  va : Nat
  size : Nat
  leaf : DWord
  deriving DecidableEq, Repr

/-- A range entry (10 R215). -/
structure RangeEntry where
  base : DWord
  limit : DWord
  offset : DWord
  attr : DWord
  deriving DecidableEq, Repr

/-- What the command processor is doing to a page (10 R222, R226, R227). -/
inductive JobKind where
  | stage | evict | collapse | migrate
  deriving DecidableEq, Repr

/-- A page job in progress: context, page, size, address of its leaf, pool entry, target frame, times. -/
structure Job where
  kind : JobKind
  ctx : Nat
  va : Nat
  size : Nat
  leafAddr : Nat
  pool : Nat
  frame : Nat
  wct : Nat
  die : Nat
  bad : Nat
  deriving DecidableEq, Repr

/-- A range registered by a Porter command (09 R206): scratchpad or global, read or write, [lo, hi). -/
structure Range where
  scratch : Bool
  write : Bool
  lo : Nat
  hi : Nat
  deriving DecidableEq, Repr

/-- The Porter's six commands (11 R253). -/
inductive PorterOp where
  | copy | tile | store | gath | scat | fill
  deriving DecidableEq, Repr

/-- A Porter command in flight (11 R254): its descriptor D0 to D7 as read at issue, and the values drawn for it. -/
structure PorterCmd where
  op : PorterOp
  gid : Nat
  fib : Nat
  core : Nat
  ctx : Nat
  block : Nat
  d : List Word
  token : Option Nat
  flag : Nat
  ranges : List Range
  started : Bool
  wct : Nat
  status : Nat
  info : Nat
  failAddr : Nat
  coins : List Nat
  outl : Word
  dup : Option (List (Nat × Nat))
  deriving DecidableEq, Repr

/-! ## Caravan, texture, splat -/

/-- A network table entry (14 R306). -/
structure NetEntry where
  bound : Bool
  addr : Nat
  refs : Nat
  gen : Nat
  header : List Byte
  freeing : Bool
  deriving DecidableEq, Repr

/-- A row of a caravan tile: the evaluation it belongs to, its lane and its inputs. -/
structure CRow where
  ev : Nat
  lane : Nat
  x : List Word
  helper : Bool
  deriving DecidableEq, Repr

/-- A caravan tile (14 R310). -/
structure CTile where
  core : Nat
  ctx : Nat
  handle : Word
  openedAt : Nat
  window : Nat
  rows : List CRow
  closed : Bool
  deriving DecidableEq, Repr

/-- A NEVAL or a neural TEX in flight (14 R309, R317): its first output register, its status predicate, its active
lanes, the lanes not yet placed (handle, inputs, whether a helper), the lanes sent that have not returned, the outputs
returned, the lanes faulted with their cause address, and its kernel's gather window. `frac` gives the fractions of a
TEX's lanes while its texels are on their way, `chans` its channels. -/
structure Eval where
  tex : Bool
  gid : Nat
  fib : Nat
  core : Nat
  ctx : Nat
  flag : Nat
  out : Nat
  status : Option Nat
  active : Mask
  toPlace : List (Nat × Word × List Word × Bool)
  waiting : Nat
  results : List (Nat × List Word)
  faulted : List (Nat × Nat)
  window : Nat
  mute : Bool
  frac : List (Nat × Nat × Nat)
  chans : Nat
  handle : Word
  deriving DecidableEq, Repr

/-- A tile of a frame that its owning die has composited and marked ready (15 R334), with its covered pixels. -/
structure ReadyTile where
  tile : Nat
  pixels : List (Nat × Nat)
  quads : DWord
  claimed : Bool
  wct : Nat
  deriving DecidableEq, Repr

/-- A frame open on a die, or its claims after its flush (15 R325, R334): its descriptor and map as read, the cause and
byte offset of a rejection, its counter, its culls and drops, the flush that its request belongs to, the records it sent
(owner, tile, count), the records it filed or dropped (tile, submitting rank, count), the tokens of its bins' slots
(tile, slot, token), the lowest tile whose bin could not be written, its ready tiles, and whether a flush has reached
it since its last opening. -/
structure Frame where
  die : Nat
  ctx : Nat
  va : Nat
  isOpen : Bool
  desc : List Byte
  omap : List Byte
  rejected : Option (Nat × Nat)
  ctr : Nat
  culled : Nat
  dropped : Nat
  flush : Option Nat
  sentTo : List (Nat × Nat × Nat)
  filed : List (Nat × Nat × Nat)
  tokens : List (Nat × Nat × Nat)
  bad : Option Nat
  ready : List ReadyTile
  flushed : Bool
  deriving DecidableEq, Repr

/-- A splat record on the splat network (15 R325, R328), with the identifier of the group that submitted it (07 R150). -/
structure SplatRec where
  ident : Nat
  ctx : Nat
  va : Nat
  fromRank : Nat
  toDie : Nat
  token : Nat
  bytes : List Byte
  tiles : List Nat
  deriving DecidableEq, Repr

/-- A flush in progress (15 R329): its coordinator, the dies that its request has reached, their lists (owner, tile,
submitting rank, records sent), the tiles composited, the latest WCT, the opacity stop, the lowest tile that could not be
written, the byte offset of a rejection. -/
structure Flush where
  ctx : Nat
  va : Nat
  die : Nat
  gid : Nat
  fib : Nat
  token : Nat
  flag : Nat
  reached : List Nat
  lists : List (Nat × Nat × Nat × Nat)
  forwarded : List Nat
  tilesDone : List Nat
  wct : Nat
  opaq : Word
  bad : Option Nat
  rejected : Option Nat
  deriving DecidableEq, Repr

/-! ## Kernels, queues, contexts -/

/-- The state of a kernel (16 R344). -/
inductive KState where
  | described | staging | staged | launched | running | draining | complete | interrupted
  deriving DecidableEq, Repr

/-- A kernel (16): its effective record, its packet's fields, the context registers it sampled at launch. -/
structure Kernel where
  ctx : Nat
  queue : Nat
  seq : Nat
  state : KState
  readDone : Bool
  recordAt : Nat
  record : List Byte
  arg : DWord
  crec : DWord
  sampled : Table Word
  gtStart : Nat
  count : Nat
  restarts : Nat
  stageStart : Nat
  expired : Option Nat
  wdEnded : Nat
  code : Nat
  info : Nat
  pendingGroups : List (Nat × Nat × Nat)
  tileCount : Table Nat
  placedAny : Bool
  /-- Tile mode: SPTILE would have answered none on every die, so that no further block is placed (R341). -/
  tilesOver : Bool
  /-- The ranges of the working set as staging read them, which no eviction touches (R343). -/
  named : List (Nat × Nat)
  wct : Nat
  isEnded : Bool
  deriving DecidableEq, Repr

/-- An accepted packet (17 R355): its 64 bytes, whether it has begun, has done its work (up to `wct`) and has ended, its
error cause, the kernel it drives, the GT of its latest read or a mark of when it began, and the dies whose HBM holds a copy
of it in the journal. -/
structure Packet where
  seq : Nat
  bytes : List Byte
  begun : Bool
  ended : Bool
  err : Nat
  kernel : Option Nat
  wct : Nat
  lastRead : Nat
  worked : Bool
  copies : List Nat
  deriving DecidableEq, Repr

/-- A queue (17 R349, R350, R354). `journal` is the list of accepted packets that have not left it (17 R355, R356). -/
structure Queue where
  ring : DWord
  log2n : Nat
  prio : Nat
  weight : Nat
  stale : Nat
  device : Bool
  statusAt : DWord
  live : Bool
  accept : Word
  done : Word
  kmax : Word
  lastKick : Nat
  kicked : Bool
  lastTry : Nat
  stalek : Bool
  /-- A kick at or below ACCEPT leaves one try at the next packet (R354). -/
  oneTry : Bool
  journal : List Packet
  served : Nat
  deriving DecidableEq, Repr

/-- The state of a context (18 R365). -/
inductive CState where
  | created | ready | running | preempting | saved | faulted | lost | destroyed
  deriving DecidableEq, Repr

/-- The TDISP state of a VF's interface (18 R382). -/
inductive TdiState where
  | unlocked | locked | run | error
  deriving DecidableEq, Repr

/-- A device-side LAUNCH on its way (06 R148), with its group's identifier (07 R150). -/
structure LaunchOp where
  ident : Nat
  gid : Nat
  fib : Nat
  ctx : Nat
  va : Nat
  queue : Nat
  reg : Nat
  flag : Nat
  deriving DecidableEq, Repr

/-- The context part of the two save copies as last written (18 R373): the context registers, the network table, the keys of
the groups whose records follow. -/
structure CtxPart where
  regs : Table Word
  nets : Table NetEntry
  dir : List Nat
  deriving DecidableEq, Repr

/-- A context (18 R363, R365) with its registers (06 R143), its queues and its network table. -/
structure Context where
  part : Nat
  num : Nat
  vf : Nat
  state : CState
  desc : List Byte
  tvec : DWord
  lease : Word
  fairt : Word
  rngctl : Word
  rngbase : DWord
  rngseg : Word
  opaq : Word
  gwin : Word
  dens : Word
  outl : Word
  hotthr : Word
  trcb : DWord
  trcsz : Word
  trcpos : Word
  ranges : List RangeEntry
  /-- The descriptor as address translation goes by it, for PTROOT and TWIN, and the range entries in force (10 R215, 18 R364):
  a context update changes them at the end of the INVALIDATE that follows it. -/
  mapped : List Byte
  live : List RangeEntry
  /-- The latest WCT of the writes that its groups and the engines made for it (10 R217). -/
  wct : Nat
  /-- The latest WCT of its command processor's own writes (17 R350, R362). -/
  cpWct : Nat
  queues : Table Queue
  nets : Table NetEntry
  evProd : Nat
  evOver : Nat
  saveABad : Bool
  saveBBad : Bool
  saved : Option CtxPart
  tdi : TdiState
  ide : List Nat
  deriving DecidableEq, Repr

/-- What a record of a save copy holds (18 R371, R373). -/
inductive RecKind where
  | group | block | kernel
  deriving DecidableEq, Repr

/-- A record's place in the two save copies of a context, reserved when a gang is placed, and what stands there (18 R371, R373,
R375). -/
structure SaveRec where
  kind : RecKind
  /-- The group, block or kernel. -/
  key : Nat
  ctx : Nat
  /-- Its place above the context part, and its size, in units of 4 KiB (R373). -/
  off : Nat
  units : Nat
  /-- Whether it has been written since its place was reserved, and not yet restored. -/
  filled : Bool
  /-- The partition's key slot 0, under which both copies are encrypted (R374, R383). -/
  slot : BitVec 512
  badA : Bool
  badB : Bool
  /-- The bytes that each copy holds, by offset, whose CRC-32C goes with the record (R375). -/
  textA : List Host.Cell
  textB : List Host.Cell
  deriving DecidableEq, Repr

/-- An installed passport (18 R384, R385). -/
structure Passport where
  feat : BitVec 3
  expiry : Nat
  bytes : List Byte
  deriving DecidableEq, Repr

/-- A partition (01 R17, R18; 18 R364). -/
structure Partition where
  x0 : Nat
  y0 : Nat
  w : Nat
  h : Nat
  starv : Nat
  keys : Table (BitVec 512)
  nonce : BitVec 128
  edKey : Option (List Byte)
  mlKey : Option (List Byte)
  passport : Option Passport
  /-- The die outside a one-die partition whose HBM holds the second copy of its journals (17 R355). -/
  reserve : Option Nat
  /-- The numbers of contexts destroyed and not created anew (18 R365). -/
  gone : List Nat
  /-- PDESTROY has begun and waits for its contexts. -/
  closing : Bool
  deriving DecidableEq, Repr

/-! ## Courier -/

/-- A collective slot's state (20 R417). -/
inductive SlotState where
  | settingUp | running | halted | stopped
  deriving DecidableEq, Repr

/-- A collective slot of a context (20 R403, R417). -/
structure CSlot where
  ctx : Nat
  slot : Nat
  state : SlotState
  code : Nat
  rank : Nat
  step : Nat
  die : Nat
  gid : Nat
  fib : Nat
  flag : Nat
  token : Nat
  dens : Word
  root : Nat
  nsteps : Nat
  desc : List Byte
  wct : Nat
  deriving DecidableEq, Repr

/-- One die's copy of a program (20 R403 to R409): its steps, counters, loop, triggers (target, counter, threshold, loop
index), steps fired and not yet run (step, loop index), the latest WCT of its RACC and COPY writes and of the stream's
latest. -/
structure CInst where
  slotKey : Nat
  rank : Nat
  die : Nat
  steps : List DWord
  n : Table Nat
  pc : Nat
  i : Nat
  head : Option Nat
  count : Nat
  armed : List (Nat × Nat × Nat × Nat)
  fired : List (Nat × Nat)
  wct : Nat
  localWct : Nat
  halted : Bool
  stopped : Bool
  deriving DecidableEq, Repr

/-- A CSTART in a Courier's command queue, or held by its fibre for a place in it (20 R403, R415);
`desc` is its descriptor once read, `prog` that and its step list. -/
structure CCmd where
  die : Nat
  ctx : Nat
  va : Nat
  gid : Nat
  fib : Nat
  flag : Nat
  token : Nat
  dens : Word
  held : Bool
  desc : Option (List Byte)
  prog : Option (List Byte × List Byte)
  deriving DecidableEq, Repr

/-- A SEND or RRED on its way to a peer (20 R407): `applied` is the WCT of its data once applied, `eth` the Ethernet port
that it leaves by, for which its frames stand in the port's list. -/
structure Delivery where
  slotKey : Nat
  fromRank : Nat
  step : Nat
  toRank : Nat
  nc : Nat
  va : Nat
  data : List Byte
  eth : Option Nat
  applied : Option Nat
  deriving DecidableEq, Repr

/-! ## The panel -/

/-- An error log entry (26 R441). -/
structure LogEntry where
  gt : Nat
  cls : Nat
  kind : Nat
  index : Nat
  addr : Nat
  group : Word
  part : Word
  deriving DecidableEq, Repr

/-- What the command processor of a die is still to write for a context, while a page holds it up (10 R220; 17 R350,
R362): an event record, bytes at an address, or bytes before which it performs release(4). -/
inductive OutWrite where
  | event (type : Nat) (payload : List Byte)
  | bytes (va : Nat) (bs : List Byte)
  | released (va : Nat) (bs : List Byte)
  deriving DecidableEq, Repr

/-- A hotness table entry (10 R228): counters by die index, and the counters that have posted, each with the context
that it posted for. -/
structure HotEntry where
  block : Nat
  ctr : Table Nat
  posted : List (Nat × Nat)
  deriving DecidableEq, Repr

/-- A time request in flight from a die (01 R24): t1 with its fraction, then the parent's stamps, all in 1/64 ns; and
when each was stamped, in nanoseconds of the module's reference (01 R20). -/
structure TimeReq where
  t1 : Nat
  t2 : Option Nat
  t3 : Option Nat
  sent : Nat
  arrived : Nat
  replied : Nat
  deriving DecidableEq, Repr

/-- A die (01 R12, R13, R22). `active` is bring-up's decision, `failed` a failure since (18 R378). `lastExchange` is the GT
of its latest time request, `none` when the next is due at once; `handOver` says that a new root's announcement, made at
GT `announced`, is on its way to it (01 R26). -/
structure Die where
  active : Bool
  gt : Nat
  frac : Nat
  /-- Correction still to slew, and a correction still to hold GT for, both in 1/64 ns (01 R24). -/
  slew : Int
  hold : Nat
  /-- How far the reference has advanced since the latest step of the slew, in 1/64 ns (01 R24). -/
  phase : Nat
  /-- How far the die's clock has wandered since its latest correction, in 1/64 ns (01 R25). -/
  drift : Int
  failed : Bool
  parent : Option Nat
  timeLost : Bool
  req : Option TimeReq
  /-- The exchange in progress is the retry of one that failed (01 R26). -/
  retried : Bool
  lastExchange : Option Nat
  exchangeFails : Nat
  handOver : Bool
  announced : Nat
  log : List LogEntry
  late : Nat
  ovf : Nat
  hot : List HotEntry
  /-- Milliseconds of GT at the latest halving (10 R228). -/
  halved : Nat
  /-- Generation of each room slot, key room·32 + slot, and slots waiting for a drain token, each with the key that was next
  when its token was launched (07 R173). -/
  gens : Table Nat
  draining : List (Nat × Nat)
  throttled : Bool
  /-- Cores whose noise source fails its health tests: the GT since when, and whether it has been logged (06 R147). -/
  healthFail : List (Nat × Nat × Bool)
  deriving DecidableEq, Repr

/-- The state of a boundary (19 R391). -/
inductive BndState where
  | absent | training | up | retraining | degraded | failed
  deriving DecidableEq, Repr

/-- One direction of a boundary's link (19 R389, R390). -/
structure LinkDir where
  nextSeq : BitVec 12
  expected : BitVec 12
  retry : List Flit
  replayed : Option (BitVec 12)
  delivered : List Flit
  wantReplay : Option (BitVec 12)
  deriving DecidableEq, Repr

/-- A boundary (19 R387, R391, R392); `asym` is how much longer its time sideband's way from a
child to its parent is than the way back, in 1/64 ns (01 R25). -/
structure Boundary where
  state : BndState
  badModules : List Nat
  attempts : Nat
  since : Nat
  sideFails : Nat
  asym : Int
  dir0 : LinkDir
  dir1 : LinkDir
  deriving DecidableEq, Repr

/-- A host link (19 R399, R400): AtomicOp Requester Enable as the provider has set it, its root port's completer support for all
three operations, CXL.cache active; with its SPDM responder (18 R379): how far negotiation has come, the algorithms, the secured
session and the partition whose tenant it belongs to (log entry 39), the messages since GET_VERSION, the latest response. -/
structure HostLink where
  training : Bool
  requester : Bool
  completer : Bool
  cxl : Bool
  spdm : Nat
  algs : Word
  session : Bool
  tenant : Option Nat
  transcript : List Byte
  reply : List Byte
  ideStreams : List Nat
  failed : Bool
  deriving DecidableEq, Repr

/-- Where a packet that has left its source stands (19 R394, R397): its network, its key and which of the packets under that key it
is, the die whose router holds it, and whether it is on the escape channel. -/
structure Transit where
  vnet : Nat
  id : Nat
  sub : Nat
  die : Nat
  esc : Bool
  deriving DecidableEq, Repr

/-- What the routing tables were last formed from (19 R393, R397): the root, the active dies, the boundaries that were up or
degraded. Every entry of every die's table is a function of it. -/
structure Routing where
  root : Nat
  dies : List Nat
  bnds : List Nat
  deriving DecidableEq, Repr

/-- A firmware image (18 R381): the component by its measurement index (R380), its security version number, its content and
digest, and its two signatures with the keys that they verify under. -/
structure Image where
  comp : Nat
  svn : Nat
  body : List Byte
  digest : BitVec 384
  edKey : List Byte
  mlKey : List Byte
  sigE : List Byte
  sigM : List Byte
  deriving DecidableEq, Repr

/-- What is fused (18 R381): the least security version number of each component, by measurement index, and the hashes of the
keys that images are signed with. -/
structure Fuses where
  minSvn : Table Nat
  keyHashes : List (BitVec 384)
  deriving DecidableEq, Repr

/-- An Ethernet port (19 R401; 20 R414): frames dropped, the sequence numbers of both directions, the frames sent and not
acknowledged with the delivery that each belongs to. -/
structure EthPort where
  errors : Nat
  nextSeq : Nat
  expected : Nat
  unacked : List EthFrame
  lastSend : Nat
  resends : Nat
  acked : Nat
  owner : List (Nat × Nat)
  /-- Of the frames of the SEND being received: the latest write completion time, and whether all have been written. -/
  rxWct : Nat
  rxIntact : Bool
  /-- The failures reported to senders: the frame, the code (20 R418). -/
  reports : List (Nat × Nat)
  failed : Bool
  deriving DecidableEq, Repr

/-- The power state of the module (26 R436): `boot` is panel reset before it ends, `silent` a failed test (R438). -/
inductive Power where
  | on | off | boot | silent
  deriving DecidableEq, Repr

/-- A management mailbox (18 R364): its command block, BUSY and RESULT, and the context whose event the command waits
for. -/
structure Mailbox where
  words : Table Word
  busy : Bool
  result : Byte
  waiting : Option Nat
  deriving DecidableEq, Repr

/-- What moves next, where the state's agenda says so: an event; a slot of the group's next fibre, alone or with fibres batched
to it (02 R33); a register of a lane that a counting operation writes before its flag drains (04 R85); the passing of time; a
write by the host to the memory it shares; one hop of a packet, its channel being escape or normal (19 R397); the wander of a
die's clock or of a boundary's time sideband (01 R25). -/
inductive Move where
  | event (i : Instr)
  | issue (gid : Nat)
  | batch (gid : Nat)
  | land (gid op cell : Nat)
  | tick (ns : Nat)
  | hostWrite (addr : Nat) (bytes : List Byte)
  | hop (vnet id sub : Nat) (esc : Bool)
  | wander (die : Nat) (units : Int)
  | asymmetry (boundary : Nat) (units : Int)
  deriving DecidableEq, Repr

/-- The panel. `agenda`, `cur`, `held`, `choices` and `nextId` are the model's own: what moves next, the fibre whose word is
being issued, whether what is being done needs a way through the mesh that is closed (log entry 65), the free choices made and
the keys handed out. `asked` lists the pages that an engine's operation has posted a request for and still waits on; `helps` the
groups whose SPINH has timed out, each with its line (17 R360); `mailLog` the PF mailbox log of (context, queue, SEQ, TYPE) (17
R357; 18 R377). `routing` is what the dies' routing tables were formed from, `mesh` where the packets stand that have left their
sources (19 R397). `tdiErrors` are the virtual functions whose interface stands in ERROR, `unsupported` how often a TLP to each
has completed as Unsupported Request (18 R382). `deadMem` lists the failed stacks and the failed pseudo-channels, whose lines
are all poisoned (18 R378); `linkMap` is the link map at bring-up (18 R380). `mended` lists the lines of those pseudo-channels
that a whole write has cleared since (10 R225). `l2` and `lodge` are the lines that the home slices and the lodge slices hold,
each with its home's die, `lodgeDirty` those that a lodge has not written to its DRAM (09 R186 to R188); `written` the lines
written at their homes since their page was staged (10 R226). `images` are the firmware images that the dies load, each with its
die (18 R381). `outbox` holds what command processors are still to write, oldest first, each with its context and die. -/
structure State where
  agenda : List Move
  cur : Option (Nat × Nat)
  held : Bool
  choices : Nat
  nextId : Nat
  draws : Nat
  /-- Nanoseconds of the module's reference since the panel reset (01 R20). -/
  refNs : Nat
  power : Power
  root : Nat
  dies : List Die
  boundaries : List Boundary
  routing : Routing
  mesh : List Transit
  hostLinks : List HostLink
  ethPorts : List EthPort
  mailbox : Mailbox
  vfMail : Table Mailbox
  mailLog : List (Nat × Nat × Nat × Nat)
  tdiErrors : List Nat
  unsupported : Table Nat
  images : List (Nat × Image)
  fuses : Fuses
  mem : List Host.Cell
  poison : List Nat
  deadMem : List (Nat × Option Nat)
  mended : List Nat
  l2 : List (Nat × Nat)
  lodge : List (Nat × Nat)
  lodgeDirty : List (Nat × Nat)
  written : List Nat
  outbox : List (Nat × Nat × OutWrite)
  linkMap : List Byte
  homes : Table HomeLine
  l1 : Table L1Byte
  partials : Table Partial
  writes : Table Write
  ops : Table Op
  fills : Table Fill
  tlb : List TlbEntry
  rangeTlb : List (Nat × Nat × List RangeEntry)
  icache : Table Word
  jobs : Table Job
  asked : List (Nat × Nat)
  helps : List (Nat × Nat)
  porter : Table PorterCmd
  groups : Table Group
  blocks : Table Block
  barriers : Table Barrier
  kernels : Table Kernel
  launches : Table LaunchOp
  partitions : Table Partition
  contexts : Table Context
  saves : List SaveRec
  tiles : Table CTile
  evals : Table Eval
  splats : Table SplatOp
  frames : Table Frame
  recs : Table SplatRec
  flushes : Table Flush
  cqueue : Table CCmd
  slots : Table CSlot
  insts : List CInst
  deliveries : Table Delivery
  deriving DecidableEq, Repr

/-! ## Stops -/

/-- Why the machine stops with a fault. -/
inductive Fault where
  /-- The module is off or failed its test and nothing outside moves it (26 R436, R438). Raised by `step`. Safe. -/
  | moduleOff
  /-- A word's meaning was asked for while no fibre is issuing one. Raised by the meanings of words, never by `step`,
  which names the fibre first. Safe. -/
  | noIssuingFibre
  deriving DecidableEq, Repr

/-- Why the machine refuses. -/
inductive Refusal where
  /-- An instruction without a meaning yet. Raised by `exec`'s own arms. Safe. -/
  | notModelled (mnemonic : String)
  deriving DecidableEq, Repr

/-! ## Reset -/

/-- One direction of a link right after training. -/
def LinkDir.reset : LinkDir :=
  { nextSeq := 0, expected := 0, retry := [], replayed := none, delivered := [], wantReplay := none }

/-- A boundary right after bring-up: trained with all its modules (19 R391). -/
def Boundary.reset : Boundary :=
  { state := .up, badModules := [], attempts := 0, since := 0, sideFails := 0, asym := 0, dir0 := .reset,
    dir1 := .reset }

/-- The die at an index's parent in the time tree of a full panel, whose root is die 14 at (2, 2) (01 R23): the
first neighbour one hop nearer the root in the order N, E, S, W. -/
def Die.resetParent (d : Nat) : Option Nat :=
  if 2 < d / 6 then some (d - 6) else if d % 6 < 2 then some (d + 1)
  else if d / 6 < 2 then some (d + 6) else if 2 < d % 6 then some (d - 1) else none

/-- A die right after bring-up. -/
def Die.reset (d : Nat) : Die :=
  { active := true, gt := 0, frac := 0, slew := 0, hold := 0, phase := 0, drift := 0, failed := false, parent := Die.resetParent d, timeLost := false,
    req := none, retried := false, lastExchange := some 0, exchangeFails := 0, handOver := false, announced := 0, log := [], late := 0, ovf := 0, hot := [], halved := 0,
    gens := [], draining := [], throttled := false, healthFail := [] }

/-- A host link right after bring-up: it begins link training (26 R437). -/
def HostLink.reset : HostLink :=
  { training := true, requester := false, completer := false, cxl := false, spdm := 0, algs := 0, session := false, tenant := none, transcript := [], reply := [],
    ideStreams := [], failed := false }

/-- A host link of a module that has not passed test: it does not train (26 R437, R438). -/
def HostLink.idle : HostLink := { HostLink.reset with training := false }

/-- An Ethernet port right after bring-up. -/
def EthPort.reset : EthPort :=
  { errors := 0, nextSeq := 0, expected := 0, unacked := [], lastSend := 0, resends := 0,
    acked := 0, owner := [], rxWct := 0, rxIntact := true, reports := [], failed := false }

/-- Fuses of which the specification gives no value: none (log entry 60). -/
def Fuses.reset : Fuses := { minSvn := [], keyHashes := [] }

/-- A mailbox that has taken no command. -/
def Mailbox.reset : Mailbox := { words := [], busy := false, result := 0, waiting := none }

/-- The panel right after panel reset (26 R437): 36 active dies, GT zero, every boundary up, nothing created. -/
def State.reset : State :=
  { agenda := [], cur := none, held := false, choices := 0, nextId := 0, draws := 0, refNs := 0, power := .on, root := 14,
    dies := (List.range 36).map Die.reset, boundaries := List.replicate 60 .reset,
    routing := { root := 14, dies := List.range 36, bnds := List.range 60 }, mesh := [],
    hostLinks := List.replicate 4 .reset, ethPorts := List.replicate 8 .reset,
    mailbox := .reset, vfMail := [], mailLog := [], tdiErrors := [], unsupported := [], images := [], fuses := .reset,
    mem := [], poison := [], deadMem := [], mended := [], l2 := [], lodge := [], lodgeDirty := [], written := [], outbox := [], linkMap := List.replicate 60 2, homes := [], l1 := [], partials := [], writes := [], ops := [], fills := [], tlb := [],
    rangeTlb := [], icache := [], jobs := [], asked := [], helps := [], porter := [], groups := [], blocks := [], barriers := [], kernels := [],
    launches := [], partitions := [], contexts := [], saves := [], tiles := [], evals := [], splats := [], frames := [],
    recs := [], flushes := [], cqueue := [], slots := [], insts := [], deliveries := [] }

end Sys2Proof.Machine
end

