-- ==== Sys2Proof/Machine/Store.lean ====
section
/-! DEFINITION. Sparse tables, byte memory and small list helpers. -/

namespace Sys2Proof

/-- The entry under a key. -/
def Table.look {α : Type} : Table α → Nat → Option α
  | [], _ => none
  | (j, v) :: t, k => if j = k then some v else Table.look t k

/-- The table with an entry set, keys kept strictly rising. -/
def Table.ins {α : Type} : Table α → Nat → α → Table α
  | [], k, v => [(k, v)]
  | (j, w) :: t, k, v =>
    if k < j then (k, v) :: (j, w) :: t else if k = j then (k, v) :: t else (j, w) :: Table.ins t k v

/-- The table without a key's entry. -/
def Table.del {α : Type} : Table α → Nat → Table α
  | [], _ => []
  | (j, w) :: t, k => if j = k then t else (j, w) :: Table.del t k

/-- What a key reads as when unlisted keys read as `d`. -/
def Table.rd {α : Type} (t : Table α) (d : α) (k : Nat) : α := (Table.look t k).getD d

/-- A write under which no entry equals `d`, what an unlisted key reads as. -/
def Table.wr {α : Type} [DecidableEq α] (t : Table α) (d : α) (k : Nat) (v : α) : Table α :=
  if v = d then Table.del t k else Table.ins t k v

/-- The table with an entry changed, when there is one. -/
def Table.upd {α : Type} (t : Table α) (k : Nat) (f : α → α) : Table α :=
  match Table.look t k with
  | some v => Table.ins t k (f v)
  | none => t

/-- The entries that satisfy a test. -/
def Table.sel {α : Type} (t : Table α) (p : Nat → α → Bool) : Table α := t.filter fun e => p e.1 e.2

/-- The canonical form: keys strictly rising, and no entry equal to what an unlisted key reads as. -/
def Table.wf {α : Type} [DecidableEq α] (t : Table α) (d : α) : Bool :=
  (t.map (·.1)).Pairwise (· < ·) && t.all fun e => e.2 ≠ d

namespace Machine

/-- What a byte of memory that nothing has written reads as (DESIGN CHOICE, log entry 2: the specification gives
memory no content after power-on). -/
def Memory.blank : Byte := 0

/-- The byte of memory at a physical key. -/
def Memory.read (m : List Host.Cell) (a : Nat) : Byte := Table.rd m Memory.blank a

/-- Memory with one byte written. -/
def Memory.write (m : List Host.Cell) (a : Nat) (b : Byte) : List Host.Cell := Table.wr m Memory.blank a b

/-- `n` bytes from a physical key up. -/
def Memory.readN (m : List Host.Cell) (a : Nat) : Nat → List Byte
  | 0 => []
  | n + 1 => Memory.read m a :: Memory.readN m (a + 1) n

/-- Memory with bytes written from a physical key up. -/
def Memory.writeN (m : List Host.Cell) (a : Nat) : List Byte → List Host.Cell
  | [] => m
  | b :: bs => Memory.writeN (Memory.write m a b) (a + 1) bs

/-- The canonical form of memory. -/
def Memory.wf (m : List Host.Cell) : Bool := Table.wf m Memory.blank

/-- A number's low `n` bytes, lowest first (00 R3). -/
def toBytes : Nat → Nat → List Byte
  | 0, _ => []
  | n + 1, v => BitVec.ofNat 8 v :: toBytes n (v / 256)

/-- The number that bytes hold, lowest first (00 R3). -/
def ofBytes : List Byte → Nat
  | [] => 0
  | b :: bs => b.toNat + 256 * ofBytes bs

/-- `n` bytes at an offset of a list of bytes, as a number; absent bytes are 0. -/
def numAt (bs : List Byte) (off n : Nat) : Nat := ofBytes ((bs.drop off).take n)

/-- Bits `[hi:lo]` of a number (00 R9). -/
def bits (v hi lo : Nat) : Nat := v / 2 ^ lo % 2 ^ (hi + 1 - lo)

/-- A number of `w` bits read as two's complement. -/
def toSigned (w v : Nat) : Int := if v % 2 ^ w < 2 ^ (w - 1) then (v % 2 ^ w : Nat) else (v % 2 ^ w : Nat) - (2 ^ w : Nat)

/-- The low `w` bits of an integer. -/
def wrapTo (w : Nat) (x : Int) : Nat := (x % (2 ^ w : Nat)).toNat

/-- An integer clamped to a range. -/
def clamp (lo hi x : Int) : Int := if x < lo then lo else if hi < x then hi else x

/-- Whether lane `l` is in a mask. -/
def Mask.has (m : Mask) (l : Nat) : Bool := m.getLsbD l

/-- The lanes of a mask, ascending. -/
def Mask.lanes (m : Mask) : List Nat := (List.range 64).filter fun l => m.getLsbD l

/-- The mask of a list of lanes. -/
def Mask.ofLanes (ls : List Nat) : Mask := ls.foldl (fun m l => m ||| BitVec.ofNat 64 (2 ^ l)) 0

/-- The lowest `w` lanes. -/
def Mask.low (w : Nat) : Mask := BitVec.ofNat 64 (2 ^ w - 1)

/-- The lowest lane of a mask; 64 for the empty mask. -/
def Mask.first (m : Mask) : Nat := (Mask.lanes m).headD 64

/-- The lanes of every quad that holds a lane of the mask (02 R29). -/
def Mask.quads (m : Mask) : Mask :=
  Mask.ofLanes ((List.range 64).filter fun l => bits m.toNat (4 * (l / 4) + 3) (4 * (l / 4)) ≠ 0)

/-- Insertion into a list sorted by a test that says what comes first. -/
def insertBy {α : Type} (before : α → α → Bool) (x : α) : List α → List α
  | [] => [x]
  | y :: ys => if before y x then y :: insertBy before x ys else x :: y :: ys

/-- A list sorted by a test that says what comes first; equal elements keep their order. -/
def sortBy {α : Type} (before : α → α → Bool) (xs : List α) : List α :=
  xs.foldr (insertBy before) []

/-- The least of some numbers. -/
def minOf (xs : List Nat) : Option Nat :=
  xs.foldl (fun m x => match m with | none => some x | some y => some (min x y)) none

/-- The greatest of some numbers, 0 for none. -/
def maxOf (xs : List Nat) : Nat := xs.foldl max 0

/-- A list without repetitions; the first of each stays. -/
def dedup {α : Type} [DecidableEq α] : List α → List α
  | [] => []
  | x :: xs => x :: (dedup xs).filter (fun y => y ≠ x)

/-! ## CRC-32C (17 R352) -/

/-- One bit of the reflected CRC-32C (17 R352). -/
def crcBit (c : Nat) : Nat := if c % 2 = 1 then c / 2 ^^^ 0x82F63B78 else c / 2

/-- One byte of it. -/
def crcByte (c : Nat) (b : Byte) : Nat := (List.range 8).foldl (fun c _ => crcBit c) (c ^^^ b.toNat)

/-- CRC-32C of bytes (17 R352). -/
def crc32c (bs : List Byte) : Nat := bs.foldl crcByte 0xFFFFFFFF ^^^ 0xFFFFFFFF

end Machine

end Sys2Proof
end

