-- ==== Sys2Proof/Machine/Num.lean ====
section
/-! DEFINITION. Number formats, rounding, conversions and block floating point (03_numbers R54 to R72). -/

namespace Sys2Proof.Machine

/-! ## Formats -/

/-- The floating-point formats (R54). -/
inductive Fmt where
  | fp32 | fp16 | bf16 | e5m2 | e4m3
  deriving DecidableEq, Repr

/-- Fraction bits (R54). -/
def Fmt.frac : Fmt → Nat
  | .fp32 => 23 | .fp16 => 10 | .bf16 => 7 | .e5m2 => 2 | .e4m3 => 3

/-- Exponent bits (R54). -/
def Fmt.expo : Fmt → Nat
  | .fp32 => 8 | .fp16 => 5 | .bf16 => 8 | .e5m2 => 5 | .e4m3 => 4

/-- Exponent bias (R54). -/
def Fmt.bias : Fmt → Int
  | .fp32 => 127 | .fp16 => 15 | .bf16 => 127 | .e5m2 => 15 | .e4m3 => 7

/-- Width in bits. -/
def Fmt.width (f : Fmt) : Nat := 1 + f.expo + f.frac

/-- The exponent of the smallest subnormal (R54). -/
def Fmt.qmin (f : Fmt) : Int := 1 - f.bias - f.frac

/-- The encoding, without sign, one unit in the last place above the largest finite value: Ω (R54). It is the
encoding of infinity where the format has one, and of NaN in E4M3. -/
def Fmt.omegaBits : Fmt → Nat
  | .e4m3 => 0x7F
  | f => (2 ^ f.expo - 1) * 2 ^ f.frac

/-- The canonical NaN (R55). -/
def Fmt.canon : Fmt → Nat
  | .fp32 => 0x7FC00000 | .fp16 => 0x7E00 | .bf16 => 0x7FC0 | .e5m2 => 0x7E | .e4m3 => 0x7F

/-- An exact real with its sign, ±∞ or NaN; `fin neg m d e` is ± m / d × 2^e, a signed zero when `m` is 0 (R60). -/
inductive Ext where
  | nan
  | inf (neg : Bool)
  | fin (neg : Bool) (m d : Nat) (e : Int)
  deriving DecidableEq, Repr

/-- The value of an encoding (R54). -/
def Fmt.value (f : Fmt) (x : Nat) : Ext :=
  let neg := x / 2 ^ (f.expo + f.frac) % 2 = 1
  let mag := x % 2 ^ (f.expo + f.frac)
  let ex := mag / 2 ^ f.frac
  let fr := mag % 2 ^ f.frac
  if f.omegaBits < mag ∨ (f = .e4m3 ∧ mag = f.omegaBits) then .nan
  else if mag = f.omegaBits then .inf neg
  else if ex = 0 then .fin neg fr 1 f.qmin
  else .fin neg (2 ^ f.frac + fr) 1 (f.qmin + (ex - 1 : Nat))

/-- 2 to an exponent, as numerator and denominator factors. -/
def pow2 (e : Int) : Nat × Nat := if 0 ≤ e then (2 ^ e.toNat, 1) else (1, 2 ^ (-e).toNat)

/-- ⌊log2 (n / d)⌋ for positive n and d. -/
def floorLog2 (n d : Nat) : Int :=
  let g : Int := (Nat.log2 n : Int) - (Nat.log2 d : Int)
  let (pn, pd) := pow2 g
  if n * pd < d * pn then g - 1 else g

/-- The choice between a value's lower neighbour `lo` and upper neighbour `lo + 1`, the value lying `r / d` of the way
(R59); true takes the upper. `u` is the noise drawn under SR. -/
def roundUp (mode : Nat) (neg : Bool) (lo r d u : Nat) : Bool :=
  match mode with
  | 0 => d < 2 * r || (2 * r = d && lo % 2 = 1)
  | 1 => false
  | 2 => !neg
  | 3 => neg
  | 4 => d ≤ 2 * r
  | _ => u < r * 65536 / d

/-- `round(x, fmt, mode, sat)` (R60, R62), as an encoding. `u` is the noise drawn under SR. -/
def roundTo (f : Fmt) (mode : Nat) (sat : Bool) (u : Nat) (x : Ext) : Nat :=
  let sgn (neg : Bool) : Nat := if neg then 2 ^ (f.expo + f.frac) else 0
  let top (neg : Bool) : Nat :=
    if sat then sgn neg + (f.omegaBits - 1) else if f = .e4m3 then f.canon else sgn neg + f.omegaBits
  match x with
  | .nan => f.canon
  | .inf neg => top neg
  | .fin neg m d e =>
    if m = 0 then sgn neg
    else
      let (pn, pd) := pow2 e
      let n := m * pn
      let dd := d * pd
      let q := max f.qmin (floorLog2 n dd - f.frac)
      let (qn, qd) := pow2 q
      let num := n * qd
      let den := dd * qn
      let lo := num / den
      let r := num % den
      let base := (q - f.qmin).toNat * 2 ^ f.frac
      if f.omegaBits ≤ base + lo then
        if mode = 1 ∨ (mode = 2 ∧ neg) ∨ (mode = 3 ∧ !neg) then sgn neg + (f.omegaBits - 1) else top neg
      else
        let bitsM := if r = 0 then base + lo else if roundUp mode neg lo r den u then base + lo + 1 else base + lo
        if bitsM = f.omegaBits then top neg else sgn neg + bitsM

/-- `round()` to the integers (R60), for a finite value. -/
def roundInt (mode : Nat) (u : Nat) (neg : Bool) (m d : Nat) (e : Int) : Int :=
  let (pn, pd) := pow2 e
  let num := m * pn
  let den := d * pd
  let lo := num / den
  let r := num % den
  let a : Nat := if r = 0 then lo else if roundUp mode neg lo r den u then lo + 1 else lo
  if neg then -(a : Int) else a

/-! ## Exact arithmetic -/

/-- A value's sign. -/
def Ext.neg? : Ext → Bool
  | .nan => false
  | .inf n => n
  | .fin n _ _ _ => n

/-- The value with its sign flipped. -/
def Ext.negate : Ext → Ext
  | .nan => .nan
  | .inf n => .inf (!n)
  | .fin n m d e => .fin (!n) m d e

/-- The exact product (R56). -/
def Ext.mul : Ext → Ext → Ext
  | .nan, _ => .nan
  | _, .nan => .nan
  | .inf a, .inf b => .inf (a != b)
  | .inf a, .fin b m _ _ => if m = 0 then .nan else .inf (a != b)
  | .fin a m _ _, .inf b => if m = 0 then .nan else .inf (a != b)
  | .fin a m d e, .fin b n c g => .fin (a != b) (m * n) (d * c) (e + g)

/-- The exact sum; `rdn` is true under RDN, which makes a sum of opposite zeros negative (R56). -/
def Ext.add (rdn : Bool) : Ext → Ext → Ext
  | .nan, _ => .nan
  | _, .nan => .nan
  | .inf a, .inf b => if a = b then .inf a else .nan
  | .inf a, .fin .. => .inf a
  | .fin .., .inf b => .inf b
  | .fin a m d e, .fin b n c g =>
    let k := min e g
    let x : Int := (m * c * 2 ^ (e - k).toNat : Nat)
    let y : Int := (n * d * 2 ^ (g - k).toNat : Nat)
    let t := (if a then -x else x) + (if b then -y else y)
    if t = 0 then .fin (if a = b then a else rdn) 0 1 0
    else .fin (t < 0) t.natAbs (d * c) k

/-- A finite value as an ordered pair for comparison on a common grid: the sign of a − b. -/
def Ext.cmp : Ext → Ext → Option Ordering
  | .nan, _ => none
  | _, .nan => none
  | .inf a, .inf b => some (if a = b then .eq else if a then .lt else .gt)
  | .inf a, .fin .. => some (if a then .lt else .gt)
  | .fin .., .inf b => some (if b then .gt else .lt)
  | .fin a m d e, .fin b n c g =>
    let k := min e g
    let x : Int := (m * c * 2 ^ (e - k).toNat : Nat)
    let y : Int := (n * d * 2 ^ (g - k).toNat : Nat)
    let t := (if a then -x else x) - (if b then -y else y)
    some (if t < 0 then .lt else if t = 0 then .eq else .gt)

/-- An integer as an exact value. -/
def Ext.ofInt (v : Int) : Ext := .fin (v < 0) v.natAbs 1 0

/-- Whether a value is NaN. -/
def Ext.isNan : Ext → Bool
  | .nan => true
  | _ => false

/-- Whether a value is finite and not zero. -/
def Ext.isNonzero : Ext → Bool
  | .fin _ m _ _ => m ≠ 0
  | _ => false

/-- FP32 addition under RNE, the fold of ATFADD and REDFADD (09 R204). -/
def faddRne (a b : Nat) : Nat :=
  roundTo .fp32 0 false 0 (Ext.add false (Fmt.fp32.value a) (Fmt.fp32.value b))

/-! ## Conversions (R63, R64) -/

/-- Conversion of a floating value to an integer range (R64). -/
def toInteger (mode u : Nat) (lo hi : Int) : Ext → Int
  | .nan => 0
  | .inf neg => if neg then lo else hi
  | .fin neg m d e => clamp lo hi (roundInt mode u neg m d e)

/-- Conversion of one floating format to another (R63). -/
def convert (src dst : Fmt) (mode : Nat) (sat : Bool) (u x : Nat) : Nat := roundTo dst mode sat u (src.value x)

/-! ## Block floating point (R65 to R69) -/

/-- The value of one B8 (`b8`) or B4 element under a stored scale word (R67). -/
def blockValue (b8 : Bool) (scale elem : Nat) : Ext :=
  let kind := bits scale 23 22
  let e1 := bits scale 21 11
  let e0 := bits scale 10 0
  if 2 ≤ kind ∨ bits scale 31 24 ≠ 0 ∨ (kind = 0 ∧ (e0 = 2047 ∨ e1 = 2047)) then .nan
  else if kind = 1 then .fin false 0 1 0
  else
    let sel := if b8 then bits elem 7 7 else bits elem 3 3
    let s := if b8 then bits elem 6 6 else bits elem 2 2
    let m := if b8 then bits elem 5 0 else bits elem 1 0
    let e : Int := (if sel = 1 then e1 else e0 : Nat)
    .fin (s = 1 ∧ m ≠ 0) m 1 (e - (if b8 then 1029 else 1025))

/-- The magnitude of a finite FP32 encoding on the grid of its smallest subnormal, 2^-149. -/
def mag149 (x : Nat) : Nat :=
  match Fmt.fp32.value x with
  | .fin _ m _ e => m * 2 ^ (e + 149).toNat
  | _ => 0

/-- ⌊log2 y⌋ of a value given on the 2^-149 grid, not zero (R69). -/
def ebin (y : Nat) : Int := (Nat.log2 y : Int) - 149

/-- `rne(y / 2^k)` of a value given on the 2^-149 grid. -/
def rneScaled (y : Nat) (k : Int) : Nat := (roundInt 0 0 false y 1 (-149 - k)).natAbs

/-- `bquant` (R69): the scale word and the elements of a block of FP32 values. -/
def bquant (b8 : Bool) (v : List Nat) : Nat × List Nat :=
  let z : Int := if b8 then 1029 else 1025
  let mmax := if b8 then 63 else 3
  let theta := if b8 then 8 else 2
  let zeros := v.map fun _ => 0
  if v.any (fun x => match Fmt.fp32.value x with | .fin .. => false | _ => true) then (2 * 2 ^ 22, zeros)
  else
    let mags := v.map mag149
    if mags.all (· = 0) then (2 ^ 22, zeros)
    else
      let e1 := ebin (maxOf mags) + 1024
      let m0 := maxOf (mags.filter fun y => rneScaled y (e1 - z) < theta)
      let e0 := if m0 = 0 then e1 - 12 else max (ebin m0 + 1024) (e1 - 12)
      let elem (x : Nat) : Nat :=
        let y := mag149 x
        let a := rneScaled y (e0 - z)
        let sel := if a ≤ mmax then 0 else 1
        let m := if a ≤ mmax then a else min (rneScaled y (e1 - z)) mmax
        let s := if m = 0 then 0 else x / 2 ^ 31 % 2
        let sel := if m = 0 then 0 else sel
        if b8 then sel * 128 + s * 64 + m else sel * 8 + s * 4 + m
      (e1.toNat * 2 ^ 11 + e0.toNat, v.map elem)

/-! ## Matrix accumulation (R72) -/

/-- One block step of R72: the exact sum of the products of up to 32 pairs, folded into the accumulator. -/
def macBlock (acc : Nat) (pairs : List (Ext × Ext)) : Nat :=
  let s := pairs.foldl (fun t p => Ext.add false t (Ext.mul p.1 p.2)) (.fin false 0 1 0)
  match s with
  | .nan => Fmt.fp32.canon
  | .fin _ m _ _ => if m = 0 then acc else roundTo .fp32 0 false 0 (Ext.add false (Fmt.fp32.value acc) s)
  | .inf n => roundTo .fp32 0 false 0 (Ext.add false (Fmt.fp32.value acc) (.inf n))

/-- The pairs in blocks of 32, in ascending K; `n` bounds the number of blocks. -/
def macOrder : Nat → Nat → List (Ext × Ext) → Nat
  | 0, acc, _ => acc
  | n + 1, acc, ps => if ps.isEmpty then acc else macOrder n (macBlock acc (ps.take 32)) (ps.drop 32)

end Sys2Proof.Machine
end

