-- ==== Sys2Proof/Config.lean ====
section
/-! DEFINITION. What the specification leaves open: free values, none of which has a body that a proof can see. -/

namespace Sys2Proof.Config

/-- The noise source's next 16 bits (06 R145, R147): free, applied to the number of values drawn so far (log entry 9). -/
opaque noise : Nat → BitVec 16
/-- A choice among candidates whose order is not architectural (07 R160 and others): free, applied to a counter (log entry 6). -/
opaque choice : Nat → Nat
/-- Nanoseconds of GT that one step of the default schedule takes, less one (00 R5): free, applied to a counter (log entry 6). -/
opaque ticks : Nat → Nat
/-- A rounding that the fixed-width enclosure of an exact real does not decide: free, applied to the operand (log entry 5). -/
opaque undecided : BitVec 32 → BitVec 32
/-- The tie of an exact real comparison that the fixed-width enclosure does not decide (15 R326): free (log entry 18). -/
opaque undecidedTest : BitVec 64 → Bool
/-- A key generated inside the part from its noise source (18 R383): free (log entry 41). -/
opaque freshKey : Nat → BitVec 512
/-- What a byte reads as under another key than the one it was written under (18 R383): free, applied to a counter and
the byte's memory key (log entry 66). -/
opaque staleByte : Nat → Nat → BitVec 8
/-- A passport nonce drawn anew (18 R384): free (log entry 41). -/
opaque freshNonce : Nat → BitVec 128
/-- Whether an Ed25519 signature verifies (18 R379, R385), over key, message and signature: free (log entry 41). -/
opaque ed25519Ok : List (BitVec 8) → List (BitVec 8) → List (BitVec 8) → Bool
/-- Whether an ML-DSA-65 signature verifies (18 R379, R385): free (log entry 41). -/
opaque mldsaOk : List (BitVec 8) → List (BitVec 8) → List (BitVec 8) → Bool
/-- The part's Ed25519 signature over a transcript (18 R379): free (log entry 41). -/
opaque ed25519Sign : List (BitVec 8) → List (BitVec 8)
/-- The part's ML-DSA-65 signature over a transcript (18 R379): free (log entry 41). -/
opaque mldsaSign : List (BitVec 8) → List (BitVec 8)
/-- The SHA-384 digest of a measured content (18 R380): free (log entry 41). -/
opaque sha384 : List (BitVec 8) → BitVec 384
/-- The certificate chain of a slot (18 R379): free (log entry 41). -/
opaque certChain : Nat → List (BitVec 8)
/-- The digest of a firmware component, by measurement index 1 to 6 (18 R380): free (log entry 41). -/
opaque firmwareDigest : Nat → BitVec 384
/-- The BAR ranges of a virtual function as the host has placed them (18 R382): free (log entry 41). -/
opaque barRanges : Nat → List (BitVec 8)
/-- The MAC address that bring-up sets on an Ethernet port (19 R401): free (log entry 42). -/
opaque portMac : Nat → BitVec 48

end Sys2Proof.Config
end

