-- ==== Sys2Proof/Machine/Regs.lean ====
section
/-! DEFINITION. The parts of the panel by name, and the register files (01_panel, 02_machine). -/

namespace Sys2Proof.Machine

/-- What a step or a meaning answers. -/
abbrev Out := Host.Outcome State Fault Refusal

/-! ## Dies, partitions, contexts -/

/-- A die's x coordinate (R12). -/
def dieX (d : Nat) : Nat := d % 6

/-- A die's y coordinate (R12). -/
def dieY (d : Nat) : Nat := d / 6

/-- The die record, if there is such a die. -/
def dieAt (s : State) (d : Nat) : Option Die := s.dies[d]?

/-- Whether a die is active and has not failed (R13; 18 R378). -/
def dieActive (s : State) (d : Nat) : Bool := (dieAt s d).any fun x => x.active && !x.failed

/-- GT of a die (R22). -/
def gtOf (s : State) (d : Nat) : Nat := ((dieAt s d).map (·.gt)).getD 0

/-- The state with a die changed. -/
def updDie (s : State) (d : Nat) (f : Die → Die) : State :=
  { s with dies := s.dies.mapIdx fun i x => if i = d then f x else x }

/-- Whether a position lies in a partition's rectangle (R17). -/
def Partition.holds (p : Partition) (d : Nat) : Bool :=
  decide (p.x0 ≤ dieX d ∧ dieX d < p.x0 + p.w ∧ p.y0 ≤ dieY d ∧ dieY d < p.y0 + p.h)

/-- The active dies of a partition in rank order (R18). -/
def ranks (s : State) (p : Partition) : List Nat :=
  (List.range 36).filter fun d => p.holds d && dieActive s d

/-- The partition of a number. -/
def partAt (s : State) (p : Nat) : Option Partition := Table.look s.partitions p

/-- The context under a key, partition · 16 + number (18 R363). -/
def ctxAt (s : State) (c : Nat) : Option Context := Table.look s.contexts c

/-- The state with a context changed. -/
def updCtx (s : State) (c : Nat) (f : Context → Context) : State := { s with contexts := Table.upd s.contexts c f }

/-- The active dies of a context's partition, by rank. -/
def ctxRanks (s : State) (c : Nat) : List Nat :=
  match (ctxAt s c).bind fun x => partAt s x.part with
  | some p => ranks s p
  | none => []

/-- The rank-0 die of a context's partition, whose command processor serves the context (18 R363). -/
def ctxDie (s : State) (c : Nat) : Nat := (ctxRanks s c).headD 0

/-- The key of a core: die · 96 + core (02 R32). -/
def coreKey (die core : Nat) : Nat := die * 96 + core

/-- The die of a core key. -/
def coreDie (ck : Nat) : Nat := ck / 96

/-- A field of a byte record. -/
def rec32 (bs : List Byte) (off : Nat) : Nat := numAt bs off 4

/-- A doubleword field of a byte record. -/
def rec64 (bs : List Byte) (off : Nat) : Nat := numAt bs off 8

/-- A fresh key. -/
def freshId (s : State) : Nat × State := (s.nextId, { s with nextId := s.nextId + 1 })

/-- A free choice below `n` where the specification fixes no order (log entry 6). -/
def choose (s : State) (n : Nat) : Nat × State :=
  if n ≤ 1 then (0, s) else (Config.choice s.choices % n, { s with choices := s.choices + 1 })

/-- The die that carries host link `k` (R14). -/
def linkDie (k : Nat) : Nat := match k with | 0 => 2 | 1 => 3 | 2 => 32 | _ => 33

/-- The die that carries Ethernet port `e` (R14). -/
def ethDie (e : Nat) : Nat := if e < 4 then 6 * (e + 1) else 6 * (e - 4) + 11

/-- Whether a host link is available (R15). -/
def linkAvailable (s : State) (k : Nat) : Bool :=
  dieActive s (linkDie k) && !(s.hostLinks[k]?).any (·.failed)

/-- A context's tier window `i`, base and limit, as in force (18 R363 TWIN). -/
def tierWindow (c : Context) (i : Nat) : Nat × Nat := (rec64 c.mapped (0x80 + 16 * i), rec64 c.mapped (0x88 + 16 * i))

/-- The tier window that holds a host-physical address. -/
def windowOf (c : Context) (a : Nat) : Option Nat :=
  (List.range 4).find? fun i => decide ((tierWindow c i).1 ≤ a ∧ a < (tierWindow c i).2)

/-- The host link that a window is reached through (18 R363). -/
def windowLink (s : State) (i : Nat) : Nat :=
  if linkAvailable s i then i else ((List.range 4).find? fun k => linkAvailable s k).getD 0

/-! ## Physical keys

Memory is held under one key per byte: tier 0 by die · 2^36 + stack offset, which is R213's own physical address;
tier 1 from 2^46 and tier 2 from 2^47 up by host-physical address. -/

/-- The key of a physical address of a tier (10 R213). -/
def physKey (tier a : Nat) : Nat := match tier with | 0 => a % 2 ^ 46 | 1 => 2 ^ 46 + a % 2 ^ 46 | _ => 2 ^ 47 + a % 2 ^ 46

/-- The tier of a key. -/
def keyTier (k : Nat) : Nat := if k < 2 ^ 46 then 0 else if k < 2 ^ 47 then 1 else 2

/-- The host link that an access of a context to host memory goes by (18 R363). -/
def homeLink (s : State) (ctx k : Nat) : Nat :=
  windowLink s (((ctxAt s ctx).bind fun c => windowOf c (k % 2 ^ 46)).getD 0)

/-- Whether AtomicOp completion is enabled on a host link (19 R399, R400): Requester Enable and the root port's completer support,
or an active CXL.cache. -/
def HostLink.atomics (l : HostLink) : Bool := l.cxl || (l.requester && l.completer)

/-- Whether the memory of a key can be reached for a context: tier 2 is reached through CXL.cache (19 R400). -/
def tierOpen (s : State) (ctx k : Nat) : Bool := keyTier k ≠ 2 || (s.hostLinks[homeLink s ctx k]?).any (·.cxl)

/-- The die that holds the home of a key's line, for an access of a context (09 R187). -/
def homeDie (s : State) (ctx k : Nat) : Nat := if k < 2 ^ 46 then k / 2 ^ 36 % 64 else linkDie (homeLink s ctx k)

/-- A context that reaches a line of host memory, if one does. -/
def lineCtx (s : State) (line : Nat) : Nat :=
  ((s.contexts.find? fun c => (windowOf c.2 (line * 128 % 2 ^ 46)).isSome).map (·.1)).getD 0

/-- The die that holds the home of a line, for any context that reaches it. -/
def lineDie (s : State) (line : Nat) : Nat := homeDie s (lineCtx s line) (line * 128)

/-- The slice index of a line's home (09 R187). -/
def sliceOf (k : Nat) : Nat :=
  let a := if k < 2 ^ 46 then k % 2 ^ 36 else k % 2 ^ 46
  bits a 13 7 ^^^ bits a 20 14 ^^^ bits a 27 21 ^^^ bits a 34 28 ^^^ bits a 35 35

/-- The pseudo-channel of a tier-0 key: each holds a run of 512 MiB of its stack (log entry 13). -/
def channelOf (k : Nat) : Nat := k % 2 ^ 36 / 2 ^ 29

/-- Whether an Ethernet port is up (19 R401): its die is active, in a partition, and the port has not failed. -/
def ethUp (s : State) (e : Nat) : Bool :=
  dieActive s (ethDie e) && (s.partitions.any fun p => p.2.holds (ethDie e)) && (s.ethPorts[e]?).any fun x => !x.failed

/-- Whether a line lies in a failed stack or pseudo-channel (18 R378). -/
def deadLine (s : State) (l : Nat) : Bool :=
  decide (l * 128 < 2 ^ 46) &&
    s.deadMem.any fun x => x.1 = l * 128 / 2 ^ 36 && (match x.2 with | none => true | some c => c = channelOf (l * 128))

/-- Whether a line is poisoned (10 R225): one of a failed memory is, until a whole write clears it. -/
def badLine (s : State) (l : Nat) : Bool := s.poison.contains l || (deadLine s l && !s.mended.contains l)

/-- What the PF's mailbox waits for after a CSAVE of a context. -/
def csaveKey (ctx : Nat) : Nat := 8192 + ctx

/-- The PF's mailbox answered, where it waits for this: BUSY clears (18 R364, R366). A CSAVE whose context leaves pre-empting
another way than to saved is answered RESULT 2 (log entry 59). -/
def answerMail (s : State) (key result : Nat) : State :=
  if s.mailbox.waiting = some key then
    { s with mailbox := { s.mailbox with busy := false, result := BitVec.ofNat 8 result, waiting := none } }
  else s

/-! ## Groups and fibres -/

/-- The group under a key. -/
def groupAt (s : State) (g : Nat) : Option Group := Table.look s.groups g

/-- The state with a group put in place. -/
def setGroup (s : State) (gid : Nat) (g : Group) : State := { s with groups := Table.ins s.groups gid g }

/-- The state with a group changed. -/
def updGroup (s : State) (gid : Nat) (f : Group → Group) : State := { s with groups := Table.upd s.groups gid f }

/-- The fibre of a group. -/
def fibreAt (s : State) (gid fid : Nat) : Option Fibre := (groupAt s gid).bind fun g => Table.look g.fibres fid

/-- The 32-bit identifier of a group (07 R150). -/
def groupIdent (g : Group) : Nat :=
  g.die * 2 ^ 26 + (4 * g.core + g.room) * 2 ^ 17 + g.slot * 2 ^ 12 + g.gen % 16 * 2 ^ 8

/-- A packet whose group has left its slot, dropped and counted at the group's die (07 R173; 26 R441). -/
def dropLate (s : State) (ident : Nat) : State :=
  updDie s (ident / 2 ^ 26) fun d => { d with late := min (d.late + 1) (2 ^ 32 - 1) }

/-- The state with a fibre changed. -/
def updFibre (s : State) (gid fid : Nat) (f : Fibre → Fibre) : State :=
  updGroup s gid fun g => { g with fibres := Table.upd g.fibres fid f }

/-- The kernel under a key. -/
def kernelAt (s : State) (k : Nat) : Option Kernel := Table.look s.kernels k

/-- The state with a kernel changed. -/
def updKernel (s : State) (k : Nat) (f : Kernel → Kernel) : State := { s with kernels := Table.upd s.kernels k f }

/-- The block under a key. -/
def blockAt (s : State) (b : Nat) : Option Block := Table.look s.blocks b

/-- The state with a block changed. -/
def updBlock (s : State) (b : Nat) (f : Block → Block) : State := { s with blocks := Table.upd s.blocks b f }

/-- The fibre whose word is being issued, with all it belongs to. -/
structure Iss where
  gid : Nat
  fid : Nat
  g : Group
  f : Fibre
  k : Kernel
  b : Block
  deriving DecidableEq, Repr

/-- The issuing fibre of the state, if one is named. -/
def issuing (s : State) : Option Iss :=
  match s.cur with
  | none => none
  | some (gid, fid) =>
    match groupAt s gid with
    | none => none
    | some g =>
      match Table.look g.fibres fid, kernelAt s g.kernel, blockAt s g.block with
      | some f, some k, some b => some { gid, fid, g, f, k, b }
      | _, _, _ => none

/-- A word's meaning, for the issuing fibre. -/
def withIssuing (s : State) (act : Iss → State) : Out :=
  match issuing s with
  | some i => .next (act i)
  | none => .fault .noIssuingFibre

/-- The core of the issuing fibre's group. -/
def Iss.ck (i : Iss) : Nat := coreKey i.g.die i.g.core

/-- A context register as the kernel sampled it at launch (06 R143). -/
def Kernel.sample (k : Kernel) (num : Nat) : Word := Table.rd k.sampled 0 num

/-- The group's live lanes: those of fibres that have not ended (02 R30). -/
def Group.live (g : Group) : Mask :=
  g.fibres.foldl (fun m e => if e.2.state = .ended then m else m ||| e.2.p0) 0

/-- The quads a fibre holds, as lanes, within the group's width (02 R30, 05 R126). -/
def Group.held (g : Group) (p0 : Mask) : Mask := Mask.quads p0 &&& Mask.low g.width

/-! ## Kernel records (16 R336, R337) -/

/-- The SHAPE word of a kernel's effective record. -/
def Kernel.shape (k : Kernel) : Nat := rec32 k.record 0x004
/-- The group width. -/
def Kernel.width (k : Kernel) : Nat := 8 * 2 ^ bits k.shape 1 0
/-- The window n. -/
def Kernel.window (k : Kernel) : Nat := 32 * (bits k.shape 4 2 + 1)
/-- Groups per block. -/
def Kernel.gpb (k : Kernel) : Nat := bits k.shape 8 5 + 1
/-- Accumulator tiles per group. -/
def Kernel.acc (k : Kernel) : Nat := bits k.shape 13 9
/-- The quartet flag (12 R278). -/
def Kernel.quart (k : Kernel) : Bool := bits k.shape 14 14 = 1
/-- Shared tiles (12 R265). -/
def Kernel.accShare (k : Kernel) : Bool := bits k.shape 15 15 = 1
/-- The fairness timer is on (07 R164). -/
def Kernel.prog (k : Kernel) : Bool := bits k.shape 16 16 = 1
/-- Helper lanes are added (07 R168). -/
def Kernel.help (k : Kernel) : Bool := bits k.shape 17 17 = 1
/-- The kernel is restartable (16 R345). -/
def Kernel.restart (k : Kernel) : Bool := bits k.shape 18 18 = 1
/-- Tile mode (16 R341). -/
def Kernel.tileMode (k : Kernel) : Bool := bits k.shape 19 19 = 1
/-- Blocks per cluster. -/
def Kernel.bpc (k : Kernel) : Nat := bits (rec32 k.record 0x014) 9 0 + 1
/-- Clusters in the grid. -/
def Kernel.cpg (k : Kernel) : Nat := bits (rec32 k.record 0x018) 15 0 + 1
/-- Lanes given in the grid; 0 means every lane. -/
def Kernel.lanes (k : Kernel) : Nat := rec32 k.record 0x01C
/-- The watchdog limit in µs. -/
def Kernel.wdog (k : Kernel) : Nat := rec32 k.record 0x020
/-- Scratchpad bytes per block. -/
def Kernel.scratch (k : Kernel) : Nat := 4096 * bits (rec32 k.record 0x010) 8 0
/-- The declared depth of a hand-off queue, 0 when it is not declared. -/
def Kernel.qdepth (k : Kernel) (q : Nat) : Nat := numAt k.record (0x028 + 2 * q) 2
/-- The BARS word. -/
def Kernel.bars (k : Kernel) : Nat := rec32 k.record 0x038
/-- The member mask of a block barrier, 0 when it is not declared. -/
def Kernel.bmask (k : Kernel) (n : Nat) : Nat := numAt k.record (0x040 + 2 * n) 2
/-- The frame descriptor's address in tile mode. -/
def Kernel.frame (k : Kernel) : Nat := rec64 k.record 0x060

/-! ## Register files -/

/-- A main register of a lane (R36). -/
def Group.readV (g : Group) (k l : Nat) : Word := Table.rd g.v 0 (k * 64 + l)

/-- A main register written. -/
def Group.writeV (g : Group) (k l : Nat) (x : Word) : Group := { g with v := Table.wr g.v 0 (k * 64 + l) x }

/-- An operand register of a lane (R38). -/
def Group.readO (g : Group) (k l : Nat) : Word := Table.rd g.o 0 (k * 64 + l)

/-- An operand register written. -/
def Group.writeO (g : Group) (k l : Nat) (x : Word) : Group := { g with o := Table.wr g.o 0 (k * 64 + l) x }

/-- The O registers of some lanes read zero from now on (R38). -/
def Group.clearO (g : Group) (m : Mask) : Group := { g with o := Table.sel g.o fun k _ => !Mask.has m (k % 64) }

/-- A uniform register (R40). -/
def Group.readS (g : Group) (k : Nat) : Word := Table.rd g.s 0 k

/-- A uniform register written. -/
def Group.writeS (g : Group) (k : Nat) (x : Word) : Group := { g with s := Table.wr g.s 0 k x }

/-- A uniform pair (R40), low word first. -/
def Group.readPair (g : Group) (k : Nat) : DWord := g.readS (k + 1) ++ g.readS k

/-- The cell of a lane of a V or O register, by number. -/
def vCell (k l : Nat) : Nat := k * 64 + l

/-- The cell of a lane of an O register. -/
def oCell (k l : Nat) : Nat := 2 ^ 16 + k * 64 + l

/-- What a cell holds. -/
def Group.cell (g : Group) (c : Nat) : Word := if c < 2 ^ 16 then Table.rd g.v 0 c else Table.rd g.o 0 (c - 2 ^ 16)

/-- A cell written. -/
def Group.setCell (g : Group) (c : Nat) (x : Word) : Group :=
  if c < 2 ^ 16 then { g with v := Table.wr g.v 0 c x } else { g with o := Table.wr g.o 0 (c - 2 ^ 16) x }

/-- A group once a counting operation has written all its registers, as `h` (04 R85): those that it had written before keep
what they hold, which a later write may have changed. -/
def Group.settled (g : Group) (op : Nat) (h : Group) : Group :=
  let mine := h.landed.filter fun e => e.1 = op
  let h := mine.foldl (fun h e => h.setCell e.2 (g.cell e.2)) h
  { h with landed := h.landed.filter fun e => e.1 ≠ op }

/-- A uniform pair written. -/
def Group.writePair (g : Group) (k : Nat) (x : DWord) : Group :=
  (g.writeS k (x.extractLsb' 0 32)).writeS (k + 1) (x.extractLsb' 32 32)

/-- A predicate as a fibre reads it (R41): P0 is the fibre's own. -/
def Group.readP (g : Group) (p0 : Mask) (n : Nat) : Mask := if n = 0 then p0 else Table.rd g.p 0 n

/-- A predicate's bits written within a set of lanes (R41). -/
def Group.writeP (g : Group) (n : Nat) (within m : Mask) : Group :=
  { g with p := Table.wr g.p 0 n ((Table.rd g.p 0 n &&& ~~~within) ||| (m &&& within)) }

/-- A lane register other than a queue, as a lane reads it (R35, R45). -/
def readReg (g : Group) (f : Fibre) (r : LReg) (l : Nat) : Word :=
  match r with
  | .v k => g.readV k.val l
  | .o k => g.readO k.val l
  | .l k => Table.rd f.last 0 (k.val * 64 + l)
  | .zero => 0
  | .lid => BitVec.ofNat 32 l
  | .qid => BitVec.ofNat 32 (l / 4)
  | .none => 0
  | .q _ => 0
  | .s k => g.readS k.val

/-- A lane register written in one lane; ZERO discards (R35). -/
def writeReg (g : Group) (r : LReg) (l : Nat) (x : Word) : Group :=
  match r with
  | .v k => g.writeV k.val l x
  | .o k => g.writeO k.val l x
  | _ => g

/-- The register `j` places on: V and O by number, S by number, ZERO itself. -/
def regPlus (r : LReg) (j : Nat) : LReg :=
  match r with
  | .v k => if h : k.val + j < 192 then .v ⟨k.val + j, h⟩ else .none
  | .o k => if h : k.val + j < 16 then .o ⟨k.val + j, h⟩ else .none
  | .s k => if h : k.val + j < 32 then .s ⟨k.val + j, h⟩ else .none
  | .zero => .zero
  | _ => .none

/-- `n` consecutive registers of a lane as one number, lowest word in the lowest register (R37). -/
def readWide (g : Group) (f : Fibre) (r : LReg) (l : Nat) : Nat → Nat
  | 0 => 0
  | n + 1 => (readReg g f r l).toNat + 2 ^ 32 * readWide g f (regPlus r 1) l n

/-- `n` consecutive registers of a lane written from one number (R37). -/
def writeWide (g : Group) (r : LReg) (l : Nat) : Nat → Nat → Group
  | 0, _ => g
  | n + 1, x => writeWide (writeReg g r l (BitVec.ofNat 32 x)) (regPlus r 1) l n (x / 2 ^ 32)

/-- The last-result file after one push (R39): L3 is lost, the others move up, and L0 takes a value in each lane. -/
def pushLast (f : Fibre) (vals : Table Word) : Fibre :=
  { f with last :=
      vals ++ (Table.sel f.last fun k _ => decide (k < 192)).map fun e => (e.1 + 64, e.2) }

/-- A scratchpad byte; bytes at or beyond the declared size read zero (R50). -/
def Block.readByte (b : Block) (a : Nat) : Byte := if a < b.size then Table.rd b.scratch 0 a else 0

/-- `n` scratchpad bytes as stored, without the size rule. -/
def Block.readN (b : Block) (a : Nat) : Nat → List Byte
  | 0 => []
  | n + 1 => b.readByte a :: b.readN (a + 1) n

/-- Scratchpad bytes written; those at or beyond the declared size are not. -/
def Block.writeN (b : Block) (a : Nat) : List Byte → Block
  | [] => b
  | x :: xs => Block.writeN (if a < b.size then { b with scratch := Table.wr b.scratch 0 a x } else b) (a + 1) xs

/-- A tile element's key within a tile table: tile · 2048 + row · 64 + column (R42). -/
def tileKey (tile row col : Nat) : Nat := tile * 2048 + row * 64 + col

/-- The partition that holds a die. -/
def partOfDie (s : State) (die : Nat) : Option Nat := (s.partitions.find? fun e => e.2.holds die).map (·.1)

end Sys2Proof.Machine
end

