-- ==== Sys2Proof/Machine/Mesh.lean ====
section
/-! DEFINITION. The mesh: neighbours, boundaries, routes, the time tree, barrier trees (01 R14, R23; 08 R184; 19 R387,
R397). -/

namespace Sys2Proof.Machine

/-- The die beyond a port: 0 N, 1 E, 2 S, 3 W (R14). -/
def neighbour (d port : Nat) : Option Nat :=
  match port with
  | 0 => if 6 ≤ d then some (d - 6) else none
  | 1 => if d % 6 < 5 then some (d + 1) else none
  | 2 => if d < 30 then some (d + 6) else none
  | _ => if 0 < d % 6 then some (d - 1) else none

/-- The neighbours of a die with their ports, in the order N, E, S, W. -/
def neighbours (d : Nat) : List (Nat × Nat) := (List.range 4).filterMap fun p => (neighbour d p).map fun n => (p, n)

/-- The boundary between two neighbours (R387). -/
def boundaryOf (a b : Nat) : Nat :=
  let lo := min a b
  if lo + 1 = max a b then 5 * dieY lo + dieX lo else 30 + lo

/-- The dies at a boundary's ends: its west or north end first. -/
def boundaryEnds (n : Nat) : Nat × Nat :=
  if n < 30 then (n / 5 * 6 + n % 5, n / 5 * 6 + n % 5 + 1) else (n - 30, n - 24)

/-- The state of a boundary. -/
def bndState (s : State) (n : Nat) : BndState := ((s.boundaries[n]?).map (·.state)).getD .absent

/-- Whether traffic may ever cross a boundary: it is not absent and has not failed. One that retrains holds its traffic,
and routes do not change (R390). -/
def usable (s : State) (n : Nat) : Bool := decide (bndState s n ≠ .absent ∧ bndState s n ≠ .failed)

/-- Whether two neighbours are joined: both active, over a usable boundary. -/
def joined (s : State) (a b : Nat) : Bool := dieActive s a && dieActive s b && usable s (boundaryOf a b)

/-- One round of relaxing hop counts. -/
def relaxHops (s : State) (h : List (Option Nat)) : List (Option Nat) :=
  h.mapIdx fun d x =>
    let via := minOf ((neighbours d).filterMap fun n =>
      if joined s d n.2 then ((h[n.2]?).getD none).map (· + 1) else none)
    match x, via with
    | some a, some b => some (min a b)
    | some a, none => some a
    | none, v => v

/-- The hops from each die to a root over active dies and usable boundaries; `none` where there is no path. -/
def hopsTo (s : State) (root : Nat) : List (Option Nat) :=
  (List.range 36).foldl (fun h _ => relaxHops s h)
    ((List.range 36).map fun d => if d = root ∧ dieActive s d then some 0 else none)

/-- A die's hops in a list. -/
def hopsOf (h : List (Option Nat)) (d : Nat) : Option Nat := (h[d]?).getD none

/-- The first port, in the order N, E, S, W, to a neighbour one hop nearer the root. -/
def nearerPort (s : State) (h : List (Option Nat)) (d : Nat) : Option (Nat × Nat) :=
  match hopsOf h d with
  | none => none
  | some k => (neighbours d).find? fun n => joined s d n.2 && decide (1 ≤ k) && hopsOf h n.2 = some (k - 1)

/-- The parent of a die in a tree of shortest paths (01 R23; 08 R184). -/
def treeParent (s : State) (root d : Nat) : Option Nat := (nearerPort s (hopsTo s root) d).map (·.2)

/-- The parent of a die in its partition's barrier tree (08 R184): the tree is rooted at rank 0. -/
def barrierParent (s : State) (part d : Nat) : Option Nat :=
  match partAt s part with
  | some p => treeParent s ((ranks s p).headD 0) d
  | none => none

/-- The boundaries between a die and the root of its partition's barrier tree. -/
def barrierPath (s : State) (part : Nat) : Nat → Nat → List Nat
  | 0, _ => []
  | fuel + 1, d => match barrierParent s part d with
    | some p => boundaryOf d p :: barrierPath s part fuel p
    | none => []

/-- The boundaries of a partition's barrier tree, those between relaying dies outside it among them (08 R184). -/
def barrierLinks (s : State) (part : Nat) : List Nat :=
  dedup ((((partAt s part).map (ranks s)).getD []).flatMap (barrierPath s part 36))

/-- Whether a retraining boundary between a die and the root of a partition's barrier tree holds its sideband traffic (08 R184). -/
def pathHeld (s : State) (part d : Nat) : Bool :=
  (s.boundaries.any fun b => b.state = .retraining) &&
  (barrierPath s part 36 d).any fun b => decide (bndState s b = .retraining)

/-- The dies of a straight run, from one towards another in one coordinate. -/
def runDies (a b step fuel : Nat) : List Nat :=
  match fuel with
  | 0 => [a]
  | f + 1 => if a = b then [a] else a :: runDies (if a < b then a + step else a - step) b step f

/-- The dies of the XY route, or of the YX route (R397). -/
def dimRoute (a b : Nat) (yFirst : Bool) : List Nat :=
  let corner := if yFirst then 6 * dieY b + dieX a else 6 * dieY a + dieX b
  let first := runDies a corner (if yFirst then 6 else 1) 6
  let second := runDies corner b (if yFirst then 1 else 6) 6
  first ++ second.drop 1

/-- Whether a route crosses only active dies and usable boundaries. -/
def routeOpen (s : State) : List Nat → Bool
  | a :: b :: rest => joined s a b && routeOpen s (b :: rest)
  | [a] => dieActive s a
  | [] => true

/-- The port of a die towards the second die of a route. -/
def portTo (route : List Nat) : Option Nat :=
  match route with
  | a :: b :: _ => ((neighbours a).find? fun n => n.2 = b).map (·.1)
  | _ => none

/-- The primary port of a die for a destination (R397); `none` for the die itself or where there is no path. -/
def primaryPort (s : State) (d dest : Nat) : Option Nat :=
  let xy := dimRoute d dest false
  let yx := dimRoute d dest true
  if d = dest then none
  else if routeOpen s xy then portTo xy
  else if routeOpen s yx then portTo yx
  else (nearerPort s (hopsTo s dest) d).map (·.1)

/-- A die's label in up*/down* routing (R397). -/
def label (h : List (Option Nat)) (d : Nat) : Nat := ((hopsOf h d).getD 100) * 64 + d

/-- One round of relaxing up*/down* distances to a destination: for each die, the length of the best route that may still
go up, and of the best that only goes down. -/
def relaxUpDown (s : State) (h : List (Option Nat)) (t : List (Option Nat × Option Nat)) :
    List (Option Nat × Option Nat) :=
  t.mapIdx fun d x =>
    let next (down : Bool) : List Nat := (neighbours d).filterMap fun n =>
      if !joined s d n.2 then none
      else
        let y := (t[n.2]?).getD (none, none)
        let goesUp : Bool := decide (label h n.2 < label h d)
        if goesUp then (if down then none else y.1.map (· + 1)) else y.2.map (· + 1)
    let best (old : Option Nat) (c : List Nat) : Option Nat := minOf (old.toList ++ c)
    (best x.1 (next false), best x.2 (next true))

/-- The up*/down* distances of every die to a destination. -/
def upDown (s : State) (h : List (Option Nat)) (dest : Nat) : List (Option Nat × Option Nat) :=
  (List.range 36).foldl (fun t _ => relaxUpDown s h t)
    ((List.range 36).map fun d => if d = dest then (some 0, some 0) else (none, none))

/-- The escape port of a die for a destination (R397): the first hop of the shortest route of up hops and then down hops,
ports taken N, E, S, W. -/
def escapePort (s : State) (d dest : Nat) : Option Nat :=
  let h := hopsTo s s.root
  let t := upDown s h dest
  match ((t[d]?).getD (none, none)).1 with
  | some (k + 1) =>
    ((neighbours d).find? fun n => joined s d n.2 &&
      (let y := (t[n.2]?).getD (none, none)
       if label h n.2 < label h d then y.1 = some k else y.2 = some k)).map (·.1)
  | _ => none

/-! ## Routing tables (R393, R397) -/

/-- The tables formed anew over the active dies and the boundaries that carry traffic (R393, R397). -/
def formRoutes (s : State) : State :=
  { s with routing :=
    { root := s.root, dies := (List.range 36).filter (dieActive s), bnds := (List.range 60).filter (usable s) } }

/-- The mesh as the tables in force see it: what has changed since they were formed changes no route (R390). -/
def tableView (s : State) : State :=
  { s with
    root := s.routing.root
    dies := s.dies.mapIdx fun d x => { x with active := s.routing.dies.contains d, failed := false }
    boundaries := s.boundaries.mapIdx fun b x => { x with state := if s.routing.bnds.contains b then .up else .failed } }

/-- The entry of a die's table for a destination: the next die by its primary port or by its escape port. -/
def tableNext (s : State) (esc : Bool) (d dest : Nat) : Option Nat :=
  let v := tableView s
  ((if esc then escapePort v d dest else primaryPort v d dest)).bind (neighbour d)

/-! ## Packets under way (R390, R394, R397) -/

/-- A packet in the mesh: its network, its key and which of the packets under that key it is, its source and its destination. -/
structure Packed where
  vnet : Nat
  id : Nat
  sub : Nat
  src : Nat
  dest : Nat
  deriving DecidableEq, Repr

/-- The die whose router holds a packet, and whether it has moved to the escape channel; one that has not left stands at its
source, on the normal channel. -/
def placeOf (s : State) (p : Packed) : Nat × Bool :=
  ((s.mesh.find? fun m => m.vnet = p.vnet && m.id = p.id && m.sub = p.sub).map fun m => (m.die, m.esc)).getD (p.src, false)

/-- Whether a packet has yet to reach the router of its destination. -/
def underWay (s : State) (vnet id sub src dest : Nat) : Bool := decide ((placeOf s { vnet, id, sub, src, dest }).1 ≠ dest)

/-- The boundary that a packet waits for where it stands, with the die beyond it; `esc` says that its normal channel has no credit
there, so that it moves to the escape channel (R397). -/
def nextHop (s : State) (p : Packed) (esc : Bool) : Option (Nat × Nat) :=
  let (d, e) := placeOf s p
  if d = p.dest then none else (tableNext s (e || esc) d p.dest).map fun n => (boundaryOf d n, n)

/-- A packet's next hop: across a boundary that is up or degraded; while one retrains it waits where it stands (R390). How many
credits a channel has is not stated: that one has none is a free choice (log entry 65). -/
def hopPacket (s : State) (p : Packed) (esc : Bool) : State :=
  match nextHop s p esc with
  | none => s
  | some (b, n) =>
    if bndState s b ≠ .up ∧ bndState s b ≠ .degraded then s
    else { s with mesh := { vnet := p.vnet, id := p.id, sub := p.sub, die := n, esc := (placeOf s p).2 || esc } ::
             s.mesh.filter fun m => !(m.vnet = p.vnet && m.id = p.id && m.sub = p.sub) }

/-! ## Accesses made in one step (R390; log entry 65) -/

/-- Whether the escape route from a die to another is free of boundaries that retrain. -/
def escapeFree (s v : State) (dest : Nat) : Nat → Nat → Bool
  | 0, d => decide (d = dest)
  | fuel + 1, d => decide (d = dest) || (match (escapePort v d dest).bind (neighbour d) with
    | some n => decide (bndState s (boundaryOf d n) ≠ .retraining) && escapeFree s v dest fuel n
    | none => false)

/-- Whether some way from a die to another is free: over primary ports, and from any router of these on over escape ports. -/
def wayFree (s v : State) (dest : Nat) : Nat → Nat → Bool
  | 0, d => decide (d = dest)
  | fuel + 1, d => decide (d = dest) || escapeFree s v dest 36 d ||
    (match (primaryPort v d dest).bind (neighbour d) with
      | some n => decide (bndState s (boundaryOf d n) ≠ .retraining) && wayFree s v dest fuel n
      | none => false)

/-- Whether retraining boundaries hold what goes from one die to another, on every way. -/
def trafficHeld (s : State) (src dest : Nat) : Bool :=
  (s.boundaries.any fun b => b.state = .retraining) && !wayFree s (tableView s) dest 36 src

/-- The state, noting where a way is closed that what is being done needs: it is then not done (log entry 65). -/
def needWay (s : State) (src dest : Nat) : State := if trafficHeld s src dest then { s with held := true } else s

/-- What has been done, unless a closed way holds it: then the state before (log entry 65). -/
def orStay (s t : State) : State := if t.held then s else t

end Sys2Proof.Machine
end

