-- ==== Sys2Proof/Machine/Homes.lean ====
section
/-! DEFINITION. Home records, and the memory below the homes: slices, lodges, hotness tables (09_memory_order R186 to R188, R192,
R194; 10 R228). -/

namespace Sys2Proof.Machine

/-! ## Homes -/

/-- The home record of a line that nothing has touched. -/
def HomeLine.blank : HomeLine := { eMax := 0, holders := [], hold := none, recalling := false }

/-- The home record of a line (09 R192). -/
def homeOf (s : State) (line : Nat) : HomeLine := Table.rd s.homes HomeLine.blank line

/-- The state with a line's home record changed. -/
def updHome (s : State) (line : Nat) (f : HomeLine → HomeLine) : State :=
  { s with homes := Table.wr s.homes HomeLine.blank line (f (homeOf s line)) }

/-- The write completion time of a write applied at a home's GT (09 R194). -/
def wctAt (s : State) (line t : Nat) : Nat := max t ((homeOf s line).eMax + 4)

/-! ## Memory below the homes -/

/-- The counter total of a hotness entry. -/
def HotEntry.total (h : HotEntry) : Nat := (h.ctr.map (·.2)).sum

/-- The entry that a request to a block raises: its own, a free one, or the one with the lowest total, ties to the
lower block (10 R228). The entries without it, and it. -/
def hotPick (hs : List HotEntry) (block : Nat) : List HotEntry × HotEntry :=
  match hs.find? fun h => h.block = block with
  | some h => (hs.filter fun x => x.block ≠ block, h)
  | none =>
    let fresh : HotEntry := { block := block, ctr := [], posted := [] }
    if hs.length < 4096 then (hs, fresh)
    else match sortBy (fun (x y : HotEntry) => decide (x.total < y.total ∨ (x.total = y.total ∧ x.block < y.block))) hs with
      | v :: _ => (hs.filter fun x => x.block ≠ v.block, fresh)
      | [] => (hs, fresh)

/-- Requests of a home slice to the memory controller of its die, on behalf of a context and a die (10 R228): the
block's counter for that die rises, and reaching the context's threshold leaves a notification with the count that reached it for
the ring. -/
def countHot (s : State) (ctx key requester m : Nat) : State :=
  let die := key / 2 ^ 36 % 64
  let block := key % 2 ^ 36 / 65536
  match dieAt s die with
  | none => s
  | some d =>
    let (rest, h) := hotPick d.hot block
    let was := Table.rd h.ctr 0 requester
    let n := min 255 (was + m)
    let thr := ((ctxAt s ctx).map fun c => c.hotthr.toNat % 256).getD 0
    let at_ := min 255 (max thr (was + 1))
    let post : Bool := decide (thr ≠ 0 ∧ thr ≤ n) && !(h.posted.any fun p => p.1 = requester)
    let h := { h with
      ctr := Table.ins h.ctr requester n
      posted := if post then (requester, ctx) :: h.posted else h.posted }
    let s := updDie s die fun d => { d with hot := h :: rest }
    if post then
      { s with outbox := s.outbox ++ [(ctx, die, .event 2 (toBytes 4 block ++ toBytes 4 requester ++ toBytes 4 at_))] }
    else s

/-- The lines that the slices of one kind hold with one more (09 R186): where the line's own slice is full, one of its lines,
a free choice, gives way. -/
def intoSlice (s : State) (slice : Nat → Nat) (held : List (Nat × Nat)) (die line cap : Nat) : List (Nat × Nat) × State :=
  if held.contains (die, line) then (held, s)
  else
    let mates := held.filter fun x => x.1 = die && slice (x.2 * 128) = slice (line * 128)
    if mates.length < cap then ((die, line) :: held, s)
    else
      let (j, s) := choose s mates.length
      ((die, line) :: held.erase (mates.getD j (0, 0)), s)

/-- A line's lodge slice takes it (09 R186, R188): 4,096 lines a slice; a write leaves it dirty there, and a dirty line that
gives way is written to the DRAM layers. -/
def lodgeTake (s : State) (die line : Nat) (write : Bool) : State :=
  let (lodge, s) := intoSlice s channelOf s.lodge die line 4096
  let dirty := if write then (die, line) :: s.lodgeDirty.filter (· ≠ (die, line)) else s.lodgeDirty
  { s with lodge := lodge, lodgeDirty := dirty.filter lodge.contains }

/-- An access of a home slice to its line, for a context and the die that asked (09 R186 to R188; 10 R228): a line that the
slice holds is read there; any other access is a request to the memory controller, through the lodge for a line of
HBM, and leaves the line in the slice, which holds 6,144 lines (log entry 54). A write is remembered (10 R226). -/
def homeTouch (s : State) (ctx requester line : Nat) (write : Bool) : State :=
  let die := homeDie s ctx (line * 128)
  let s := if write ∧ !s.written.contains line then { s with written := line :: s.written } else s
  if !write && s.l2.contains (die, line) then s
  else
    let s := if keyTier (line * 128) = 0 then lodgeTake (countHot s ctx (line * 128) requester 1) die line write else s
    let (l2, s) := intoSlice s sliceOf s.l2 die line 6144
    { s with l2 := l2 }

end Sys2Proof.Machine
end

