-- ==== Sys2Proof/Machine/Page.lean ====
section
/-! DEFINITION. Page tables, range entries and translation (10_page R211 to R216, R222). -/

namespace Sys2Proof.Machine

/-- A translated page: its effective STATE (R212, R213), its leaf word, the base-2 logarithm of its size, its first
virtual address, the physical address of its leaf, and the OFFSET of the range entry when one maps it. -/
structure Pg where
  st : Nat
  leaf : Nat
  sz : Nat
  va : Nat
  leafAddr : Option Nat
  range : Option Nat
  deriving DecidableEq, Repr

/-- The leaf's SCOPE (R212). -/
def Pg.scope (p : Pg) : Nat := bits p.leaf 56 54
/-- The leaf's CACHE bit. -/
def Pg.cache (p : Pg) : Bool := bits p.leaf 59 59 = 1
/-- The leaf's WR bit. -/
def Pg.wr (p : Pg) : Bool := bits p.leaf 57 57 = 1
/-- The leaf's COW bit. -/
def Pg.cow (p : Pg) : Bool := bits p.leaf 58 58 = 1
/-- The leaf's ATOM bit. -/
def Pg.atom (p : Pg) : Bool := bits p.leaf 60 60 = 1
/-- The leaf's REPL bit. -/
def Pg.repl (p : Pg) : Bool := bits p.leaf 52 52 = 1
/-- The leaf's ILV bit. -/
def Pg.ilv (p : Pg) : Bool := bits p.leaf 53 53 = 1
/-- The leaf's TIER. -/
def Pg.tier (p : Pg) : Nat := bits p.leaf 51 50
/-- The leaf's FRAME in place, as a physical address. -/
def Pg.frame (p : Pg) : Nat := bits p.leaf 45 16 * 2 ^ 16

/-- Whether a leaf's attributes are ones that R212 to R214 do not treat as STATE 0; `sz` is the page size, and `range`
says that the word is a range entry's ATTR, whose FRAME is ignored. A die that has failed since bring-up is not mapped out (01 R13):
its pages are those whose lines are poisoned (R225; 18 R378). -/
def leafSound (s : State) (ctx leaf sz : Nat) (range : Bool) : Bool :=
  match ctxAt s ctx with
  | none => false
  | some c =>
    match partAt s c.part with
    | none => false
    | some p =>
      let frame := bits leaf 45 16 * 2 ^ 16
      let tier := bits leaf 51 50
      let ilv := bits leaf 53 53 = 1
      decide (bits leaf 0 0 = 0) && decide (bits leaf 56 54 ≤ 4) && decide (tier ≠ 3) &&
      decide (bits leaf 14 1 = 0) && (Table.look p.keys (bits leaf 49 46)).isSome &&
      (range || (decide (frame % 2 ^ sz = 0) &&
        (if ilv then decide (tier = 0 ∧ bits leaf 45 36 = 0)
         else if tier = 0 then decide (bits leaf 45 42 = 0) && p.holds (bits leaf 41 36) && (dieAt s (bits leaf 41 36)).any (·.active)
         else match windowOf c frame with
          | some i => decide (frame + 2 ^ sz ≤ (tierWindow c i).2)
          | none => false)))

/-- Whether a tier-0 physical address lies in the stack of an active die of a context's partition (R211, R213; 01 R13). -/
def stackHere (s : State) (ctx a : Nat) : Bool :=
  decide (a / 2 ^ 42 = 0) && (ctxRanks s ctx).contains (a / 2 ^ 36)

/-- The page a leaf makes. -/
def pgOfLeaf (s : State) (ctx leaf sz a leafAddr : Nat) : Pg :=
  { st := if leafSound s ctx leaf sz false then bits leaf 63 61 else 0
    leaf := leaf, sz := sz, va := a / 2 ^ sz * 2 ^ sz, leafAddr := some leafAddr, range := none }

/-- The entry at a page-table level and index. -/
def readEntry (s : State) (table idx : Nat) : Nat := ofBytes (Memory.readN s.mem (table + 8 * idx) 8)

/-- Whether a word is a table entry whose reserved bits are zero and whose NEXT is aligned (R212). -/
def tableEntryOk (e align : Nat) : Bool := decide (bits e 63 46 = 0 ∧ bits e 7 1 = 0 ∧ bits e 45 8 * 256 % align = 0)

/-- Where a walk of a context's tree for an address reads its entries, in order (R211, R212). -/
def walkReads (s : State) (ctx a : Nat) : List Nat :=
  let root := match ctxAt s ctx with | some c => rec64 c.mapped 0x008 | none => 0
  if !stackHere s ctx root then []
  else
    let e3 := readEntry s root (bits a 55 43)
    let t2 := bits e3 45 8 * 256
    (root + 8 * bits a 55 43) ::
      if bits e3 0 0 = 0 ∨ !tableEntryOk e3 65536 ∨ !stackHere s ctx t2 then []
      else
        let e2 := readEntry s t2 (bits a 42 30)
        let t1 := bits e2 45 8 * 256
        (t2 + 8 * bits a 42 30) ::
          if bits e2 0 0 = 0 ∨ !tableEntryOk e2 4096 ∨ !stackHere s ctx t1 then []
          else
            let e1 := readEntry s t1 (bits a 29 21)
            let t0 := bits e1 45 8 * 256
            (t1 + 8 * bits a 29 21) ::
              if bits e1 0 0 = 0 ∨ !tableEntryOk e1 256 ∨ !stackHere s ctx t0 then [] else [t0 + 8 * bits a 20 16]

/-- A walk's requests to the homes of the tables, on behalf of a context, by a die (R216, R228); they cross the mesh (19 R390). -/
def touchWalk (s : State) (ctx die a : Nat) : State :=
  (walkReads s ctx a).foldl (fun s k => homeTouch (needWay s die (k / 2 ^ 36)) ctx die (k / 128) false) s

/-- The walk (R211, R212) of a context's tree for a virtual address below 2^56. A malformed entry ends it as a leaf
with STATE 0 would, and so does a table outside the partition's stacks (log entry 52). -/
def walk (s : State) (ctx a : Nat) : Pg :=
  let bad (sz leafAddr : Nat) : Pg :=
    { st := 0, leaf := 0, sz := sz, va := a / 2 ^ sz * 2 ^ sz, leafAddr := some leafAddr, range := none }
  let root := match ctxAt s ctx with | some c => rec64 c.mapped 0x008 | none => 0
  let a3 := root + 8 * bits a 55 43
  let e3 := readEntry s root (bits a 55 43)
  if !stackHere s ctx root ∨ bits e3 0 0 = 0 ∨ !tableEntryOk e3 65536 ∨ !stackHere s ctx (bits e3 45 8 * 256) then bad 43 a3
  else
    let t2 := bits e3 45 8 * 256
    let a2 := t2 + 8 * bits a 42 30
    let e2 := readEntry s t2 (bits a 42 30)
    if bits e2 0 0 = 0 then pgOfLeaf s ctx e2 30 a a2
    else if !tableEntryOk e2 4096 ∨ !stackHere s ctx (bits e2 45 8 * 256) then bad 30 a2
    else
      let t1 := bits e2 45 8 * 256
      let a1 := t1 + 8 * bits a 29 21
      let e1 := readEntry s t1 (bits a 29 21)
      if bits e1 0 0 = 0 then pgOfLeaf s ctx e1 21 a a1
      else if !tableEntryOk e1 256 ∨ !stackHere s ctx (bits e1 45 8 * 256) then bad 21 a1
      else
        let t0 := bits e1 45 8 * 256
        let a0 := t0 + 8 * bits a 20 16
        let e0 := readEntry s t0 (bits a 20 16)
        if bits e0 0 0 = 0 then pgOfLeaf s ctx e0 16 a a0 else bad 16 a0

/-- Whether a range entry is live (R215). -/
def rangeLive (s : State) (ctx : Nat) (r : RangeEntry) : Bool :=
  let at_ := r.attr.toNat
  decide (r.base.toNat < r.limit.toNat) && decide (bits at_ 63 61 = 3 ∨ bits at_ 63 61 = 7) &&
  decide (bits at_ 52 52 = 0 ∧ bits at_ 53 53 = 0) && leafSound s ctx at_ 16 true

/-- Whether a range entry leads the whole 64 KiB page of an address to bytes that its context may reach: all in stacks of its
partition, or all in one tier window (01 R13; R213, R215; log entry 52). -/
def rangeReaches (s : State) (ctx : Nat) (r : RangeEntry) (a : Nat) : Bool :=
  let k := (a / 65536 * 65536 + r.offset.toNat) % 2 ^ 46
  let last := k + 65535
  if bits r.attr.toNat 51 50 = 0 then stackHere s ctx k && stackHere s ctx last
  else (ctxAt s ctx).any fun c => (windowOf c k).isSome && windowOf c k = windowOf c last

/-- The page that the lowest-numbered live range entry over an address makes (R215, R216). -/
def rangePage (s : State) (ctx a : Nat) (rs : List RangeEntry) : Option Pg :=
  (rs.find? fun r => rangeLive s ctx r && decide (r.base.toNat ≤ a ∧ a < r.limit.toNat)).map fun r =>
    { st := if rangeReaches s ctx r a then bits r.attr.toNat 63 61 else 0, leaf := r.attr.toNat, sz := 16
      va := a / 65536 * 65536, leafAddr := none, range := some r.offset.toNat }

/-- The range entries of a context that are in force (R215). -/
def liveRanges (s : State) (ctx : Nat) : List RangeEntry := ((ctxAt s ctx).map (·.live)).getD []

/-- The page of an address with no TLB, as the command processor and the engines of a die read it. -/
def translateCp (s : State) (ctx a : Nat) : Pg :=
  if 2 ^ 56 ≤ a then { st := 0, leaf := 0, sz := 16, va := a / 65536 * 65536, leafAddr := none, range := none }
  else match rangePage s ctx a (liveRanges s ctx) with
    | some p => p
    | none => walk s ctx a

/-- The contexts whose entries fit a range TLB, the newest first (R216). -/
def fitRanges : Nat → List (Nat × Nat × List RangeEntry) → List (Nat × Nat × List RangeEntry)
  | _, [] => []
  | room, e :: es => if e.2.2.length ≤ room then e :: fitRanges (room - e.2.2.length) es else []

/-- A context's range entries loaded into a core's range TLB of 32 entries (R215, R216); those of the contexts that it
held longest give way (log entry 53). -/
def loadRange (s : State) (ck ctx : Nat) : State :=
  let mine := s.rangeTlb.filter fun e => e.1 = ck
  let rest := mine.filter fun e => e.2.1 ≠ ctx
  { s with rangeTlb := fitRanges 32 ((ck, ctx, liveRanges s ctx) :: rest) ++ s.rangeTlb.filter fun e => e.1 ≠ ck }

/-- The range entries that a core's range TLB holds for a context (R215). -/
def coreRanges (s : State) (ck ctx : Nat) : Option (List RangeEntry) :=
  (s.rangeTlb.find? fun e => e.1 = ck ∧ e.2.1 = ctx).map (·.2.2)

/-- The state with a context's range entries in a core's range TLB: loaded anew where they have given way. -/
def withRanges (s : State) (ck ctx : Nat) : State := if (coreRanges s ck ctx).isSome then s else loadRange s ck ctx

/-- A leaf taken into a core's page TLB, which keeps its newest 2,048 (R216; log entry 7). -/
def keepLeaf (s : State) (e : TlbEntry) : State :=
  let mine := (s.tlb.filter fun x => x.core = e.core).take 2047
  { s with tlb := e :: mine ++ s.tlb.filter fun x => x.core ≠ e.core }

/-- The translation of an address on a core (R216): range entry first, then the page TLB, then the walk, whose leaf
the page TLB keeps when its STATE is 3, 4, 6 or 7. -/
def translate (s : State) (ck ctx a : Nat) : Pg × State :=
  if 2 ^ 56 ≤ a then (translateCp s ctx a, s)
  else
    let s := withRanges s ck ctx
    match rangePage s ctx a ((coreRanges s ck ctx).getD []) with
    | some p => (p, s)
    | none =>
      let p := walk s ctx a
      match s.tlb.find? fun e => e.core = ck ∧ e.ctx = ctx ∧ e.va ≤ a ∧ a < e.va + 2 ^ e.size with
      | some e => ({ pgOfLeaf s ctx e.leaf.toNat e.size a 0 with leafAddr := p.leafAddr }, s)
      | none =>
        let s := touchWalk s ctx (coreDie ck) a
        if p.st = 3 ∨ p.st = 4 ∨ p.st = 6 ∨ p.st = 7 then
          (p, keepLeaf s { core := ck, ctx := ctx, va := p.va, size := p.sz, leaf := BitVec.ofNat 64 p.leaf })
        else (p, s)

/-- The memory key of a byte of a page, as a die reaches it (R213 to R215, R222). -/
def Pg.key (s : State) (ctx die : Nat) (p : Pg) (a : Nat) : Nat :=
  match p.range with
  | some off => physKey p.tier (a + off)
  | none =>
    let off := a % 2 ^ p.sz
    if p.tier ≠ 0 then physKey p.tier (p.frame + off)
    else if p.ilv then
      let rs := ctxRanks s ctx
      let n := max 1 rs.length
      let j := off / 4096
      rs.getD (j % n) 0 * 2 ^ 36 + p.frame % 2 ^ 36 + 4096 * (j / n) + off % 4096
    else if p.repl ∧ (p.st = 4 ∨ p.st = 7) then die * 2 ^ 36 + p.frame % 2 ^ 36 + off
    else p.frame + off

/-- The die that holds a page's master copy, whose command processor serves the page (R222, R226). -/
def Pg.master (s : State) (ctx : Nat) (p : Pg) : Nat :=
  if p.tier = 0 ∧ !p.ilv then p.frame / 2 ^ 36 % 64 else ctxDie s ctx

/-- Whether a key lies in a poisoned line (R225). -/
def poisoned (s : State) (k : Nat) : Bool := badLine s (k / 128)

/-- The TLB entries of every core dropped for a page (R217, R222). -/
def dropTlb (s : State) (ctx va size : Nat) : State :=
  { s with tlb := s.tlb.filter fun e => !(e.ctx = ctx ∧ e.va < va + size ∧ va < e.va + 2 ^ e.size) }

/-- The bytes of the keys that `p` picks under another key than the one they were written under (18 R383). -/
def rekey (s : State) (p : Nat → Bool) : State :=
  { s with
    mem := (s.mem.filter fun c => p c.1).foldl (fun m c => Memory.write m c.1 (Config.staleByte s.choices c.1)) s.mem
    choices := s.choices + 1 }

/-- A leaf's STATE field replaced. -/
def withState (leaf st : Nat) : Nat := leaf % 2 ^ 61 + st * 2 ^ 61

/-- A leaf's word written in memory, at its home, by the command processor of a context (R228). -/
def writeLeaf (s : State) (ctx leafAddr leaf : Nat) : State :=
  let s := homeTouch s ctx (ctxDie s ctx) (leafAddr / 128) true
  { s with mem := Memory.writeN s.mem leafAddr (toBytes 8 leaf) }

/-! ## Every page of a context -/

/-- The indices of a table's entries that are not zero: those with a byte that memory lists. -/
def entriesAt (s : State) (table n : Nat) : List Nat :=
  (dedup ((s.mem.filter fun c => decide (table ≤ c.1 ∧ c.1 < table + 8 * n)).map fun c => (c.1 - table) / 8)).filter fun j =>
    readEntry s table j ≠ 0

/-- The first addresses of the pages that a context's tree maps. -/
def mappedAddrs (s : State) (ctx : Nat) : List Nat :=
  let root := match ctxAt s ctx with | some c => rec64 c.mapped 0x008 | none => 0
  (entriesAt s root 8192).flatMap fun i3 =>
    let e3 := readEntry s root i3
    if bits e3 0 0 = 0 ∨ !tableEntryOk e3 65536 then []
    else
      let t2 := bits e3 45 8 * 256
      (entriesAt s t2 8192).flatMap fun i2 =>
        let e2 := readEntry s t2 i2
        let a2 := i3 * 2 ^ 43 + i2 * 2 ^ 30
        if bits e2 0 0 = 0 then [a2]
        else if !tableEntryOk e2 4096 then []
        else
          let t1 := bits e2 45 8 * 256
          (entriesAt s t1 512).flatMap fun i1 =>
            let e1 := readEntry s t1 i1
            let a1 := a2 + i1 * 2 ^ 21
            if bits e1 0 0 = 0 then [a1]
            else if !tableEntryOk e1 256 then []
            else (entriesAt s (bits e1 45 8 * 256) 32).map fun i0 => a1 + i0 * 2 ^ 16

/-- The pages that a context's tree maps in a STATE other than 0. -/
def pagesOf (s : State) (ctx : Nat) : List Pg := ((mappedAddrs s ctx).map (walk s ctx)).filter fun p => p.st ≠ 0

/-- The pages of every context, each with its context. -/
def allPages (s : State) : List (Nat × Pg) := s.contexts.flatMap fun c => (pagesOf s c.1).map fun p => (c.1, p)

/-- Whether a page's frame, or one of its copies or chunks, holds a line (R213, R214, R222). -/
def Pg.covers (s : State) (ctx : Nat) (p : Pg) (line : Nat) : Bool :=
  let k := line * 128
  let size := 2 ^ p.sz
  if p.tier ≠ 0 then
    decide (keyTier k ≠ 0 ∧ physKey p.tier p.frame ≤ k ∧ k < physKey p.tier p.frame + size)
  else if keyTier k ≠ 0 then false
  else
    let die := k / 2 ^ 36
    let off := k % 2 ^ 36
    let base := p.frame % 2 ^ 36
    let rs := ctxRanks s ctx
    if p.ilv then
      decide (base ≤ off) && rs.contains die && decide (((off - base) / 4096 * rs.length + rs.idxOf die) * 4096 < size)
    else if p.repl ∧ (p.st = 4 ∨ p.st = 5 ∨ p.st = 7) then rs.contains die && decide (base ≤ off ∧ off < base + size)
    else decide (p.frame ≤ k ∧ k < p.frame + size)

/-- Whether a live range entry leads addresses to the byte of a key (R215). -/
def RangeEntry.covers (r : RangeEntry) (k : Nat) : Bool :=
  let a := (k + 2 ^ 46 - r.offset.toNat % 2 ^ 46) % 2 ^ 46
  decide (keyTier k = bits r.attr.toNat 51 50) && (List.range 1024).any fun j =>
    decide (r.base.toNat ≤ a + j * 2 ^ 46 ∧ a + j * 2 ^ 46 < r.limit.toNat)

/-- Whether a byte of memory belongs to a page or a range of a partition's contexts under a key slot (R212, R215). -/
def underSlot (s : State) (part kslot k : Nat) : Bool :=
  let mine (ctx : Nat) : Bool := (ctxAt s ctx).any fun c => c.part = part
  ((allPages s).any fun x => mine x.1 && decide (bits x.2.leaf 49 46 = kslot) && x.2.covers s x.1 (k / 128)) ||
  s.contexts.any fun c => decide (c.2.part = part) && (liveRanges s c.1).any fun r =>
    rangeLive s c.1 r && decide (bits r.attr.toNat 49 46 = kslot) && r.covers k

/-- Whether a page's frame, or one of its copies or chunks, lies in a die's stack. -/
def Pg.onDie (s : State) (ctx : Nat) (p : Pg) (die : Nat) : Bool :=
  p.tier = 0 && (if p.ilv ∨ (p.repl ∧ (p.st = 4 ∨ p.st = 5 ∨ p.st = 7)) then (ctxRanks s ctx).contains die
    else p.frame / 2 ^ 36 = die)

/-- Whether a line of a page's frame is poisoned: one of those listed, or one of a failed memory that no write has mended
(18 R378). -/
def Pg.anyBad (s : State) (ctx : Nat) (p : Pg) : Bool :=
  s.poison.any (p.covers s ctx) ||
  (s.deadMem.any (fun e => p.onDie s ctx e.1) &&
    ((List.range (2 ^ p.sz / 128)).any fun j => badLine s (p.key s ctx (p.frame / 2 ^ 36) (p.va + 128 * j) / 128)))

/-- Lines whose poison a whole write has cleared (R225): a page with REPL = 0 of which no poisoned line remains goes
back to STATE 3. -/
def clearPoison (s : State) (lines : List Nat) : State :=
  if !lines.any (badLine s) then s
  else
    let s := { s with poison := s.poison.filter fun l => !lines.contains l
                      mended := lines.filter (deadLine s) ++ s.mended.filter fun l => !lines.contains l }
    ((allPages s).filter fun x => x.2.st = 7 && !x.2.repl && lines.any (x.2.covers s x.1) &&
        !x.2.anyBad s x.1).foldl (fun s x =>
      match x.2.leafAddr with
      | some la => dropTlb (writeLeaf s x.1 la (withState x.2.leaf 3)) x.1 x.2.va (2 ^ x.2.sz)
      | none => s) s

end Sys2Proof.Machine
end

