-- ==== Sys2Proof/Machine/Cache.lean ====
section
/-! DEFINITION. Homes, L1 caches, region buffers, release and acquire (09_memory_order R186 to R205; 11 R239, R240). -/

namespace Sys2Proof.Machine

/-- The fold of an operand into an old value (11 R243, R245): `w` bytes wide; `c` is the third operand of CAS. -/
def foldOp (op : AtomOp) (w m b c : Nat) : Nat :=
  let n := 8 * w
  match op with
  | .add => (m + b) % 2 ^ n
  | .fadd => faddRne m b
  | .smin => if toSigned n b < toSigned n m then b else m
  | .smax => if toSigned n m < toSigned n b then b else m
  | .umin => min m b
  | .umax => max m b
  | .and => m &&& b
  | .or => m ||| b
  | .xor => m ^^^ b
  | .xchg => b
  | .cas => if m = b then c else m
  | .inc => if b ≤ m then 0 else (m + 1) % 2 ^ n

/-- The helps of timed-out SPINHs, some of which are over: no group has the priority any more that those lent it (17 R360). -/
def keepHelps (s : State) (helps : List (Nat × Nat)) : State :=
  if helps = s.helps then s
  else { s with
    helps := helps
    groups := s.groups.map fun e => (e.1, { e.2 with lentBy := e.2.lentBy.filter fun n => helps.any fun h => h.1 = n }) }

/-- Spinning fibres see a write applied to their line, and a timed-out SPINH on it helps no longer (17 R360). -/
def wakeSpin (s : State) (line : Nat) : State :=
  let s := keepHelps s (s.helps.filter fun h => h.2 ≠ line)
  { s with
    groups := s.groups.map fun e =>
      if e.2.fibres.any (fun x => match x.2.state with | .waiting (.spin l _ false) => l = line | _ => false) then
        (e.1, { e.2 with fibres := e.2.fibres.map fun x => match x.2.state with
          | .waiting (.spin l u h) => (x.1, { x.2 with state := .waiting (.spin l u (h || l = line)) })
          | _ => x })
      else e }

/-! ## Lines, operations on their way to homes (09 R199; 19 R398) -/

/-- The lines that `n` bytes from a key touch. -/
def linesOf (k n : Nat) : List Nat :=
  if n = 0 then [] else (List.range ((k + n - 1) / 128 - k / 128 + 1)).map (· + k / 128)

/-- The partials of a line, in the order in which their keys were handed out. -/
def partialsOf (s : State) (line : Nat) : List (Nat × Partial) := s.partials.filter fun e => e.2.addr / 128 = line

/-- The key of a captured byte of an operation: its lane, its place in the lane's data. -/
def gotKey (lane off : Nat) : Nat := lane * 512 + off

/-- The bytes of an operation that are still to come and lie in a line. -/
def Op.wants (o : Op) (line : Nat) : Bool :=
  o.pieces.any fun p => (List.range p.n).any fun j =>
    (p.addr + j) / 128 = line && (Table.look o.got (gotKey p.lane (p.off + j))).isNone

/-- Whether an operation may be served at a line's home now: nothing earlier of its fibre is outstanding there
(09 R199), no fill of it is on its way, and no summary unit holds the line (13 R290). -/
def fillable (s : State) (id : Nat) (o : Op) (line : Nat) : Bool :=
  o.wants line && (homeOf s line).hold.isNone &&
  !(s.fills.any fun e => e.2.op = id && e.2.line = line) &&
  !(s.ops.any fun e => e.1 < id && decide (e.2.gid = o.gid ∧ e.2.fib = o.fib) && e.2.wants line) &&
  !(s.writes.any fun e => e.1 < id && decide (e.2.gid = o.gid) && e.2.fibs.contains o.fib && e.2.wct.isNone &&
      decide (e.2.addr / 128 = line))

/-- The bytes a write covers. -/
def Write.size (w : Write) : Nat :=
  match w.kind with | .store bs => bs.length | .atomic _ _ _ n _ _ => n | .reduce _ _ n _ => n | .fold _ n _ => n

/-- Whether a write asks for its line update-only (R202). -/
def Write.asks (w : Write) : Bool := match w.kind with | .reduce .. => true | _ => false

/-- Whether an earlier load of a write's fibres still has to be served at the home with a byte of the write (R199). -/
def loadBefore (s : State) (id : Nat) (w : Write) : Bool :=
  s.ops.any fun e => e.1 < id && decide (e.2.gid = w.gid) && w.fibs.contains e.2.fib &&
    (linesOf w.addr w.size).any fun l => e.2.wants l && !(s.fills.any fun f => f.2.op = e.1 && f.2.line = l)

/-- Whether a write may be applied now: it has not been, no earlier write of its fibres to its bytes waits, no earlier load
of them either, and no summary unit holds its line (09 R199; 13 R290). -/
def applicable (s : State) (id : Nat) (w : Write) : Bool :=
  w.wct.isNone && (homeOf s (w.addr / 128)).hold.isNone && !loadBefore s id w &&
  !(s.writes.any fun e => e.1 < id && decide (e.2.gid = w.gid) && e.2.wct.isNone && e.2.fibs.any w.fibs.contains &&
      decide (e.2.addr < w.addr + w.size ∧ w.addr < e.2.addr + e.2.size))

/-- Whether a line has no update-only holder that it would have to be recalled from. -/
def homeClear (s : State) (line : Nat) : Bool := decide ((homeOf s line).holders = [] ∧ partialsOf s line = [])

/-- The lines of an operation's pieces. -/
def Op.lines (o : Op) : List Nat := dedup (o.pieces.flatMap fun p => linesOf p.addr p.n)

/-- Whether a request that entered the mesh under an older key, between the same two dies, has not been taken though
nothing at its home keeps it back: requests arrive in the order in which they were sent (19 R398). -/
def requestBehind (s : State) (id src dest : Nat) : Bool :=
  (s.writes.any fun e => decide (e.1 < id) && e.2.wct.isNone && coreDie e.2.core = src && homeDie s e.2.ctx e.2.addr = dest &&
    (e.2.asks || homeClear s (e.2.addr / 128)) && applicable s e.1 e.2) ||
  s.ops.any fun e => decide (e.1 < id) && coreDie e.2.core = src && e.2.lines.any fun l =>
    homeDie s e.2.ctx (l * 128) = dest && homeClear s l && fillable s e.1 e.2 l

/-- What one step needs to reach a line's home from a die, for a context (19 R390, R398, R400): a way through the mesh, an active
CXL.cache for a line of tier 2, and no request of the die to that home that entered before and has not been taken. -/
def needHome (s : State) (ctx die line : Nat) : State :=
  let dest := homeDie s ctx (line * 128)
  let s := needWay s die dest
  let s := if tierOpen s ctx (line * 128) then s else { s with held := true }
  if requestBehind s s.nextId die dest then { s with held := true } else s

/-! ## Recalls and engines -/

/-- A partial folded into its line at the home; a poisoned line discards it (10 R225). -/
def foldPartial (s : State) (p : Partial) : State :=
  if poisoned s p.addr then s
  else
    let old := ofBytes (Memory.readN s.mem p.addr p.width)
    let s := homeTouch s p.ctx (coreDie p.core) (p.addr / 128) true
    wakeSpin { s with mem := Memory.writeN s.mem p.addr (toBytes p.width (foldOp p.op p.width old p.val.toNat 0)) }
      (p.addr / 128)

/-- A recall (09 R203): every holder's partials are folded into the line, the holders in an order that is a free choice,
each holder's in the order it formed them, every permission ends, and a summary unit's hold is given up (13 R290). -/
def recallLine (s : State) (line : Nat) : State :=
  let h := homeOf s line
  if h.holders = [] ∧ partialsOf s line = [] ∧ h.hold = none then s
  else
    let home := lineDie s line
    let s := h.holders.foldl (fun s c => needWay (needWay s home (coreDie c.1)) (coreDie c.1) home) s
    let cores := dedup ((partialsOf s line).map fun e => e.2.core)
    let (n, s) := choose s cores.length
    let order := cores.drop n ++ cores.take n
    let s := order.foldl (fun s ck =>
      ((partialsOf s line).filter fun e => e.2.core = ck).foldl
        (fun s e => { foldPartial s e.2 with partials := Table.del s.partials e.1 }) s) s
    updHome s line fun h => { h with holders := [], recalling := false, hold := none }

/-- Bytes written into memory at a home, a whole line's write clearing its poison (10 R225). -/
def homeBytes (s : State) (k : Nat) (bs : List Byte) : State :=
  let whole := (linesOf k bs.length).filter fun l => k ≤ l * 128 ∧ l * 128 + 128 ≤ k + bs.length
  clearPoison { s with mem := Memory.writeN s.mem k bs } whole

/-- An engine's read at the home slices, for a context and a die (09 R203, R209). -/
def engineRead (s : State) (ctx die k n : Nat) : List Byte × State :=
  let s := (linesOf k n).foldl (fun s l => homeTouch (recallLine (needHome s ctx die l) l) ctx die l false) s
  (Memory.readN s.mem k n, s)

/-- An engine's write at the home slices for a context and a die, with its latest WCT (09 R194), which an INVALIDATE of the
context waits for (10 R217). Spinning fibres see it. -/
def engineWrite (s : State) (ctx die k : Nat) (bs : List Byte) : Nat × State :=
  let s := (linesOf k bs.length).foldl (fun s l => homeTouch (recallLine (needHome s ctx die l) l) ctx die l true) s
  let t := gtOf s (homeDie s ctx k)
  let w := maxOf ((linesOf k bs.length).map fun l => wctAt s l t)
  let s := updCtx s ctx fun c => { c with wct := max c.wct w }
  (w, (linesOf k bs.length).foldl wakeSpin (homeBytes s k bs))

/-! ## L1 caches -/

/-- The key of a byte in a core's L1. -/
def l1Key (ck k : Nat) : Nat := ck * 2 ^ 48 + k

/-- A byte of a core's L1. -/
def l1At (s : State) (ck k : Nat) : Option L1Byte := Table.look s.l1 (l1Key ck k)

/-- The L1 entries of a core that satisfy a test on key and byte dropped. -/
def l1Drop (s : State) (ck : Nat) (p : Nat → L1Byte → Bool) : State :=
  { s with l1 := Table.sel s.l1 fun key b => !(key / 2 ^ 48 = ck && p (key % 2 ^ 48) b) }

/-- Fills of a core in flight that satisfy a test, not to be installed. -/
def unkeepFills (s : State) (ck : Nat) (p : Fill → Bool) : State :=
  { s with fills := s.fills.map fun e => if e.2.core = ck ∧ p e.2 then (e.1, { e.2 with keep := false }) else e }

/-- `n` bytes of a core's L1 dropped, and fills of them in flight not installed (09 R194, R210). -/
def l1Forget (s : State) (ck k n : Nat) : State :=
  unkeepFills (l1Drop s ck (fun a _ => decide (k ≤ a ∧ a < k + n))) ck
    fun f => decide (f.line * 128 < k + n ∧ k < f.line * 128 + 128)

/-- A byte that a load may take from the core's L1 (09 R191, R193): a scope 0 or 1 byte, or a leased byte whose expiry
the die's GT is below. -/
def l1Serves (s : State) (ck k : Nat) : Option L1Byte :=
  match l1At s ck k with
  | none => none
  | some b => if b.scope ≤ 1 ∨ gtOf s (coreDie ck) < b.expiry then some b else none

/-- An access by a group to a scope 0 line that another group owns ends its ownership (09 R191). -/
def l1Touch (s : State) (ck gid k : Nat) : State :=
  { s with l1 := s.l1.map fun e =>
      if e.1 / 2 ^ 48 = ck ∧ e.1 % 2 ^ 48 / 128 = k / 128 ∧ e.2.owner.isSome ∧ e.2.owner ≠ some gid then
        (e.1, { e.2 with owner := none, scope := 1 }) else e }

/-- An acquire's discard (09 R197): every leased byte of scopes 2 to `sc` in the core's L1, and fills of those scopes in
flight are not installed. -/
def acquireL1 (s : State) (ck sc : Nat) : State :=
  unkeepFills (l1Drop s ck (fun _ b => decide (2 ≤ b.scope ∧ b.scope ≤ sc))) ck
    fun f => decide (2 ≤ f.scope ∧ f.scope ≤ sc)

/-- Dirty bytes of a core's L1 that satisfy a test written to their homes, line by line; they stay, clean (09 R191, 11
R249). The latest WCT of the writes. -/
def l1WriteBack (s : State) (ck : Nat) (p : Nat → L1Byte → Bool) : Nat × State :=
  let dirty := s.l1.filter fun e => decide (e.1 / 2 ^ 48 = ck) && e.2.dirty && p (e.1 % 2 ^ 48) e.2
  (dedup (dirty.map fun e => e.1 % 2 ^ 48 / 128)).foldl (fun (acc : Nat × State) line =>
    let mine := dirty.filter fun e => e.1 % 2 ^ 48 / 128 = line
    let ctx := (mine.map fun e => e.2.ctx).headD 0
    let s := homeTouch (recallLine (needHome acc.2 ctx (coreDie ck) line) line) ctx (coreDie ck) line true
    let w := wctAt s line (gtOf s (homeDie s ctx (line * 128)))
    (max acc.1 w, wakeSpin (mine.foldl (fun s e =>
      { s with mem := Memory.write s.mem (e.1 % 2 ^ 48) e.2.val
               l1 := Table.ins s.l1 e.1 { e.2 with dirty := false } }) s) line)) (0, s)

/-- A line leaves a core's L1 (09 R191, R203): its dirty bytes go home, its partials are sent, and no fill of it that the home
served before is installed; what such a fill of scope 0 or 1 brings an access, its L1 bytes stand in it (R191, R199). -/
def evictLine (s : State) (ck line : Nat) : State :=
  let (_, s) := l1WriteBack s ck fun k _ => k / 128 = line
  let s := { s with fills := s.fills.map fun e =>
    if e.2.core = ck ∧ e.2.line = line ∧ e.2.scope ≤ 1 then
      (e.1, { e.2 with bytes := e.2.bytes.mapIdx fun j x => ((l1At s ck (line * 128 + e.2.off + j)).map (·.val)).getD x })
    else e }
  let s := unkeepFills (l1Drop s ck fun a _ => a / 128 = line) ck fun f => f.line = line
  { s with partials := s.partials.map fun e =>
      if e.2.core = ck ∧ e.2.addr / 128 = line then (e.1, { e.2 with sent := true }) else e }

/-- The lines that a core's L1 holds, update-only ones among them. -/
def l1Lines (s : State) (ck : Nat) : List Nat :=
  dedup (((s.l1.filter fun e => e.1 / 2 ^ 48 = ck).map fun e => e.1 % 2 ^ 48 / 128) ++
    ((s.partials.filter fun e => e.2.core = ck && !e.2.sent).map fun e => e.2.addr / 128))

/-- Room for a line in a core's L1 of 256 KiB (09 R186): where its 2,048 lines are taken, one of them, a free choice, is
evicted. -/
def l1Room (s : State) (ck line : Nat) : State :=
  let held := l1Lines s ck
  if held.length < 2048 ∨ held.contains line then s
  else
    let (j, s) := choose s held.length
    evictLine s ck (held.getD j 0)

/-- Room for a line that a fill brings: a line is evicted for it, a free choice, only where that sends nothing, for a response
never causes a request (19 R395); `none` where there is none such. -/
def l1Clear (s : State) (ck line : Nat) : Option State :=
  let held := l1Lines s ck
  if held.length < 2048 ∨ held.contains line then some s
  else
    let clean := held.filter fun l =>
      !(s.l1.any fun e => e.2.dirty && decide (e.1 / 2 ^ 48 = ck ∧ e.1 % 2 ^ 48 / 128 = l)) &&
      !(s.partials.any fun e => e.2.core = ck && !e.2.sent && e.2.addr / 128 = l)
    if clean = [] then none
    else
      let (j, s) := choose s clean.length
      some (evictLine s ck (clean.getD j 0))

/-- Bytes written into a core's L1 as their point of coherence, line by line (09 R191). A line first brought in by a scope 0
access is owned by the group. -/
def l1Store (s : State) (ck gid ctx scope k : Nat) (bs : List Byte) : State :=
  (linesOf k bs.length).foldl (fun s line =>
    let s := l1Touch (l1Room s ck line) ck gid (line * 128)
    let (sc, ow) := match s.l1.find? fun e => e.1 / 2 ^ 48 = ck ∧ e.1 % 2 ^ 48 / 128 = line with
      | some e => (min e.2.scope 1, e.2.owner)
      | none => (scope, if scope = 0 then some gid else none)
    { s with l1 := (bs.foldl (fun (acc : Table L1Byte × Nat) x =>
        (if acc.2 / 128 = line then Table.ins acc.1 (l1Key ck acc.2)
          { val := x, scope := sc, expiry := 0, dirty := true, owner := ow, ctx := ctx, served := 0 } else acc.1,
         acc.2 + 1)) (s.l1, k)).1 }) s

/-- Bytes as an access served in a core's L1 at scope 0 or 1 reads them: the L1's copies, the home's where it has none, which
first recalls the line (09 R203). -/
def l1Load (s : State) (ck ctx k n : Nat) : List Byte × State :=
  let keys := (List.range n).map (k + ·)
  let s := (linesOf k n).foldl (fun s line =>
    if keys.all fun a => decide (a / 128 ≠ line) || (l1Serves s ck a).isSome then s
    else homeTouch (recallLine (needHome s ctx (coreDie ck) line) line) ctx (coreDie ck) line false) s
  (keys.map fun a => ((l1Serves s ck a).map (·.val)).getD (Memory.read s.mem a), s)

/-- The bytes of code at a key as a core fetches them (10 R231): those of its own L1, those that another L1 of the partition holds
dirty, else the home's. That a fetch reaches the dirty bytes of another core is the model's choice: R231 makes written code visible
without a scope, R191 not (log entry 12). -/
def codeBytes (s : State) (ck ctx k n : Nat) : List Byte × State :=
  let (bs, s) := l1Load s ck ctx k n
  (bs.mapIdx fun j x =>
    if (l1Serves s ck (k + j)).isSome then x
    else ((s.l1.find? fun e => e.1 % 2 ^ 48 = k + j && e.2.dirty && e.2.ctx = ctx).map (·.2.val)).getD x, s)

/-! ## Loads in flight -/

/-- Whether every byte of an operation's pieces has been captured. -/
def Op.complete (o : Op) : Bool :=
  o.pieces.all fun p => (List.range p.n).all fun j => (Table.look o.got (gotKey p.lane (p.off + j))).isSome

/-- An operation with the bytes that a source gives captured; those already captured stay. -/
def Op.capture (o : Op) (src : Nat → Option Byte) : Op :=
  { o with got := o.pieces.foldl (fun t p => (List.range p.n).foldl (fun t j =>
      let key := gotKey p.lane (p.off + j)
      if (Table.look t key).isSome then t
      else match src (p.addr + j) with | some b => Table.ins t key b | none => t) t) o.got }

/-- The lines that an operation still waits for. -/
def Op.missing (o : Op) : List Nat :=
  dedup (o.pieces.flatMap fun p => (List.range p.n).filterMap fun j =>
    if (Table.look o.got (gotKey p.lane (p.off + j))).isNone then some ((p.addr + j) / 128) else none)

/-- The pending loads of the same fibres take the bytes of a core's L1 before the fibres' later write to them, each aligned
doubleword that it touches as one (09 R199). -/
def captureBefore (s : State) (gid : Nat) (fibs : List Nat) (ck ctx k n : Nat) : State :=
  let lo := k / 8 * 8
  let m := (k + n + 7) / 8 * 8 - lo
  if s.ops.any fun e => decide (e.2.gid = gid) && fibs.contains e.2.fib && (linesOf lo m).any e.2.wants then
    let (bs, s) := l1Load s ck ctx lo m
    { s with ops := s.ops.map fun e =>
        if e.2.gid = gid ∧ fibs.contains e.2.fib then
          (e.1, e.2.capture fun a => if lo ≤ a then bs[a - lo]? else none)
        else e }
  else s

/-- Whether a fibre has a write in flight that touches a byte's line, or an earlier operation that still waits for it. -/
def inFlightAt (s : State) (gid fid a : Nat) : Bool :=
  (s.writes.any fun e => e.2.gid = gid && e.2.fibs.contains fid && e.2.wct.isNone && decide (e.2.addr / 128 = a / 128)) ||
  (s.ops.any fun e => e.2.gid = gid && decide (e.2.fib = fid) && e.2.wants (a / 128))

/-! ## Region buffers and writes -/

/-- The runs of bytes that one instruction stores within one line, lanes applied in ascending order (11 R236). -/
def storeRuns (ws : List BufWrite) : List (Nat × List Byte) :=
  let cells : Table Byte := ws.foldl (fun t w => match w with
    | .store va bs => (bs.foldl (fun (acc : Table Byte × Nat) b => (Table.ins acc.1 acc.2 b, acc.2 + 1)) (t, va)).1
    | .reduce .. => t) []
  (cells.foldl (fun (acc : List (Nat × List Byte)) c => match acc with
    | (a, bs) :: rest =>
      if c.1 = a + bs.length ∧ c.1 / 128 = a / 128 then (a, bs ++ [c.2]) :: rest else (c.1, [c.2]) :: acc
    | [] => [(c.1, [c.2])]) []).reverse

/-- Where a write of a fibre goes: its page's scope, and whether the L1 is its point of coherence (09 R190). -/
def inL1 (p : Pg) : Bool := decide (p.scope ≤ 1) && p.cache

/-- The fibre's completion-time state raised for a scope (09 R197). -/
def noteWct (s : State) (gid : Nat) (fibs : List Nat) (scope w : Nat) : State :=
  updGroup s gid fun g =>
    { g with
      wctMax := max g.wctMax w
      fibres := g.fibres.map fun e =>
        if fibs.contains e.1 then (e.1, { e.2 with wct := Table.ins e.2.wct scope (max w (Table.rd e.2.wct 0 scope)) })
        else e }

/-- Whether a partial is of a location and a kind: operation, TYPE and width (09 R202). -/
def Partial.fits (p : Partial) (k : Nat) (op : AtomOp) (ty w : Nat) : Bool :=
  decide (p.addr = k ∧ p.op = op ∧ p.ty = ty ∧ p.width = w)

/-- A reduction folded into a core's partial of a location (09 R202); a partial of another kind that shares a byte with it
is sent home first. -/
def foldInL1 (s : State) (ck ctx k : Nat) (op : AtomOp) (ty w : Nat) (b : DWord) : State :=
  let s : State := { s with partials := s.partials.map fun e =>
    if e.2.core = ck ∧ !e.2.fits k op ty w ∧ e.2.addr < k + w ∧ k < e.2.addr + e.2.width then
      (e.1, { e.2 with sent := true }) else e }
  match s.partials.find? fun e => e.2.core = ck && !e.2.sent && e.2.fits k op ty w with
  | some (id, p) =>
    { s with partials := Table.ins s.partials id
               { p with val := BitVec.ofNat 64 (foldOp op w p.val.toNat b.toNat 0) } }
  | none =>
    let (n, s) := freshId (l1Room s ck (k / 128))
    { s with partials := Table.ins s.partials n
               { core := ck, addr := k, op := op, ty := ty, width := w, val := b, sent := false, ctx := ctx } }

/-- The WCT of the grant under which a core holds a line update-only (09 R202). -/
def grantOf (s : State) (ck line : Nat) : Option Nat := ((homeOf s line).holders.find? fun h => h.1 = ck).map (·.2)

/-- A write on its way, under a fresh key. -/
def addWrite (s : State) (w : Write) : State :=
  let (n, s) := freshId s
  { s with writes := Table.ins s.writes n w }

/-- A write of a group's fibres to a byte of a page, not yet applied. -/
def writeOf (s : State) (gid : Nat) (fibs : List Nat) (ck ctx : Nat) (p : Pg) (k : Nat) (kind : WriteKind) : Write :=
  { kernel := ((groupAt s gid).map (·.kernel)).getD 0, ident := ((groupAt s gid).map groupIdent).getD 0
    gid := gid, fibs := fibs, core := ck, ctx := ctx, scope := p.scope, addr := k, kind := kind, wct := none }

/-- One store run of a fibre sent to its point of coherence (09 R191, R194, 11 R239). -/
def sendStore (s : State) (gid : Nat) (fibs : List Nat) (ck ctx : Nat) (va : Nat) (bs : List Byte) : State :=
  let (p, s) := translate s ck ctx va
  let k := p.key s ctx (coreDie ck) va
  if inL1 p then
    let s := l1Store (captureBefore s gid fibs ck ctx k bs.length) ck gid ctx p.scope k bs
    let s := if bs.length = 128 then clearPoison s [k / 128] else s
    noteWct s gid fibs p.scope (gtOf s (coreDie ck))
  else addWrite (l1Forget s ck k bs.length) (writeOf s gid fibs ck ctx p k (.store bs))

/-- One reduction of a fibre sent (09 R190, R202): applied in the L1 at scope 0 or 1, folded at the home where the page is
not cacheable; otherwise folded in the L1 that holds the line update-only, and where it does not, or where an access of
the fibre to the line is still on its way (09 R199), the home is asked. -/
def sendReduce (s : State) (gid : Nat) (fibs : List Nat) (ck ctx : Nat) (va : Nat) (op : AtomOp) (ty w : Nat) (b : DWord) :
    State :=
  let (p, s) := translate s ck ctx va
  let k := p.key s ctx (coreDie ck) va
  if inL1 p then
    let (old, s) := l1Load (captureBefore s gid fibs ck ctx k w) ck ctx k w
    let s := l1Store s ck gid ctx p.scope k (toBytes w (foldOp op w (ofBytes old) b.toNat 0))
    noteWct s gid fibs p.scope (gtOf s (coreDie ck))
  else if !p.cache then addWrite (l1Forget s ck k w) (writeOf s gid fibs ck ctx p k (.fold op w b))
  else
    match grantOf s ck (k / 128), fibs.any fun f => inFlightAt s gid f k with
    | some g, false => noteWct (foldInL1 s ck ctx k op ty w b) gid fibs p.scope (max g (gtOf s (coreDie ck)))
    | _, _ => addWrite s (writeOf s gid fibs ck ctx p k (.reduce op ty w b))

/-- One instruction's writes sent (11 R239, R245): store runs, and reductions in lane order. -/
def sendEntry (s : State) (gid : Nat) (fibs : List Nat) (ck ctx : Nat) (ws : List BufWrite) : State :=
  let s := (storeRuns ws).foldl (fun s r => sendStore s gid fibs ck ctx r.1 r.2) s
  ws.foldl (fun s w => match w with
    | .reduce va op ty n b => sendReduce s gid fibs ck ctx va op ty n b
    | .store .. => s) s

/-- The ranges that Porter commands of a core and context hold registered (09 R206), with their blocks. -/
def rangesOf (s : State) (ck ctx : Nat) : List (Nat × Range) :=
  s.porter.flatMap fun e => if e.2.core = ck ∧ e.2.ctx = ctx then e.2.ranges.map fun r => (e.2.block, r) else []

/-- The lowest byte of an access that conflicts with a registered entry (09 R207). -/
def conflictAt (s : State) (ck ctx block : Nat) (scratch write : Bool) (a n : Nat) : Option Nat :=
  minOf ((rangesOf s ck ctx).filterMap fun e =>
    if 0 < n ∧ e.2.scratch = scratch ∧ (!scratch ∨ e.1 = block) ∧ (e.2.write ∨ write) ∧ a < e.2.hi ∧ e.2.lo < a + n then
      some (max a e.2.lo) else none)

/-- The lowest buffered write of a fibre that conflicts with a registered entry (11 R240). -/
def bufferConflict (s : State) (ck ctx block : Nat) (f : Fibre) : Option Nat :=
  minOf (f.buffer.flatMap fun e => e.writes.filterMap fun w => match w with
    | .store va bs => conflictAt s ck ctx block false true va bs.length
    | .reduce va _ _ n _ => conflictAt s ck ctx block false true va n)

/-- A commit whose writes conflict with nothing (11 R240): they are sent in issue order, the buffer is empty, and the
next word that the fibre issues begins a region. -/
def commitNow (s : State) (gid fid : Nat) : State :=
  match groupAt s gid with
  | none => s
  | some g =>
    match Table.look g.fibres fid, kernelAt s g.kernel with
    | some f, some k =>
      let s := f.buffer.foldl (fun s e => sendEntry s gid [fid] (coreKey g.die g.core) k.ctx e.writes) s
      updFibre s gid fid fun f => { f with buffer := [], fresh := true }
    | _, _ => s

/-- Whether release(sc) would still wait (09 R197): a write of the fibre to a scope up to `sc` not yet acknowledged, or
a write completion time that GT has not passed. -/
def releasePending (s : State) (gid fid sc : Nat) : Bool :=
  (s.writes.any fun e => e.2.gid = gid && e.2.fibs.contains fid && decide (e.2.scope ≤ sc)) ||
  (match groupAt s gid with
    | none => false
    | some g => match Table.look g.fibres fid with
      | none => false
      | some f => f.wct.any fun e => decide (e.1 ≤ sc) && decide (gtOf s g.die ≤ e.2))

end Sys2Proof.Machine
end

