-- ==== Sys2Proof/Machine/Events.lean ====
section
/-! DEFINITION. The command processor's accesses, event rings, page jobs and error logs (17 R362; 10 R218 to R227;
26 R441). -/

namespace Sys2Proof.Machine

/-- A range of addresses cut at 4 KiB boundaries. -/
def chunks4k : Nat → Nat → Nat → List (Nat × Nat)
  | 0, _, _ => []
  | fuel + 1, a, n =>
    if n = 0 then [] else
      let m := min n (4096 - a % 4096)
      (a, m) :: chunks4k fuel (a + m) (n - m)

/-- The pieces of a range of addresses, each within one page and one chunk of a spread page (10 R214). -/
def pagePieces (a n : Nat) : List (Nat × Nat) := chunks4k (n / 4096 + 2) a n

/-- Why an engine's or the command processor's access to a page cannot proceed now (10 R220, R221, R225). -/
inductive Block1 where
  /-- It can. -/
  | go
  /-- STATE 0: a page request is posted and the access waits. -/
  | unmapped
  /-- STATE 1, 2, 5, or a write to STATE 6: the access waits. -/
  | wait
  /-- A write to STATE 4 with COW = 1: the collapse begins and the access waits. -/
  | collapse
  /-- A write with WR = 0, to STATE 4 with COW = 0, or to STATE 7 with REPL = 1. -/
  | denied
  /-- A poisoned line is read, or written in part. -/
  | poison
  deriving DecidableEq, Repr

/-- How an engine's access of `n` bytes within one page meets it; `key` is the first byte's key. -/
def meetPage (s : State) (p : Pg) (key n : Nat) (write : Bool) : Block1 :=
  let hit := (linesOf key n).any fun l =>
    badLine s l && (!write || !(key ≤ l * 128 && l * 128 + 128 ≤ key + n))
  match p.st with
  | 0 => .unmapped
  | 3 => if write ∧ !p.wr then .denied else if hit then .poison else .go
  | 4 => if write then (if p.cow then .collapse else .denied) else if hit then .poison else .go
  | 6 => if write then .wait else if hit then .poison else .go
  | 7 => if write ∧ (p.repl ∨ !p.wr) then .denied else if hit then .poison else .go
  | _ => .wait

/-- The first piece of a range that stops the command processor of a die: its page, its address and why. Retraining
boundaries hold it as a page that it waits for does (19 R390). -/
def cpHalt (s : State) (ctx die a n : Nat) (write : Bool) : Option (Pg × Nat × Block1) :=
  (pagePieces a n).findSome? fun pc =>
    let p := translateCp s ctx pc.1
    let k := p.key s ctx die pc.1
    match meetPage s p k pc.2 write with
    | .go => if trafficHeld s die (homeDie s ctx k) then some (p, pc.1, .wait) else none
    | b => some (p, pc.1, b)

/-- Bytes read by the command processor of a die through a context's pages; `none` where a page or line stops it. -/
def cpRead (s : State) (ctx die a n : Nat) : Option (List Byte) × State :=
  if (cpHalt s ctx die a n false).isSome then (none, s)
  else
    let (bs, s) := (pagePieces a n).foldl (fun (acc : List Byte × State) pc =>
      let p := translateCp acc.2 ctx pc.1
      let (xs, t) := engineRead (touchWalk acc.2 ctx die pc.1) ctx die (p.key acc.2 ctx die pc.1) pc.2
      (acc.1 ++ xs, t)) ([], s)
    (some bs, s)

/-- Bytes written by the command processor of a die through a context's pages, with the latest WCT, which the context keeps for
the release(4) of later writes (17 R350, R362); `none` where a page or line stops it, and then nothing is written. -/
def cpWrite (s : State) (ctx die a : Nat) (bs : List Byte) : Option (Nat × State) :=
  if (cpHalt s ctx die a bs.length true).isSome then none
  else
    let (w, s) := (pagePieces a bs.length).foldl (fun (acc : Nat × State) pc =>
      let p := translateCp acc.2 ctx pc.1
      let (w, t) := engineWrite (touchWalk acc.2 ctx die pc.1) ctx die (p.key acc.2 ctx die pc.1) ((bs.drop (pc.1 - a)).take pc.2)
      (max acc.1 w, t)) (0, s)
    some (w, updCtx s ctx fun c => { c with cpWct := max c.cpWct w })

/-! ## Page jobs begun by an access (10 R221, R222, R226) -/

/-- A job of the command processor, under a fresh key. -/
def addJob (s : State) (j : Job) : State :=
  let (n, s) := freshId s
  { s with jobs := Table.ins s.jobs n j }

/-- Whether `n` bytes from a key lie in a context's save copies, which are pinned (18 R374). -/
def pinned (s : State) (key n : Nat) : Bool :=
  s.contexts.any fun c => [0x010, 0x018].any fun o =>
    decide (rec64 c.2.desc o < key + n ∧ key < rec64 c.2.desc o + rec64 c.2.desc 0x020)

/-- Staging begun for a page in STATE 1 (R226): its leaf is set to STATE 2. -/
def startStaging (s : State) (ctx : Nat) (p : Pg) : State :=
  match p.leafAddr, p.st with
  | some la, 1 =>
    let s := writeLeaf s ctx la (withState p.leaf 2)
    addJob s { kind := .stage, ctx := ctx, va := p.va, size := 2 ^ p.sz, leafAddr := la, pool := 0, frame := 0,
               wct := 0, die := p.master s ctx, bad := 0 }
  | _, _ => s

/-- The lines of a page's frame, given its first key and size: the latest lease expiry that their homes recorded. -/
def latestExpiry (s : State) (key size : Nat) : Nat :=
  maxOf ((s.homes.filter fun e => key ≤ e.1 * 128 ∧ e.1 * 128 < key + size).map fun e => e.2.eMax)

/-- Collapse begun for a replicated page whose frames are not pinned (R222): STATE 5, and the wait for every copy's
leases. -/
def startCollapse (s : State) (ctx : Nat) (p : Pg) : State :=
  match p.leafAddr, p.st with
  | some la, 4 =>
    let copies := (ctxRanks s ctx).map fun d => d * 2 ^ 36 + p.frame % 2 ^ 36
    if copies.any fun k => pinned s k (2 ^ p.sz) then s else
    let e := maxOf (copies.map fun k => latestExpiry s k (2 ^ p.sz))
    let s := writeLeaf s ctx la (withState p.leaf 5)
    let s := dropTlb s ctx p.va (2 ^ p.sz)
    addJob s { kind := .collapse, ctx := ctx, va := p.va, size := 2 ^ p.sz, leafAddr := la, pool := 0,
               frame := p.frame, wct := e + 4, die := p.master s ctx, bad := 0 }
  | _, _ => s

/-! ## Events and other writes of the command processor (17 R350, R362) -/

/-- Where a page holds up the command processor's access to a range for a while (10 R220): the state with staging or a
collapse begun as the page needs it. -/
def heldUp (s : State) (ctx a n : Nat) (write : Bool) : Option State :=
  match cpHalt s ctx (ctxDie s ctx) a n write with
  | some (p, _, .wait) => some (startStaging s ctx p)
  | some (p, _, .collapse) => some (startCollapse s ctx p)
  | _ => none

/-- A write that the command processor makes where it can; one that a page or line refuses is lost (log entry 8). -/
def tryWrite (s : State) (ctx a : Nat) (bs : List Byte) : State :=
  match cpWrite s ctx (ctxDie s ctx) a bs with
  | some (_, t) => t
  | none => s

/-- An event record that no longer fits its ring, counted (17 R362). -/
def dropEvent (s : State) (ctx : Nat) (c : Context) : State :=
  let lost := min (c.evOver + 1) (2 ^ 32 - 1)
  tryWrite (updCtx s ctx fun c => { c with evOver := lost }) ctx (rec64 c.desc 0x050 + 4) (toBytes 4 lost)

/-- An event record written to a context's ring, whose pages hold nothing up (17 R362): a full ring drops it, and so does
one that cannot be reached (log entry 8). What is left to write after it is the producer index, with release(4) before. -/
def writeEvent (s : State) (ctx die type : Nat) (payload : List Byte) (c : Context) : Option OutWrite × State :=
  let size := rec32 c.desc 0x048
  match cpRead s ctx (ctxDie s ctx) (rec64 c.desc 0x060) 4 with
  | (none, s) => (none, dropEvent s ctx c)
  | (some cb, s) =>
    if size ≤ (c.evProd + 2 ^ 32 - ofBytes cb) % 2 ^ 32 then (none, dropEvent s ctx c)
    else
      let record := toBytes 4 type ++ toBytes 4 die ++ toBytes 8 (gtOf s die) ++ payload ++
        toBytes (16 - payload.length) 0
      match cpWrite s ctx (ctxDie s ctx) (rec64 c.desc 0x040 + 32 * (c.evProd % max 1 size)) record with
      | none => (none, dropEvent s ctx c)
      | some (_, s) =>
        let prod := (c.evProd + 1) % 2 ^ 32
        (some (.released (rec64 c.desc 0x050) (toBytes 4 prod)), updCtx s ctx fun c => { c with evProd := prod })

/-- Where pages hold up an event record's accesses: its ring slot, its indices, the consumer's index. -/
def eventHeldUp (s : State) (ctx : Nat) (c : Context) : Option State :=
  let slot := rec64 c.desc 0x040 + 32 * (c.evProd % max 1 (rec32 c.desc 0x048))
  ((heldUp s ctx (rec64 c.desc 0x060) 4 false).or (heldUp s ctx slot 32 true)).or (heldUp s ctx (rec64 c.desc 0x050) 8 true)

/-- One write of a context's command processor: what is left of it, and the state after. release(4) waits until GT is past every
write completion time of the command processor's earlier writes for the context (09 R197; 17 R350, R362). -/
def outNow (s : State) (ctx die : Nat) (w : OutWrite) : Option OutWrite × State :=
  match ctxAt s ctx with
  | none => (none, s)
  | some c => match w with
    | .event type payload => match eventHeldUp s ctx c with
      | some t => (some w, t)
      | none => writeEvent s ctx die type payload c
    | .bytes va bs => match heldUp s ctx va bs.length true with
      | some t => (some w, t)
      | none => (none, tryWrite s ctx va bs)
    | .released va bs =>
      if gtOf s (ctxDie s ctx) ≤ c.cpWct then (some w, s)
      else match heldUp s ctx va bs.length true with
        | some t => (some w, t)
        | none => (none, tryWrite s ctx va bs)

/-- The same, where no way that it needs is closed; else it is still to make (19 R390). -/
def outOne (s : State) (ctx die : Nat) (w : OutWrite) : Option OutWrite × State :=
  let r := outNow { s with held := false } ctx die w
  if r.2.held then (some w, s) else (r.1, { r.2 with held := s.held })

/-- A write of a context's command processor, made now where nothing earlier waits and nothing holds it up; what is left of it
comes before whatever follows. -/
def sendOut (s : State) (ctx die : Nat) (w : OutWrite) : State :=
  if s.outbox.any fun e => e.1 = ctx then { s with outbox := s.outbox ++ [(ctx, die, w)] }
  else match outOne s ctx die w with
    | (none, s) => s
    | (some w, s) => { s with outbox := (ctx, die, w) :: s.outbox }

/-- The writes that command processors still have to make, made in each context's order as far as its pages let them. -/
def flushOut (s : State) : State :=
  let (kept, s) := s.outbox.foldl (fun (acc : List (Nat × Nat × OutWrite) × State) e =>
    if acc.1.any fun x => x.1 = e.1 then (acc.1 ++ [e], acc.2)
    else match outOne acc.2 e.1 e.2.1 e.2.2 with
      | (none, s) => (acc.1, s)
      | (some w, s) => (acc.1 ++ [(e.1, e.2.1, w)], s)) ([], { s with outbox := [] })
  { s with outbox := kept ++ s.outbox }

/-- A record posted to a context's event ring (17 R362). -/
def postEvent (s : State) (ctx die type : Nat) (payload : List Byte) : State := sendOut s ctx die (.event type payload)

/-- A page request (10 R218, 17 R362): the die that met the page, the lowest address, and the group or 0. -/
def pageRequest (s : State) (ctx die va ident : Nat) : State :=
  postEvent s ctx die 1 (toBytes 8 va ++ toBytes 4 ident)

/-- An entry of a die's error log (26 R441): a log that is full drops its oldest entry and counts it. -/
def logError (s : State) (die cls kind index addr : Nat) (group part : Word) : State :=
  updDie s die fun d =>
    let e : LogEntry := { gt := d.gt, cls := cls, kind := kind, index := index, addr := addr, group := group, part := part }
    if d.log.length < 256 then { d with log := d.log ++ [e] }
    else { d with log := d.log.drop 1 ++ [e], ovf := min (d.ovf + 1) (2 ^ 32 - 1) }

/-! ## Engines and pages (10 R220) -/

/-- What an engine does on meeting a page that it must wait for (R220): staging, a collapse or a page request. -/
def engineMeets (s : State) (ctx die : Nat) (p : Pg) (va : Nat) (b : Block1) : State :=
  match b with
  | .unmapped => pageRequest s ctx die va 0
  | .collapse => startCollapse s ctx p
  | .wait => startStaging s ctx p
  | _ => s

/-- What an engine's operation does on meeting a page that it waits for inside the operation (11 R261): one request
for a page in STATE 0, staging, or a collapse. The request carries identifier 0, as one
of an engine, unit or command processor does (17 R362). -/
def engineWaits (s : State) (id ctx die : Nat) (p : Pg) (va : Nat) (b : Block1) : State :=
  if b = .unmapped then
    if s.asked.contains (id, va / 65536) then s
    else { pageRequest s ctx die va 0 with asked := (id, va / 65536) :: s.asked }
  else engineMeets { s with asked := s.asked.filter (· ≠ (id, va / 65536)) } ctx die p va b

end Sys2Proof.Machine
end

