-- ==== Sys2Proof/Machine/Ops.lean ====
section
/-! DEFINITION. What every word's meaning is made of: moving past a word, waiting, committing, aborting, taking a trap
and returning from one (04 R90, R100; 07 R153, R159, R166; 10 R218; 18 R367 to R370, R386). -/

namespace Sys2Proof.Machine

/-! ## Passports, counters -/

/-- Whether the debug feature `bit` works for a context: its partition holds a valid passport that grants it (18 R385,
R386). -/
def debugOn (s : State) (ctx bit : Nat) : Bool :=
  match (ctxAt s ctx).bind fun c => partAt s c.part with
  | some p => p.passport.any fun q => q.feat.getLsbD bit
  | none => false

/-- A group's profiling counters of one event raised, saturating (18 R386). -/
def countEvent (s : State) (gid code n : Nat) : State :=
  match groupAt s gid with
  | none => s
  | some g => match kernelAt s g.kernel with
    | none => s
    | some k =>
      if debugOn s k.ctx 0 then
        updGroup s gid fun g => { g with
          pcnt := (List.range 4).foldl (fun t j =>
            if (Table.rd g.pcsel 0 j).toNat % 256 = code then
              Table.wr t 0 j (min (Table.rd t 0 j + n) (2 ^ 64 - 1)) else t) g.pcnt }
      else s

/-! ## Ready, waiting -/

/-- A fibre made ready, with its stamp (07 R163, R166). -/
def readyFibre (gt : Nat) (f : Fibre) : Fibre := { f with state := .ready, readySince := some gt, due := false }

/-- The issuing fibre made to wait (07 R153). Its word is issued again once the wait is met. -/
def waitOn (s : State) (gid fid : Nat) (w : Wait) : State :=
  updFibre s gid fid fun f => { f with state := .waiting w, readySince := none, due := false }

/-- The fibre's word held (07 R153 stalled). -/
def stallFibre (s : State) (gid fid : Nat) (h : Hold) : State := updFibre s gid fid fun f => { f with state := .stalled h }

/-- Whether a fibre is stalled. -/
def FState.isStalled (x : FState) : Bool := match x with | .stalled _ => true | _ => false

/-! ## Ends -/

/-- A fibre that has ended: nothing of it is left. -/
def Fibre.gone (f : Fibre) : Fibre :=
  { f with state := .ended, p0 := 0, chain := none, clause := none, buffer := [], readySince := none, due := false,
           traps := [], owed := [], yieldMark := none, handler := none, doomed := false }

/-- A fibre that ends: its lanes leave the group's live set (06 R140). -/
def endFibre (s : State) (gid fid : Nat) : State := updFibre s gid fid Fibre.gone

/-! ## Traps -/

/-- The address that a trap of the fibre's word reports: the first word of its chain (04 R35, R100). -/
def Fibre.epc (f : Fibre) : DWord := match f.chain with | some c => c.start | none => f.pc

/-- Whether a fibre's first pending trap would be delivered now: no other fibre of its group is at handler level, it is
the first of those that wait, and no buffered write conflicts with a registered range (18 R367). -/
def trapDeliverable (s : State) (gid fid : Nat) : Bool :=
  match groupAt s gid with
  | none => false
  | some g =>
    match Table.look g.fibres fid, kernelAt s g.kernel with
    | some f, some k =>
      match f.traps with
      | [] => false
      | t :: _ =>
        if t.cause = 0x0A ∧ (f.handler.isSome ∨ (k.sample 0 = 0 ∧ k.sample 1 = 0)) then true
        else
          (g.fibres.all fun e => e.1 = fid || e.2.handler.isNone) &&
          (g.fibres.all fun e => e.1 = fid || (match e.2.traps with
            | [] => true
            | u :: _ => decide (t.raised < u.raised ∨ (t.raised = u.raised ∧ Mask.first f.p0 < Mask.first e.2.p0)))) &&
          (bufferConflict s (coreKey g.die g.core) k.ctx g.block f).isNone
    | _, _ => false

/-- A context faulted by an unhandled trap (18 R369, R370): its state, and one event record of type 6. -/
def faultContext (s : State) (ctx die cause : Nat) (epc : DWord) (ident : Nat) : State :=
  match ctxAt s ctx with
  | none => s
  | some c =>
    if c.state = .running ∨ c.state = .ready ∨ c.state = .preempting then
      let s := answerMail (updCtx s ctx fun c => { c with state := .faulted }) (csaveKey ctx) 2
      postEvent s ctx die 6 (toBytes 4 cause ++ toBytes 8 epc.toNat ++ toBytes 4 ident)
    else s

/-- Delivery of a fibre's first pending trap (18 R367, R369), when it can be delivered: the region is committed, the
cause, address, detail and lanes go into the group's trap registers, the return-stack depth into H, and the fibre goes
to the handler. Otherwise the fibre waits. -/
def deliverTrap (s : State) (gid fid : Nat) : State :=
  if !trapDeliverable s gid fid then s
  else match groupAt s gid with
  | none => s
  | some g =>
    match Table.look g.fibres fid, kernelAt s g.kernel with
    | some f, some k =>
      match f.traps with
      | [] => s
      | t :: rest =>
        let tvec : DWord := k.sample 1 ++ k.sample 0
        let counts : Bool := t.cause = 0x0A && g.watchdogTrap
        let load (s : State) : State :=
          let s := updGroup s gid fun g =>
            { g with tcause := BitVec.ofNat 32 t.cause, tepc := t.epc, taddr := t.addr, tmask := t.mask
                     watchdogTrap := g.watchdogTrap && t.cause ≠ 0x0A }
          if counts then updKernel s g.kernel fun k => { k with wdEnded := k.wdEnded + 1 } else s
        if t.cause = 0x0A ∧ (f.handler.isSome ∨ tvec = 0) then endFibre (load s) gid fid
        else
          let s := load (commitNow s gid fid)
          if tvec = 0 ∨ f.handler.isSome then
            let s := updFibre s gid fid fun f => { f with traps := rest, state := .waiting .trap, trapClause := t.clause }
            faultContext s k.ctx g.die t.cause t.epc (groupIdent g)
          else
            updFibre s gid fid fun f => readyFibre (gtOf s g.die)
              { f with traps := rest, handler := some f.stack.length, pc := tvec, clause := none, chain := none,
                       branch := none, trapClause := t.clause, doomed := f.doomed || t.cause = 0x0A }
    | _, _ => s

/-- TAKING A TRAP (18 R367): the fibre raises it, waits, and is delivered at once where nothing holds delivery. -/
def takeTrap (s : State) (gid fid cause : Nat) (epc addr : DWord) (mask : Mask) (cl : Option Clause) : State :=
  let (n, s) := freshId s
  let s := updFibre s gid fid fun f =>
    { f with traps := f.traps ++ [{ cause := cause, epc := epc, addr := addr, mask := mask, raised := n, clause := cl }],
             state := .waiting .trap, chain := none, readySince := none, due := false }
  deliverTrap s gid fid

/-- A trap that the issuing fibre's word raises: its return address is the first word of the word's chain (04 R100). -/
def trapHere (s : State) (i : Iss) (cause : Nat) (addr : DWord) (mask : Mask) : State :=
  let s := if cause = 4 then countEvent s i.gid 5 1 else s
  takeTrap s i.gid i.fid cause i.f.epc addr mask i.f.clause

/-- The illegal-encoding trap with TADDR 0 (04 R100). -/
def illegal (s : State) (i : Iss) : State := trapHere s i 0x01 0 0

/-! ## Past a word -/

/-- The address just past a clause. -/
def Clause.limit (c : Clause) : DWord := c.start + BitVec.ofNat 64 (4 * (c.words.length + 1))

/-- A fibre moved to an address: within its clause it stays in it, at the clause's end it falls through (04 R82). -/
def moveOn (f : Fibre) (pc : DWord) : Fibre :=
  { f with pc := pc, chain := none, branch := none
           clause := match f.clause with
             | some c => if pc = c.limit then none else some c
             | none => none }

/-- STEP's trap after an instruction issued at program level (18 R386): TEPC is the next word's address. -/
def stepTrap (s : State) (i : Iss) : State :=
  if i.f.handler.isNone ∧ i.g.dbgctl.getLsbD 0 ∧ debugOn s i.k.ctx 2 then
    match fibreAt s i.gid i.fid with
    | some f => if f.state = .ready ∧ f.handler.isNone then
        takeTrap s i.gid i.fid 0x0B f.pc 0x100000000 0 f.clause else s
    | none => s
  else s

/-- Whether some repetitions of a fibre's chain stand complete and others are to come: nothing but a repetition trap takes
effect between them (04 R96; 07 R166). -/
def Fibre.midChain (f : Fibre) : Bool := f.chain.any fun c => decide (0 < c.done)

/-- A trap raised on a fibre amid its chain takes effect after the last repetition (04 R96). -/
def raisePending (s : State) (i : Iss) : State :=
  match fibreAt s i.gid i.fid with
  | none => s
  | some f =>
    if !i.f.midChain ∨ f.traps = [] then s
    else deliverTrap (updFibre s i.gid i.fid fun f =>
      { f with traps := f.traps.map fun t => { t with epc := f.pc, clause := f.clause }
               state := .waiting .trap, readySince := none, due := false }) i.gid i.fid

/-- The issuing fibre past its word. -/
def finish (s : State) (i : Iss) : State :=
  stepTrap (raisePending (updFibre s i.gid i.fid fun f => moveOn f (f.pc + 4)) i) i

/-- The issuing fibre moved to a branch target, a clause start (04 R82). -/
def goTo (s : State) (i : Iss) (target : DWord) : State :=
  stepTrap (updFibre s i.gid i.fid fun f =>
    { f with pc := target, chain := none, clause := none, branch := some i.f.pc }) i

/-! ## Commits and releases -/

/-- A commit point (11 R240): trap 0x04 when a buffered write conflicts with a registered range, else the buffered
writes are sent and `act` follows. -/
def committing (s : State) (i : Iss) (act : State → State) : State :=
  match bufferConflict s i.ck i.k.ctx i.g.block i.f with
  | some a => trapHere s i 0x04 (BitVec.ofNat 64 a) 0
  | none => act (commitNow s i.gid i.fid)

/-- release(sc), then `act` (09 R197): the commit, and the wait for acknowledgements and write completion times. -/
def releasing (s : State) (i : Iss) (sc : Nat) (act : State → State) : State :=
  committing s i fun s => if releasePending s i.gid i.fid sc then waitOn s i.gid i.fid (.release sc) else act s

/-- acquire(sc) for the issuing fibre's core (09 R197). -/
def acquire (s : State) (ck sc : Nat) : State := acquireL1 s ck sc

/-! ## Aborts -/

/-- An idempotent-region abort (10 R218, 02 R53, 07 R159): buffered stores discarded, the fibre's O registers zero, and
the fibre aborted at its region start. A page in STATE 0 posts a page request, one in STATE 1 begins staging, and a
write to STATE 4 with COW begins the collapse. -/
def abortRegion (s : State) (i : Iss) (pages : List (Pg × Nat × Bool)) : State :=
  let s := countEvent s i.gid 4 1
  let s := updGroup s i.gid fun g => (g.clearO i.f.p0)
  let s := updFibre s i.gid i.fid fun f =>
    { f with state := .aborted (pages.map fun p => (p.2.1, p.2.2, decide (p.1.st = 0))), buffer := [], last := [], chain := none,
             pc := f.regionStart, clause := f.regionClause, branch := none, fresh := false,
             readySince := none, due := false }
  pages.foldl (fun s p =>
    let pg := p.1
    match pg.st with
    | 0 => pageRequest s i.k.ctx i.g.die p.2.1 (groupIdent i.g)
    | 1 => startStaging s i.k.ctx (translateCp s i.k.ctx p.2.1)
    | 4 => startCollapse s i.k.ctx (translateCp s i.k.ctx p.2.1)
    | _ => s) s

/-! ## Completion flags -/

/-- A completion flag's count (02 R44). -/
def Group.flag (g : Group) (k : Nat) : Nat := Table.rd g.flags 0 k

/-- A flag raised by one. -/
def flagUp (s : State) (gid k : Nat) : State :=
  if k = 0 then s else updGroup s gid fun g => { g with flags := Table.wr g.flags 0 k (g.flag k + 1) }

/-- A flag lowered by one (02 R44). -/
def flagDown (s : State) (gid k : Nat) : State :=
  if k = 0 then s else updGroup s gid fun g => { g with flags := Table.wr g.flags 0 k (g.flag k - 1) }

/-- Whether every flag of a mask reads 0; bit i − 1 stands for Fi (04 R83). -/
def flagsClear (g : Group) (m : BitVec 12) : Bool :=
  (List.range 12).all fun j => !m.getLsbD j || g.flag (j + 1) = 0

/-- A status owed to a fibre: it is taken as a trap at the fibre's next wait on the flag (11 R263). -/
def owe (s : State) (gid fid flag cause : Nat) (addr : DWord) (mask : Mask) : State :=
  updFibre s gid fid fun f =>
    { f with owed := f.owed ++ [{ flag := flag, cause := cause, addr := addr, mask := mask }] }

/-- The first status on a flag of a mask that a group owes to whichever fibre waits next (12 R280), else that a fibre owes. -/
def takeOwed (g : Group) (f : Fibre) (m : BitVec 12) : Option Owed :=
  (g.owed ++ f.owed).find? fun o => m.getLsbD (o.flag - 1)

/-- A status that is owed no more. -/
def unowe (s : State) (gid fid : Nat) (o : Owed) : State :=
  updGroup s gid fun g =>
    if g.owed.contains o then { g with owed := g.owed.erase o }
    else { g with fibres := Table.upd g.fibres fid fun f => { f with owed := f.owed.erase o } }

/-- A place where owed statuses are taken (11 R263): the first one on a flag of the mask traps, TEPC at this word. -/
def owedTrap (s : State) (i : Iss) (m : BitVec 12) (cl : Option Clause) : Option State :=
  match takeOwed i.g i.f m with
  | none => none
  | some o =>
    let s := unowe s i.gid i.fid o
    some (takeTrap s i.gid i.fid o.cause i.f.epc o.addr o.mask cl)

/-- EXIT and FDONE (06 R140, 07 R156): the statuses owed and the commit, the lowest cause first (04 R101), then `act`. -/
def lastWord (s : State) (i : Iss) (act : State → State) : State :=
  let low : Bool := (takeOwed i.g i.f 0xFFF).any fun o => o.cause < 4
  match if low then none else bufferConflict s i.ck i.k.ctx i.g.block i.f with
  | some a => trapHere s i 0x04 (BitVec.ofNat 64 a) 0
  | none => match owedTrap s i 0xFFF i.f.clause with
    | some s => s
    | none => committing s i act

end Sys2Proof.Machine
end

