-- ==== Sys2Proof/Machine/Noise.lean ====
section
/-! DEFINITION. The noise source as a group draws from it: live, log and replay (03 R61; 06 R145 to R147). -/

namespace Sys2Proof.Machine

/-- A group's index among its kernel's groups (R147). -/
def noiseIndex (k : Kernel) (g : Group) : Nat := (g.s3 * (if k.tileMode then 1024 else k.bpc) + g.s2) * k.gpb + g.s1

/-- The mode that the kernel sampled: 0 live, 1 log, 2 replay (R146). -/
def noiseMode (k : Kernel) : Nat := (k.sample 0x018).toNat % 4

/-- The bytes of a group's segment (R143 RNGSEG). -/
def noiseSegment (k : Kernel) : Nat := (k.sample 0x01B).toNat

/-- The address of a group's halfword `n` (R147). -/
def noiseAddr (k : Kernel) (g : Group) (n : Nat) : Nat :=
  (k.sample 0x01A ++ k.sample 0x019).toNat + noiseIndex k g * noiseSegment k + 2 * n

/-- What a replay read of halfword `n` meets: a value, the end of the segment (`some none`), or a page that is not
resident (`none`). -/
def replayAt (s : State) (k : Kernel) (g : Group) (n : Nat) : Option (Option Nat) :=
  if noiseSegment k < 2 * n + 2 then some none
  else
    let a := noiseAddr k g n
    let p := translateCp s k.ctx a
    let key := p.key s k.ctx g.die a
    match meetPage s p key 2 false with
    | .go => some (some (ofBytes (Memory.readN s.mem key 2)))
    | .wait => none
    | _ => some none

/-- The halfwords that a replaying group reads for its next `n` draws, up to the end of its segment; `none` where a
page is not resident. -/
def replayRun (s : State) (k : Kernel) (g : Group) : Nat → Nat → Option (List Nat)
  | 0, _ => some []
  | n + 1, p =>
    match replayAt s k g p with
    | none => none
    | some none => some []
    | some (some x) => (replayRun s k g n (p + 1)).map (x :: ·)

/-- A replaying group's next `n` halfwords asked for at their homes (R147): lines are recalled (09 R203), and a page in
STATE 1 begins to be staged (10 R226). -/
def openReplay (s : State) (k : Kernel) (g : Group) (n : Nat) : State :=
  if noiseMode k ≠ 2 ∨ g.logStopped then s
  else
    (List.range (min n (noiseSegment k / 2 - g.segPos))).foldl (fun s j =>
      let a := noiseAddr k g (g.segPos + j)
      let p := translateCp s k.ctx a
      let key := p.key s k.ctx g.die a
      match meetPage s p key 2 false with
      | .go => (engineRead s k.ctx g.die key 2).2
      | .wait => startStaging s k.ctx p
      | _ => s) s

/-- Whether the noise source of a core delivers: its health tests pass (R147). -/
def sourceHealthy (s : State) (die core : Nat) : Bool :=
  match dieAt s die with
  | some d => !d.healthFail.any fun e => e.1 = core
  | none => false

/-- The next `n` values that a group's draws return (R147); `none` where they cannot be had. A replaying group whose segment
has ended draws from the source, and stalls with it (DESIGN CHOICE, log entry 56). -/
def drawAny (s : State) (k : Kernel) (g : Group) (n : Nat) : Option (List Nat) :=
  let source (m : Nat) : List Nat := (List.range m).map fun j => (Config.noise (s.draws + j)).toNat
  if n = 0 then some []
  else if noiseMode k = 2 ∧ !g.logStopped then
    match replayRun s k g n g.segPos with
    | none => none
    | some xs =>
      if xs.length = n then some xs
      else if sourceHealthy s g.die g.core then some (xs ++ source (n - xs.length)) else none
  else if sourceHealthy s g.die g.core then some (source n) else none

/-- Whether a summary instruction of the group that may draw has not taken its draws (13 R299). -/
def drawsOwed (g : Group) : Bool :=
  g.sumOps.any fun o => o.applied.isNone && (match o.kind with | .q => true | .merge _ => true | _ => false)

/-- The values that a drawing instruction's `n` draws return; `none` where it stalls: behind an earlier summary
instruction, or for want of values. -/
def drawValues (s : State) (k : Kernel) (g : Group) (n : Nat) : Option (List Nat) :=
  if n ≠ 0 ∧ drawsOwed g then none else drawAny s k g n

/-- EXH set in a context's RNGCTL (R146). -/
def setExh (s : State) (ctx : Nat) : State := updCtx s ctx fun c => { c with rngctl := c.rngctl ||| 0x40000000 }

/-- One halfword of a group's log stored, as the core's relaxed store; answers whether it was, and whether it failed. A closed
way holds it (19 R390). -/
def storeHalf (s : State) (gid : Nat) (k : Kernel) (g : Group) (a v : Nat) : State × Bool × Bool :=
  let p := translateCp s k.ctx a
  let key := p.key s k.ctx g.die a
  match meetPage s p key 2 true with
  | .go =>
    let (w, t) := engineWrite { s with held := false } k.ctx g.die key (toBytes 2 v)
    if t.held then (s, false, false)
    else (updGroup { t with held := s.held } gid fun g => { g with wctMax := max g.wctMax w }, true, false)
  | .wait => (engineMeets s k.ctx g.die p a .wait, false, false)
  | .collapse => (engineMeets s k.ctx g.die p a .collapse, false, false)
  | _ => (s, true, true)

/-- The log halfwords of a group stored in draw order as far as their pages allow (R147). A failed one sets EXH and
ends the logging. -/
def drainLog : Nat → State → Nat → State
  | 0, s, _ => s
  | fuel + 1, s, gid =>
    match groupAt s gid with
    | none => s
    | some g =>
      match g.logQueue, kernelAt s g.kernel with
      | (a, v) :: rest, some k =>
        let (s, done, failed) := storeHalf s gid k g a v
        if failed then
          setExh (updGroup s gid fun g => { g with logQueue := [], logStopped := true }) k.ctx
        else if done then drainLog fuel (updGroup s gid fun g => { g with logQueue := rest }) gid
        else s
      | _, _ => s

/-- `n` draws of a group made (R147): its position moves, the log takes the values, and EXH is set where a segment
filled or ran out. -/
def commitDraws (s : State) (gid : Nat) (n : Nat) : State :=
  if n = 0 then s
  else match groupAt s gid with
  | none => s
  | some g =>
    match kernelAt s g.kernel with
    | none => s
    | some k =>
      match noiseMode k with
      | 2 =>
        let got := if g.logStopped then 0 else ((replayRun s k g n g.segPos).getD []).length
        let s := { s with draws := s.draws + (n - got) }
        let s := updGroup s gid fun g => { g with segPos := g.segPos + got, logStopped := g.logStopped || got < n }
        if got < n ∧ !g.logStopped then setExh s k.ctx else s
      | 1 =>
        let vals := (drawAny s k g n).getD []
        let room := noiseSegment k / 2 - g.segPos
        let kept := if g.logStopped then [] else vals.take room
        let full : Bool := decide (room ≤ n)
        let add := (List.range kept.length).map fun j => (noiseAddr k g (g.segPos + j), kept.getD j 0)
        let s := { s with draws := s.draws + n }
        let s := updGroup s gid fun g =>
          { g with segPos := g.segPos + kept.length, logQueue := g.logQueue ++ add,
                   logStopped := g.logStopped || full }
        let s := if full ∧ !g.logStopped then setExh s k.ctx else s
        drainLog (g.logQueue.length + add.length) s gid
      | _ => { s with draws := s.draws + n }

end Sys2Proof.Machine
end

