-- ==== Sys2Proof/Machine/Operands.lean ====
section
/-! DEFINITION. The operand forms of lane instructions, their legality, and the one way in which every register
instruction runs: repetitions, queues, lanes, zeroing, last results (02 R35 to R45; 04 R86 to R96; 05 R108 to R113;
07 R171, R172). -/

namespace Sys2Proof.Machine

/-! ## Modifiers -/

/-- What a PFX and a PFXI word give the lane instruction (04 R91, R94). -/
structure Mods where
  c : LReg
  msel : Nat
  mz : Bool
  rnd : Nat
  ty : Nat
  sat : Bool
  ord : Nat
  fb : Bool
  imm : Option (BitVec 24)
  deriving DecidableEq, Repr

/-- The defaults of R91. -/
def Mods.plain : Mods :=
  { c := .zero, msel := 0, mz := false, rnd := 0, ty := 0, sat := false, ord := 0, fb := false, imm := none }

/-- The modifiers of a chain. -/
def modsOf (ch : Option Chain) : Mods :=
  match ch with
  | none => Mods.plain
  | some ch =>
    let m := match ch.pfx with
      | none => Mods.plain
      | some (c, m, z, r, t, x, o, f) =>
        { c := c, msel := m.toNat, mz := z = 1, rnd := r.toNat, ty := t.toNat, sat := x = 1, ord := o.toNat,
          fb := f = 1, imm := none }
    { m with imm := ch.pfxi }

/-- The active lanes: the fibre's P0 and the mask PFX selects (00 R10, 04 R91). -/
def activeLanes (i : Iss) (m : Mods) : Mask := i.f.p0 &&& i.g.readP i.f.p0 m.msel

/-- The lanes that MZ zeroes: the fibre's lanes that are not active (00 R10). -/
def zeroLanes (i : Iss) (m : Mods) : Mask := if m.mz then i.f.p0 &&& ~~~(activeLanes i m) else 0

/-! ## Fields -/

/-- How an instruction uses a register field. -/
inductive Use where
  /-- It does not: the field holds ZERO (04 R87). -/
  | unused
  /-- A 32-bit source of any class (02 R35). -/
  | src
  /-- A 32-bit destination of any class (02 R35). -/
  | dst
  /-- An even-aligned 64-bit source of class V, O or S, or ZERO (05 R113). -/
  | srcPair
  /-- An even-aligned 64-bit destination of class V or O, or ZERO (05 R113). -/
  | dstPair
  /-- `n` registers of class V or O from one that is a multiple of `n` (02 R37, 05 R125). -/
  | vo (n : Nat)
  /-- `n` registers of class V or O, or ZERO (11 R234, R235). -/
  | voz (n : Nat)
  /-- `n` registers of class V alone, with no alignment. -/
  | vOnly (n : Nat)
  /-- An even-aligned pair of class V, O or S: a global address (04 R87). -/
  | address
  /-- No register: an immediate or a condition. -/
  | imm
  deriving DecidableEq, Repr

/-- The number of registers a field names. -/
def Use.count : Use → Nat
  | .unused => 1 | .src => 1 | .dst => 1 | .srcPair => 2 | .dstPair => 2 | .vo n => n | .voz n => n
  | .vOnly n => n | .address => 2 | .imm => 0

/-- Whether `n` V registers from `k` lie in the window (02 R36). -/
def inWindow (w k n : Nat) : Bool := decide (k + n ≤ w)

/-- Whether a field's register is one its use admits, queue registers of a 32-bit use included (02 R35 to R37). -/
def useOk (w : Nat) (u : Use) (r : LReg) : Bool :=
  match u with
  | .imm => true
  | .unused => decide (r = .zero)
  | .src => match r with | .none => false | .v k => inWindow w k.val 1 | _ => true
  | .dst => match r with | .v k => inWindow w k.val 1 | .o _ => true | .zero => true | .q _ => true | _ => false
  | .srcPair => match r with
    | .v k => k.val % 2 = 0 && inWindow w k.val 2 | .o k => k.val % 2 = 0 | .s k => k.val % 2 = 0 | .zero => true
    | _ => false
  | .dstPair => match r with
    | .v k => k.val % 2 = 0 && inWindow w k.val 2 | .o k => k.val % 2 = 0 | .zero => true | _ => false
  | .vo n => match r with
    | .v k => k.val % n = 0 && inWindow w k.val n | .o k => k.val % n = 0 && decide (k.val + n ≤ 16) | _ => false
  | .voz n => match r with
    | .v k => k.val % n = 0 && inWindow w k.val n | .o k => k.val % n = 0 && decide (k.val + n ≤ 16) | .zero => true
    | _ => false
  | .vOnly n => match r with | .v k => inWindow w k.val n | _ => false
  | .address => match r with
    | .v k => k.val % 2 = 0 && inWindow w k.val 2 | .o k => k.val % 2 = 0 | .s k => k.val % 2 = 0 | _ => false

/-- Whether a field names a hand-off queue. -/
def isQueue (r : LReg) : Bool := match r with | .q _ => true | _ => false

/-- Whether a field names a queue that its kernel does not declare (02 R43). -/
def undeclared (k : Kernel) (r : LReg) : Bool := match r with | .q n => k.qdepth n.val = 0 | _ => false

/-- The trap that the fields of an instruction raise, if any: 0x01 for a field outside its use; 0x09 for a queue
register where `noQueues` bars every one of them or the kernel does not declare it. A barred queue field is reported as
0x09 even where its own use excludes it, and another field's 0x01 comes first (R101, R172). -/
def fieldTrap (k : Kernel) (w : Nat) (noQueues : Bool) (fs : List (Use × LReg)) : Option Nat :=
  let misuse (f : Use × LReg) : Bool := isQueue f.2 && f.1 ≠ .imm && (noQueues || undeclared k f.2)
  if fs.any fun f => !misuse f && !useOk w f.1 f.2 then some 0x01
  else if fs.any misuse then some 0x09 else none

/-! ## Forms -/

/-- What PFXI does for an instruction (04 R94). -/
inductive ImmUse where
  /-- Nothing: it is illegal. -/
  | none
  /-- It replaces the B source; the B field holds 0x00. -/
  | b
  /-- It replaces the LI immediate; `shift` requires IMM24[23:5] to be zero. -/
  | li (shift : Bool)
  /-- MOVI. -/
  | lw
  /-- The LM offset. -/
  | lm
  deriving DecidableEq, Repr

/-- An instruction's form: the TYPE codes and the saturate bit it accepts, how each field is used under a TYPE, what
PFXI does, whether REP may precede it, whether it counts against a flag, and the ORD codes it accepts (04 R86 to R96). -/
structure Form where
  types : List Nat
  sat : Bool
  d : Nat → Use
  a : Nat → Use
  b : Nat → Use
  c : Nat → Use
  imm : ImmUse
  rep : Bool
  counting : Bool
  ords : List Nat

/-- A short-latency form over 32-bit fields. -/
def Form.regs (types : List Nat) (sat : Bool) (a b c : Use) : Form :=
  { types := types, sat := sat, d := fun _ => .dst, a := fun _ => a, b := fun _ => b, c := fun _ => c,
    imm := if b = .src then .b else .none, rep := true, counting := false, ords := [0] }

/-- Whether the modifiers are ones that a form honours (04 R59, R91 to R94). `low` is what the field that an immediate
prefix replaces holds. -/
def modsOk (fm : Form) (cl : Option Clause) (m : Mods) (low : Nat) : Bool :=
  fm.types.contains m.ty && (fm.sat || !m.sat) && decide (m.rnd ≤ 5) && fm.ords.contains m.ord &&
  (!m.fb || (fm.counting && cl.any fun c => c.flagB ≠ 0)) &&
  (!fm.counting || (m.fb || cl.any fun c => c.flagA ≠ 0)) &&
  (match m.imm with
    | none => true
    | some x => match fm.imm with
      | .none => false
      | .b => low = 0
      | .li sh => low = 0 && (!sh || x.toNat < 32)
      | .lw => decide (x.toNat < 65536)
      | .lm => low = 0)

/-- The B use once a PFXI stands for it. -/
def Form.bUse (fm : Form) (m : Mods) : Use := if fm.imm = .b ∧ m.imm.isSome then .imm else fm.b m.ty

/-- The fields of an instruction with their uses. -/
def Form.fields (fm : Form) (m : Mods) (d a b : LReg) : List (Use × LReg) :=
  [(fm.d m.ty, d), (fm.a m.ty, a), (fm.bUse m, b), (fm.c m.ty, m.c)]

/-- The flag that a counting instruction counts against (04 R84). -/
def countFlag (cl : Option Clause) (m : Mods) : Nat :=
  match cl with | some c => if m.fb then c.flagB else c.flagA | none => 0

/-! ## Repetition -/

/-- A register stepped within its class (04 R96). -/
def stepReg (w : Nat) (r : LReg) (by_ : Int) : Option LReg :=
  if by_ = 0 then some r
  else match r with
    | .v k =>
      let n := (k.val : Int) + by_
      if h : 0 ≤ n ∧ n.toNat < 192 then (if n.toNat < w then some (.v ⟨n.toNat, h.2⟩) else none) else none
    | .o k =>
      let n := (k.val : Int) + by_
      if h : 0 ≤ n ∧ n.toNat < 16 then some (.o ⟨n.toNat, h.2⟩) else none
    | .s k =>
      let n := (k.val : Int) + by_
      if h : 0 ≤ n ∧ n.toNat < 32 then some (.s ⟨n.toNat, h.2⟩) else none
    | _ => none

/-- Whether a field can step: a register of class V, O or S (04 R96). -/
def canStep (u : Use) (r : LReg) : Bool :=
  u ≠ .imm && (match r with | .v _ => true | .o _ => true | .s _ => true | _ => false)

/-- The REP of a chain: count and the three steps. -/
def repOf (ch : Option Chain) : Option (Nat × Int × Int × Int) :=
  (ch.bind (·.rep)).map fun r => (r.1.toNat + 1, r.2.1.toInt, r.2.2.1.toInt, r.2.2.2.toInt)

/-! ## Scoreboard (04 R85) -/

/-- The register codes (02 R35) of class V and O that a field names. -/
def boardCodes (u : Use) (r : LReg) : List Nat :=
  match r with
  | .v k => (List.range u.count).map (· + k.val)
  | .o k => (List.range u.count).map (· + 192 + k.val)
  | _ => []

/-- Whether a field's registers have a short-latency write in flight. -/
def onBoard (g : Group) (fs : List (Use × LReg)) : Bool :=
  fs.any fun f => (boardCodes f.1 f.2).any g.board.contains

/-- The S registers that fields read, whose pending tokens hold the fibre (04 R85, 11 R254). -/
def pendingS (g : Group) (ks : List Nat) : Option Nat := ks.find? fun k => (Table.look g.tokens k).isSome

/-- The S registers that fields name. -/
def sCodes (fs : List (Use × LReg)) : List Nat :=
  fs.flatMap fun f => match f.2 with | .s k => (List.range f.1.count).map (· + k.val) | _ => []

/-! ## Queues (07 R170, R171) -/

/-- The elements of a hand-off queue, oldest first. -/
def Block.queue (b : Block) (q : Nat) : List (Table Word) := Table.rd b.queues [] q

/-- The queues that the source fields pop, in the order A, B, C. -/
def popsOf (rs : List LReg) : List Nat := rs.filterMap fun r => match r with | .q k => some k.val | _ => none

/-- Whether every popped queue holds the elements and the pushed queue then has a place (R171). -/
def queuesReady (k : Kernel) (b : Block) (pops : List Nat) (push : Option Nat) : Bool :=
  (pops.all fun q => decide (pops.count q ≤ (b.queue q).length)) &&
  (match push with | none => true | some q => decide ((b.queue q).length - pops.count q < k.qdepth q))

/-- The elements popped, one for each field in order, and the block after the pops. -/
def popAll : List Nat → Block → List (Table Word) × Block
  | [], b => ([], b)
  | q :: qs, b =>
    let e := (b.queue q).headD []
    let (es, b') := popAll qs { b with queues := Table.ins b.queues q ((b.queue q).drop 1) }
    (e :: es, b')

/-- A push. -/
def Block.push (b : Block) (q : Nat) (e : Table Word) : Block :=
  { b with queues := Table.ins b.queues q (b.queue q ++ [e]) }

/-! ## Running an instruction over the lanes -/

/-- The fields of one repetition as lanes read them: A, B and C by lane, popped elements in place. -/
structure Srcs where
  a : Nat → Nat
  b : Nat → Nat
  c : Nat → Nat

/-- A per-lane computation: how many values it draws under SR, and its result as one number over the destination's
registers, lowest first. `u j` is the lane's `j`-th draw. -/
structure LaneFn where
  draws : Mods → Srcs → Nat → Nat
  value : Mods → Srcs → Nat → (Nat → Nat) → Nat

/-- A computation that draws nothing. -/
def LaneFn.pure (f : Mods → Srcs → Nat → Nat) : LaneFn := { draws := fun _ _ _ => 0, value := fun m x l _ => f m x l }

/-- Where the results go: the D field, or a predicate (05 R117). -/
inductive Sink where
  | regs
  | pred (n : Nat)
  deriving DecidableEq, Repr

/-- What a repetition did: it completed, or it ended the chain's progress in this state. -/
inductive RepOut where
  | ok (s : State)
  | stop (s : State)

/-- A source field as lanes read it; `elem` is the element it popped. -/
def fieldVal (g : Group) (f : Fibre) (u : Use) (r : LReg) (elem : Table Word) (l : Nat) : Nat :=
  match r with
  | .q _ => (Table.rd elem 0 l).toNat
  | _ => readWide g f r l u.count

/-- The elements dealt out to the fields A, B, C in that order. -/
def dealElems : List LReg → List (Table Word) → List (Table Word)
  | [], _ => []
  | .q _ :: rs, e :: es => e :: dealElems rs es
  | _ :: rs, es => [] :: dealElems rs es

/-- The results of the active lanes, ascending, each with its draws taken in order (03 R61). -/
def laneResults (fn : LaneFn) (m : Mods) (x : Srcs) (vals : List Nat) : List Nat → Nat → List (Nat × Nat)
  | [], _ => []
  | l :: ls, pos =>
    let n := if m.rnd = 5 then fn.draws m x l else 0
    (l, fn.value m x l fun j => vals.getD (pos + j) 0) :: laneResults fn m x vals ls (pos + n)

/-- The group after the lanes' results are written to `n` registers of D, inactive lanes zeroed as MZ asks (00 R10). -/
def writeResults (g : Group) (d : LReg) (n : Nat) (res : List (Nat × Nat)) (zero : List Nat) : Group :=
  let g := zero.foldl (fun g l => writeWide g d l n 0) g
  res.foldl (fun g r => writeWide g d r.1 n r.2) g

/-- The value pushed to L for register `j` of D: in each lane what the register holds afterwards, or under ZERO the
computed result (02 R39). -/
def pushedValues (g : Group) (f : Fibre) (d : LReg) (j : Nat) (res : List (Nat × Nat)) : Table Word :=
  match d with
  | .zero => res.foldl (fun t r => Table.wr t 0 r.1 (BitVec.ofNat 32 (r.2 / 2 ^ (32 * j)))) []
  | _ => (List.range g.width).foldl (fun t l => Table.wr t 0 l (readReg g f (regPlus d j) l)) []

/-- The fibre with one last-result entry pushed for each register of D, ascending (02 R39). -/
def pushResults (g : Group) (d : LReg) (n : Nat) (res : List (Nat × Nat)) (f : Fibre) : Fibre :=
  (List.range n).foldl (fun f j => pushLast f (pushedValues g f d j res)) f

/-- One repetition, its fields legal: queues, draws, results, destination, last results. -/
def runOnce (s : State) (i : Iss) (fm : Form) (m : Mods) (d a b : LReg) (imm : Nat) (fn : LaneFn) (sink : Sink) :
    RepOut :=
  let ub := fm.bUse m
  let srcs : List LReg := [a, if ub = .imm then .zero else b, m.c]
  let pops := popsOf srcs
  let push : Option Nat := match sink, d with | .regs, .q k => some k.val | _, _ => none
  if !queuesReady i.k i.b pops push then .stop (waitOn s i.gid i.fid (.queue pops push))
  else
    let (es, blk) := popAll pops i.b
    let el := dealElems srcs es
    let x : Srcs :=
      { a := fieldVal i.g i.f (fm.a m.ty) a (el.getD 0 [])
        b := if ub = .imm then fun _ => imm else fieldVal i.g i.f ub b (el.getD 1 [])
        c := fieldVal i.g i.f (fm.c m.ty) m.c (el.getD 2 []) }
    let act := activeLanes i m
    let lanes := Mask.lanes act
    let total := if m.rnd = 5 then (lanes.map (fn.draws m x)).sum else 0
    let s := openReplay s i.k i.g total
    match drawValues s i.k i.g total with
    | none => .stop (waitOn s i.gid i.fid (.noise total))
    | some vals =>
      let s := commitDraws s i.gid total
      let s := if pops = [] then s else updBlock s i.g.block fun _ => blk
      let res := laneResults fn m x vals lanes 0
      match sink with
      | .pred n =>
        let on := Mask.ofLanes ((res.filter fun r => r.2 ≠ 0).map (·.1))
        .ok (updGroup s i.gid fun g => g.writeP n (act ||| zeroLanes i m) on)
      | .regs =>
        match d with
        | .q k =>
          let e : Table Word := res.foldl (fun t r => Table.wr t 0 r.1 (BitVec.ofNat 32 r.2)) []
          .ok (updBlock s i.g.block fun b => b.push k.val e)
        | _ =>
          let n := (fm.d m.ty).count
          let s := updGroup s i.gid fun g =>
            let g := writeResults g d n res (Mask.lanes (zeroLanes i m))
            { g with board := g.board ++ boardCodes (fm.d m.ty) d }
          match groupAt s i.gid with
          | some g => .ok (updFibre s i.gid i.fid (pushResults g d n res))
          | none => .ok s

/-- The chain of the issuing fibre with `j` repetitions complete (04 R96). -/
def standing (s : State) (i : Iss) (j : Nat) : State :=
  updFibre s i.gid i.fid fun f => { f with chain := f.chain.map fun c => { c with done := j } }

/-- The codes of an instruction's registers that a board holds. -/
def heldCodes (board : List Nat) (fs : List (Use × LReg)) : List Nat :=
  (fs.flatMap fun f => boardCodes f.1 f.2).filter board.contains

/-- What the scoreboard does to an instruction with these fields (04 R85): a write in flight to one of its V or O
registers stalls it, a pending token among its S registers makes it wait. `board` holds the writes in flight. -/
def boardHold (board : List Nat) (s : State) (i : Iss) (fs : List (Use × LReg)) : Option State :=
  if fs.any fun f => (boardCodes f.1 f.2).any board.contains then some (stallFibre s i.gid i.fid (.board (heldCodes board fs)))
  else (pendingS i.g (sCodes fs)).map fun k => waitOn s i.gid i.fid (.token k)

/-- The repetitions of a chain from repetition `j` on (04 R96); `n` of them are left. A repetition whose fields leave
their class, window or alignment traps with TADDR its number, and those before it stand. Each is an instruction of its
own for the scoreboard, which held `board` when the chain was taken up. -/
def runReps (fm : Form) (m : Mods) (d a b : LReg) (imm : Nat) (fn : LaneFn) (sink : Sink) (sd sa sb : Int)
    (board : List Nat) : Nat → Nat → State → Iss → RepOut
  | 0, _, s, _ => .ok s
  | n + 1, j, s, i =>
    match stepReg i.g.window d (j * sd), stepReg i.g.window a (j * sa), stepReg i.g.window b (j * sb) with
    | some d', some a', some b' =>
      let fs := fm.fields m d' a' b'
      match fieldTrap i.k i.g.window false fs with
      | some c => .stop (trapHere s i c (if c = 0x01 then BitVec.ofNat 64 j else 0) 0)
      | none =>
        match boardHold board s i fs with
        | some s => .stop (standing s i j)
        | none =>
          match runOnce s i fm m d' a' b' imm fn sink with
          | .stop s => .stop (standing s i j)
          | .ok s =>
            match issuing s with
            | some i' => runReps fm m d a b imm fn sink sd sa sb board n (j + 1) s i'
            | none => .ok s
    | _, _, _ => .stop (trapHere s i 0x01 (BitVec.ofNat 64 j) 0)

/-- A SHORT-LATENCY LANE INSTRUCTION (05 R108 to R113): its legality, the scoreboard, its repetitions. `low` is what
the field holds that an immediate prefix replaces; `imm` gives B where it is an immediate. -/
def laneRun (s : State) (i : Iss) (fm : Form) (d a b : LReg) (low : Nat) (imm : Mods → Nat) (fn : LaneFn) (sink : Sink) :
    State :=
  let m := modsOf i.f.chain
  let rep := repOf i.f.chain
  let fs := fm.fields m d a b
  let repBad := match rep with
    | none => false
    | some (_, sd, sa, sb) =>
      !fm.rep || (sd ≠ 0 && !canStep (if sink = .regs then fm.d m.ty else .imm) d) ||
      (sa ≠ 0 && !canStep (fm.a m.ty) a) || (sb ≠ 0 && !canStep (fm.bUse m) b)
  if !modsOk fm i.f.clause m low || repBad then illegal s i
  else match fieldTrap i.k i.g.window false fs with
    | some c => trapHere s i c 0 0
    | none =>
      let (cnt, sd, sa, sb) := rep.getD (1, 0, 0, 0)
      let from_ := (i.f.chain.map (·.done)).getD 0
      let upto := min cnt ((i.f.chain.bind (·.upto)).getD cnt)
      match if from_ = 0 then boardHold i.g.board s i fs else none with
      | some s => s
      | none =>
        match runReps fm m d a b (imm m) fn sink sd sa sb i.g.board (upto - from_) from_ s i with
        | .stop s => s
        | .ok s => if upto < cnt then standing s i upto else finish s i

/-- The immediate that PFXI puts in place of B, at a width (04 R94). -/
def bImm (w : Nat) (m : Mods) : Nat := wrapTo w ((m.imm.getD 0).toInt)

end Sys2Proof.Machine
end

