-- ==== Sys2Proof/Machine/Access.lean ====
section
/-! DEFINITION. How the accesses of a word meet alignment, range locks, pages, the atomic path and poison, and what
they put in flight (09 R196 to R208; 10 R218 to R225; 11 R232, R233, R236, R239). -/

namespace Sys2Proof.Machine

/-- Bytes that one lane touches, within one 64 KiB page; `off` is their place in the lane's data. -/
structure Touch where
  lane : Nat
  off : Nat
  va : Nat
  n : Nat
  deriving DecidableEq, Repr

/-- A touch with its page and the key of its first byte. -/
structure Met where
  t : Touch
  p : Pg
  key : Nat
  deriving DecidableEq, Repr

/-- The touches of a lane's `n` bytes from an address, cut at pages; addresses wrap at 2^64. -/
def touchesOf (lane va n : Nat) : List Touch :=
  (pagePieces va n).map fun p => { lane := lane, off := p.1 - va, va := p.1 % 2 ^ 64, n := p.2 }

/-- Each touch met with its page; every distinct 64 KiB page is looked up once (R216). -/
def meetTouches (s : State) (i : Iss) (ts : List Touch) : List Met × State :=
  let pages := dedup (ts.map fun t => t.va / 65536)
  let (tab, s) := pages.foldl (fun (acc : Table Pg × State) pg =>
    let (p, s) := translate acc.2 i.ck i.k.ctx (pg * 65536)
    (Table.ins acc.1 pg p, s)) ([], s)
  (ts.filterMap fun t => (Table.look tab (t.va / 65536)).map fun p =>
    { t := t, p := p, key := p.key s i.k.ctx i.g.die t.va }, s)

/-- Whether AtomicOp completion is enabled on the path to an address of a page's tier (R224). -/
def atomicPath (s : State) (ctx : Nat) (m : Met) : Bool :=
  m.p.tier = 0 || (s.hostLinks[homeLink s ctx m.key]?).any (·.atomics)

/-- The lines of an instruction's writes that it covers whole (R225). -/
def coveredLines (ms : List Met) : List Nat :=
  let cells : Table Bool := ms.foldl (fun t m => (List.range m.t.n).foldl (fun t j => Table.ins t (m.key + j) true) t) []
  (dedup (ms.map fun m => m.key / 128)).filter fun l =>
    (List.range 128).all fun j => (Table.look cells (l * 128 + j)).isSome

/-- Whether a page in this STATE can serve an access (R216, R218). -/
def Pg.served (p : Pg) : Bool := p.st = 3 || p.st = 4 || p.st = 6 || p.st = 7

/-- The traps that the pages and lines of an access raise: cause, lane, address. ATOM is consulted in every mapped STATE, the
path of a page where its frame is in place (R224; log entry 55). A store to a page in STATE 7 with REPL = 0 and WR = 0
raises 0x07 too, as STATE 3 would (R225; log entry 55). -/
def pageTraps (s : State) (i : Iss) (write atomic : Bool) (ms : List Met) : List (Nat × Nat × Nat) :=
  let whole := if write ∧ !atomic then coveredLines ms else []
  ms.flatMap fun m =>
    let path := if atomic ∧ m.p.st ≠ 0 ∧ m.p.scope = 4 ∧ (!m.p.atom ∨ (m.p.served ∧ !atomicPath s i.k.ctx m)) then
        [(0x06, m.t.lane, m.t.va)] else []
    let denied := if write ∧ ((m.p.st = 3 ∧ !m.p.wr) ∨ (m.p.st = 4 ∧ !m.p.cow) ∨ (m.p.st = 7 ∧ (m.p.repl ∨ !m.p.wr))) then
        [(0x07, m.t.lane, m.t.va)] else []
    let bad := (linesOf m.key m.t.n).filter fun l => badLine s l && !whole.contains l
    let poison := match bad with
      | l :: _ => if m.p.served then [(0x0C, m.t.lane, m.t.va + (l * 128 - m.key))] else []
      | [] => []
    path ++ denied ++ poison

/-- Whether a page aborts an access that no trap stops (R218). -/
def pageAborts (p : Pg) (write : Bool) : Bool :=
  p.st = 0 || p.st = 1 || p.st = 2 || p.st = 5 || (write && (p.st = 6 || p.st = 4))

/-- The traps of alignment: `n` bytes at a multiple of `n` (R232). -/
def alignTraps (n : Nat) (ts : List (Nat × Nat)) : List (Nat × Nat × Nat) :=
  ts.filterMap fun t => if t.2 % n ≠ 0 then some (0x03, t.1, t.2) else none

/-- The traps of registered ranges (09 R207), over lanes and the bytes they touch. -/
def lockTraps (s : State) (i : Iss) (scratch write : Bool) (ts : List (Nat × Nat × Nat)) : List (Nat × Nat × Nat) :=
  ts.filterMap fun t => (conflictAt s i.ck i.k.ctx i.g.block scratch write t.2.1 t.2.2).map fun a => (0x04, t.1, a)

/-- The trap reported among those that the lanes raise: the lowest cause; the lowest address of its lowest lane; its
lanes (R101, R207, R219, R224, R225, R232). -/
def pickTrap (xs : List (Nat × Nat × Nat)) : Option (Nat × Nat × Mask) :=
  match minOf (xs.map (·.1)) with
  | none => none
  | some c =>
    let ys := xs.filter fun x => x.1 = c
    let l := (minOf (ys.map (·.2.1))).getD 0
    some (c, (minOf ((ys.filter fun x => x.2.1 = l).map (·.2.2))).getD 0, Mask.ofLanes (ys.map (·.2.1)))

/-- The pages that abort an access, each once. -/
def abortPages (write : Bool) (ms : List Met) : List (Pg × Nat × Bool) :=
  let bad := ms.filter fun m => pageAborts m.p write
  (dedup (bad.map fun m => m.t.va / 65536)).filterMap fun pg =>
    match sortBy (fun (x y : Met) => decide (x.t.va < y.t.va)) (bad.filter fun m => m.t.va / 65536 = pg) with
    | m :: _ => some (m.p, m.t.va, !write)
    | [] => none

/-- The highest scope among pages; 4 where no page is touched (09 R198). -/
def scopeOf (ms : List Met) : Nat := if ms = [] then 4 else maxOf (ms.map fun m => m.p.scope)

/-- What an access comes to at issue: a trap, an abort, or its pages. -/
inductive Verdict where
  | trap (cause addr : Nat) (lanes : Mask)
  | abort (pages : List (Pg × Nat × Bool))
  | go (ms : List Met)

/-- An access judged (R219): traps over aborts, aborts over accesses, the lowest cause first (04 R101). `early` lists the
traps of causes up to 0x04, after which no page is looked up; `commits` says that the word commits its fibre's region, and a
buffered write that conflicts is 0x04 too (11 R240); `misuse` lists the traps of hand-off queue misuse, 0x09. -/
def judge (s : State) (i : Iss) (write atomic commits : Bool) (early misuse : List (Nat × Nat × Nat)) (ts : List Touch) :
    Verdict × State :=
  match pickTrap early, if commits then bufferConflict s i.ck i.k.ctx i.g.block i.f else none with
  | some (c, a, m), _ => (.trap c a m, s)
  | none, some a => (.trap 0x04 a 0, s)
  | none, none =>
    let (ms, s) := meetTouches s i ts
    match pickTrap (pageTraps s i write atomic ms ++ misuse) with
    | some (c, a, m) => (.trap c a m, s)
    | none =>
      match abortPages write ms with
      | [] => (.go ms, s)
      | pages => (.abort pages, s)

/-- The effect of a verdict; `go` follows where nothing stops the access. A uniform access reports no lanes (11 R246). -/
def onVerdict (s : State) (i : Iss) (lanes : Bool) (v : Verdict) (go : List Met → State) : State :=
  match v with
  | .trap c a m => trapHere s i c (BitVec.ofNat 64 a) (if lanes then m else 0)
  | .abort pages => abortRegion s i pages
  | .go ms => go ms

/-! ## Putting an access in flight -/

/-- A buffered write's bytes. -/
def BufWrite.span : BufWrite → Nat × Nat
  | .store va bs => (va, bs.length)
  | .reduce va _ _ n _ => (va, n)

/-- Whether a buffered write touches some bytes. -/
def BufWrite.hits (w : BufWrite) (va n : Nat) : Bool := decide (w.span.1 < va + n ∧ va < w.span.1 + w.span.2)

/-- A fibre's buffered writes, oldest first. -/
def buffered (f : Fibre) : List BufWrite := f.buffer.flatMap (·.writes)

/-- The lowest and highest bytes that a load must capture to see its fibre's buffered reductions of the bytes it reads
(09 R199). -/
def hullOf (ws : List BufWrite) (va n : Nat) : Nat × Nat :=
  ws.foldl (fun h w => match w with
    | .reduce a _ _ m _ => if w.hits va n then (min h.1 a, max h.2 (a + m)) else h
    | .store .. => h) (va, va + n)

/-- The bytes of a lane with its fibre's buffered writes applied, in order; `base` is the first byte's address. -/
def applyOverlay (ws : List BufWrite) (base : Nat) (bs : List Byte) : List Byte :=
  ws.foldl (fun bs w =>
    match w with
    | .store va xs => bs.mapIdx fun j b => if va ≤ base + j ∧ base + j < va + xs.length then xs.getD (base + j - va) b else b
    | .reduce va op _ n x =>
      if base ≤ va ∧ va + n ≤ base + bs.length then
        let new := toBytes n (foldOp op n (numAt bs (va - base) n) x.toNat 0)
        bs.mapIdx fun j b => if va ≤ base + j ∧ base + j < va + n then new.getD (base + j - va) b else b
      else bs) bs

/-- The pieces of a load's touches, each widened to the hull of the buffered reductions that it sees. -/
def piecesOf (ws : List BufWrite) (ms : List Met) : List Piece × Table Nat × Table Nat :=
  ms.foldl (fun acc m =>
    let h := hullOf ws m.t.va m.t.n
    let lo := if m.t.off = 0 then m.t.va - h.1 else 0
    let low := (Table.look acc.2.2 m.t.lane).getD lo
    ({ lane := m.t.lane, off := m.t.off + low - lo, addr := m.key - lo, n := lo + (h.2 - m.t.va), scope := m.p.scope,
       cache := m.p.cache } :: acc.1,
     (if m.t.off = 0 then Table.ins acc.2.1 m.t.lane (m.t.va - lo) else acc.2.1),
     (if m.t.off = 0 then Table.ins acc.2.2 m.t.lane lo else acc.2.2))) ([], [], [])

/-- The lease length of a scope that a kernel sampled (06 R144). -/
def leaseOf (k : Kernel) (scope : Nat) : Nat :=
  let v := (k.sample 0x012).toNat
  match scope with | 2 => 16 * bits v 7 0 | 3 => 16 * bits v 15 8 | 4 => 125 * bits v 23 16 | _ => 0

/-- The byte that a load may take at once from its core's L1, with the other bytes of its aligned doubleword that the piece
reads (09 R193, R199): all of them from one fill, or from the L1's own scope 0 or 1 line. -/
def l1Offer (s : State) (i : Iss) (p : Piece) (a : Nat) : Option Byte :=
  let mates := (List.range 8).map (a / 8 * 8 + ·) |>.filter fun x => p.addr ≤ x ∧ x < p.addr + p.n
  match l1Serves s i.ck a with
  | some b =>
    if inFlightAt s i.gid i.fid a then none
    else if mates.all fun x => (l1Serves s i.ck x).any fun y => (b.scope ≤ 1 && y.scope ≤ 1) || y.served = b.served then some b.val
    else none
  | none => none

/-- What a new operation takes at once from its core's L1 (09 R190, R193). -/
def captureL1 (s : State) (i : Iss) (o : Op) : Op :=
  o.pieces.foldl (fun o p =>
    if !p.cache ∨ (2 ≤ p.scope ∧ leaseOf i.k p.scope = 0) then o
    else o.capture fun a => if p.addr ≤ a ∧ a < p.addr + p.n then l1Offer s i p a else none) o

/-- An operation put in flight: scope 0 tags of the lines it touches go (09 R191), the L1 gives what it can, its flag is
raised, and its misses are counted. -/
def launchOp (s : State) (i : Iss) (o : Op) : Nat × State :=
  let s := o.pieces.foldl (fun s p =>
    if p.scope ≤ 1 ∧ p.cache then (linesOf p.addr p.n).foldl (fun s l => l1Touch s i.ck i.gid (l * 128)) s else s) s
  let o := captureL1 s i o
  let s := if o.missing = [] then s else countEvent s i.gid 3 o.missing.length
  let (n, s) := freshId s
  (n, flagUp { s with ops := Table.ins s.ops n o } i.gid o.flag)

/-- The issuing fibre past an access: an acquiring one waits until the access has returned (R234). -/
def pastAccess (s : State) (i : Iss) (acquiring : Bool) (op : Nat) : State :=
  finish (if acquiring then waitOn s i.gid i.fid (.acquire op) else s) i

/-- An instruction that is held by the scoreboard, a pending token or a flag at 127 (02 R44, 04 R85). -/
def holdFor (s : State) (i : Iss) (fs : List (Use × LReg)) (flag : Nat) (act : State) : State :=
  if onBoard i.g fs then stallFibre s i.gid i.fid (.board (heldCodes i.g.board fs))
  else match pendingS i.g (sCodes fs) with
    | some k => waitOn s i.gid i.fid (.token k)
    | none => if flag ≠ 0 ∧ 127 ≤ i.g.flag flag then stallFibre s i.gid i.fid (.flag flag) else act

/-- The trap entry of hand-off queue misuse: cause 0x09, with TADDR and TMASK zero. -/
def misuseTrap : List (Nat × Nat × Nat) := [(0x09, 64, 0)]

/-- A lane memory instruction's legality (04 R86 to R93, R172), then `act` with its modifiers and its queue misuse, which
the causes of its address come before (04 R101). `needs` are the fields that its addresses come from: while one of them
is a queue there is no address to judge. -/
def laneAccess (s : State) (i : Iss) (fm : Form) (d a b : LReg) (low : Nat) (needs : Mods → List LReg)
    (act : Mods → List (Nat × Nat × Nat) → State) : State :=
  let m := modsOf i.f.chain
  let fs := fm.fields m d a b
  let wideImm : Bool := fm.imm = .b && m.imm.isSome && (m.ty = 12 || m.ty = 13)
  if !modsOk fm i.f.clause m low || (repOf i.f.chain).isSome || wideImm then illegal s i
  else
    let go (misuse : List (Nat × Nat × Nat)) : State :=
      holdFor s i fs (if fm.counting then countFlag i.f.clause m else 0) (act m misuse)
    match fieldTrap i.k i.g.window true fs with
    | none => go []
    | some c => if c = 0x09 ∧ !(needs m).any isQueue then go misuseTrap else trapHere s i c 0 0

/-- The region-buffer entries that some written bytes take: distinct 128-byte segments (R233, R239). -/
def segmentsOf (ts : List (Nat × Nat)) : Nat :=
  (dedup (ts.flatMap fun t => (linesOf t.1 t.2))).length

/-- The entries that a fibre's buffer holds. -/
def usedEntries (f : Fibre) : Nat := (f.buffer.map (·.entries)).sum

/-- The trap of a full region buffer (R239). -/
def overflowTrap (i : Iss) (need : Nat) (lanes : Mask) : Option (Nat × Nat × Mask) :=
  if 48 < usedEntries i.f + need then some (0x05, need, lanes) else none

/-- The issuing core's copies of bytes that a store writes at their homes, dropped at its issue (09 R194). -/
def forgetStored (s : State) (i : Iss) (ms : List Met) : State :=
  ms.foldl (fun s m => if inL1 m.p then s else l1Forget s i.ck m.key m.t.n) s

/-- An instruction's writes entered in the region buffer. -/
def bufferWrites (s : State) (i : Iss) (need : Nat) (ws : List BufWrite) : State :=
  if ws = [] then s
  else updFibre s i.gid i.fid fun f => { f with buffer := f.buffer ++ [{ entries := need, writes := ws }] }

/-- The lanes that reach memory: active, and not helpers (R169). -/
def realLanes (i : Iss) (m : Mods) : List Nat := Mask.lanes (activeLanes i m &&& ~~~i.g.helpers)

/-- The address that a lane forms in an LM or LA form (R232). -/
def laneAddress (i : Iss) (a : LReg) (m : Mods) (f : BitVec 8) (z : Nat) (l : Nat) : Nat :=
  let off : Int := match m.imm with | some x => x.toInt | none => f.toInt
  wrapTo 64 ((readWide i.g i.f a l 2 : Int) + off * z)

/-- The scratchpad offset that a lane forms (R237). -/
def laneOffset (i : Iss) (a : LReg) (m : Mods) (f : BitVec 8) (z : Nat) (l : Nat) : Nat :=
  let off : Int := match m.imm with | some x => x.toInt | none => f.toInt
  wrapTo 32 (((readReg i.g i.f a l).toNat : Int) + off * z)

end Sys2Proof.Machine
end

