-- ==== Sys2Proof/Machine/LaneMemory.lean ====
section
/-! DEFINITION. Loads, stores and LCPY of lanes, global and scratchpad (11 R232 to R239, R251, R252). -/

namespace Sys2Proof.Machine

/-! ## Forms -/

/-- The form of a load of `n` registers; `global` says that A is a global address (R234, R237). -/
def Form.load (n : Nat) (global_ : Bool) : Form :=
  { types := [0], sat := false, d := fun _ => if n = 1 then .voz n else .vo n
    a := fun _ => if global_ then .address else .src, b := fun _ => .imm,
    c := fun _ => .unused, imm := .lm, rep := false, counting := true, ords := if global_ then [0, 1] else [0] }

/-- The form of a store of `n` registers (R235, R237). -/
def Form.store (n : Nat) (global_ : Bool) : Form :=
  { types := [0], sat := false, d := fun _ => if n = 1 then .src else .voz n
    a := fun _ => if global_ then .address else .src, b := fun _ => .imm, c := fun _ => .unused, imm := .lm
    rep := false, counting := false, ords := if global_ then [0, 2] else [0] }

/-- The form of LCPY (R251). -/
def Form.lcpy : Form :=
  { types := [0], sat := false, d := fun _ => .src, a := fun _ => .address, b := fun _ => .imm, c := fun _ => .src,
    imm := .lm, rep := false, counting := true, ords := [0] }

/-- An operation with nothing in it. -/
def opBlank (i : Iss) (kind : OpKind) (flag : Nat) (dest : Dest) : Op :=
  { kind := kind, ident := groupIdent i.g, gid := i.gid, fib := i.fid, core := i.ck, ctx := i.k.ctx, flag := flag, dest := dest, size := 0,
    signed := false, lanes := 0, zero := 0, pieces := [], base := [], skip := [], overlay := [], got := [], scope := 4,
    acquire := false, copies := [] }

/-! ## Global loads -/

/-- Whether a helper lane's access would trap or abort alone, so that it returns zero (R169). -/
def helperFails (s : State) (i : Iss) (size l va : Nat) : Bool :=
  let early := alignTraps size [(l, va)] ++ lockTraps s i false false [(l, va, size)]
  match (judge s i false false false early [] (touchesOf l va size)).1 with
  | .go _ => false
  | _ => true

/-- LD8U to LD128: `size` bytes of each active lane into `n` registers. -/
def laneLoad (d a : LReg) (f : BitVec 8) (size : Nat) (signed : Bool) (s : State) : Out :=
  let n := max 1 (size / 4)
  withIssuing s fun i =>
    laneAccess s i (Form.load n true) d a .zero f.toNat (fun _ => [a]) fun m misuse =>
      let addr := laneAddress i a m f size
      let real := realLanes i m
      let helpers := (Mask.lanes (activeLanes i m &&& i.g.helpers)).filter fun l => !helperFails s i size l (addr l)
      let at_ (ls : List Nat) := ls.map fun l => (l, addr l)
      let early := alignTraps size (at_ real) ++ lockTraps s i false false ((at_ real).map fun t => (t.1, t.2, size))
      let (v, s1) := judge s i false false false early misuse ((at_ real).flatMap fun t => touchesOf t.1 t.2 size)
      onVerdict s1 i true v fun ms =>
        let (hs, s2) := meetTouches s1 i ((at_ helpers).flatMap fun t => touchesOf t.1 t.2 size)
        let ws := buffered i.f
        let (ps, base, skip) := piecesOf ws (ms ++ hs)
        let acq : Bool := decide (m.ord = 1)
        let (op, s3) := launchOp s2 i
          { opBlank i .load (countFlag i.f.clause m) (.lane d n) with
            size := size, signed := signed, lanes := activeLanes i m, zero := zeroLanes i m, pieces := ps, base := base
            skip := skip, overlay := ws, scope := scopeOf ms, acquire := acq }
        pastAccess s3 i acq op

/-- LD8U. -/
def execLd8u (d a : LReg) (f : BitVec 8) (s : State) : Out := laneLoad d a f 1 false s
/-- LD8S. -/
def execLd8s (d a : LReg) (f : BitVec 8) (s : State) : Out := laneLoad d a f 1 true s
/-- LD16U. -/
def execLd16u (d a : LReg) (f : BitVec 8) (s : State) : Out := laneLoad d a f 2 false s
/-- LD32. -/
def execLd32 (d a : LReg) (f : BitVec 8) (s : State) : Out := laneLoad d a f 4 false s
/-- LD64. -/
def execLd64 (d a : LReg) (f : BitVec 8) (s : State) : Out := laneLoad d a f 8 false s
/-- LD128. -/
def execLd128 (d a : LReg) (f : BitVec 8) (s : State) : Out := laneLoad d a f 16 false s

/-! ## Global stores -/

/-- ST8 to ST128: the low `size` bytes of each lane's data. A relaxed store enters the region buffer; a release store
releases and is sent at once (R235). -/
def laneStore (d a : LReg) (f : BitVec 8) (size : Nat) (s : State) : Out :=
  let n := max 1 (size / 4)
  withIssuing s fun i =>
    laneAccess s i (Form.store n true) d a .zero f.toNat (fun _ => [a]) fun m misuse =>
      let ts := (realLanes i m).map fun l => (l, laneAddress i a m f size l)
      let need := segmentsOf (ts.map fun t => (t.2, size))
      let over_ := if m.ord = 0 then overflowTrap i need (activeLanes i m) else none
      let early := alignTraps size ts ++ lockTraps s i false true (ts.map fun t => (t.1, t.2, size))
      match pickTrap early, over_ with
      | none, some (c, need, lanes) => trapHere s i c (BitVec.ofNat 64 need) lanes
      | _, _ =>
        let (v, s1) := judge s i true false (decide (m.ord ≠ 0)) early misuse (ts.flatMap fun t => touchesOf t.1 t.2 size)
        onVerdict s1 i true v fun ms =>
          let ws := ts.map fun t => BufWrite.store t.2 (toBytes size (readWide i.g i.f d t.1 n))
          if m.ord = 0 then finish (bufferWrites (forgetStored s1 i ms) i need ws) i
          else releasing s1 i (scopeOf ms) fun s2 => finish (sendEntry s2 i.gid [i.fid] i.ck i.k.ctx ws) i

/-- ST8. -/
def execSt8 (d a : LReg) (f : BitVec 8) (s : State) : Out := laneStore d a f 1 s
/-- ST16. -/
def execSt16 (d a : LReg) (f : BitVec 8) (s : State) : Out := laneStore d a f 2 s
/-- ST32. -/
def execSt32 (d a : LReg) (f : BitVec 8) (s : State) : Out := laneStore d a f 4 s
/-- ST64. -/
def execSt64 (d a : LReg) (f : BitVec 8) (s : State) : Out := laneStore d a f 8 s
/-- ST128. -/
def execSt128 (d a : LReg) (f : BitVec 8) (s : State) : Out := laneStore d a f 16 s

/-! ## Scratchpad -/

/-- LDS32 to LDS128 (R237, R238): the value is read at issue and written when the flag drains. -/
def scratchLoad (d a : LReg) (f : BitVec 8) (size : Nat) (s : State) : Out :=
  let n := size / 4
  withIssuing s fun i =>
    laneAccess s i (Form.load n false) d a .zero f.toNat (fun _ => [a]) fun m misuse =>
      let off := laneOffset i a m f size
      let traps (ls : List Nat) := alignTraps size (ls.map fun l => (l, off l)) ++
        lockTraps s i true false (ls.map fun l => (l, off l, size))
      match pickTrap (traps (realLanes i m) ++ misuse) with
      | some (c, x, lanes) => trapHere s i c (BitVec.ofNat 64 x) lanes
      | none =>
        let good := (Mask.lanes (activeLanes i m)).filter fun l => !Mask.has i.g.helpers l || (traps [l]).isEmpty
        let got : Table Byte := good.foldl (fun t l =>
          ((i.b.readN (off l) size).foldl (fun (acc : Table Byte × Nat) b => (Table.ins acc.1 acc.2 b, acc.2 + 1))
            (t, gotKey l 0)).1) []
        let (op, s) := launchOp s i
          { opBlank i .lds (countFlag i.f.clause m) (.lane d n) with
            size := size, lanes := activeLanes i m, zero := zeroLanes i m, got := got }
        pastAccess s i false op

/-- LDS32. -/
def execLds32 (d a : LReg) (f : BitVec 8) (s : State) : Out := scratchLoad d a f 4 s
/-- LDS64. -/
def execLds64 (d a : LReg) (f : BitVec 8) (s : State) : Out := scratchLoad d a f 8 s
/-- LDS128. -/
def execLds128 (d a : LReg) (f : BitVec 8) (s : State) : Out := scratchLoad d a f 16 s

/-- STS32 to STS128 (R237, R238): applied at issue, lanes in ascending order. -/
def scratchStore (d a : LReg) (f : BitVec 8) (size : Nat) (s : State) : Out :=
  let n := size / 4
  withIssuing s fun i =>
    laneAccess s i (Form.store n false) d a .zero f.toNat (fun _ => [a]) fun m misuse =>
      let ts := (realLanes i m).map fun l => (l, laneOffset i a m f size l)
      match pickTrap (alignTraps size ts ++ lockTraps s i true true (ts.map fun t => (t.1, t.2, size)) ++ misuse) with
      | some (c, x, lanes) => trapHere s i c (BitVec.ofNat 64 x) lanes
      | none =>
        finish (updBlock s i.g.block fun b => ts.foldl (fun b t =>
          b.writeN t.2 (toBytes size (readWide i.g i.f d t.1 n))) b) i

/-- STS32. -/
def execSts32 (d a : LReg) (f : BitVec 8) (s : State) : Out := scratchStore d a f 4 s
/-- STS64. -/
def execSts64 (d a : LReg) (f : BitVec 8) (s : State) : Out := scratchStore d a f 8 s
/-- STS128. -/
def execSts128 (d a : LReg) (f : BitVec 8) (s : State) : Out := scratchStore d a f 16 s

/-! ## LCPY -/

/-- LCPY (R251). A lane whose 32 bytes reach the declared size copies and touches nothing. -/
def execLcpy (d a : LReg) (f : BitVec 8) (s : State) : Out :=
  withIssuing s fun i =>
    laneAccess s i Form.lcpy d a .zero f.toNat (fun m => [d, a, m.c]) fun m misuse =>
      let real := realLanes i m
      let dst (l : Nat) := (readReg i.g i.f d l).toNat
      let live := real.filter fun l => dst l + 32 ≤ i.b.size
      let src := laneAddress i a m f 32
      let cnt (l : Nat) := min (readReg i.g i.f m.c l).toNat 32
      let early := alignTraps 32 (real.map fun l => (l, dst l)) ++
        lockTraps s i false false (live.map fun l => (l, src l, cnt l)) ++
        lockTraps s i true true (live.map fun l => (l, dst l, 32))
      let (v, s1) := judge s i false false false early misuse (live.flatMap fun l => touchesOf l (src l) (cnt l))
      onVerdict s1 i true v fun ms =>
        let ws := buffered i.f
        let (ps, base, skip) := piecesOf ws ms
        let (op, s2) := launchOp s1 i
          { opBlank i .lcpy (countFlag i.f.clause m) .scratch with
            pieces := ps, base := base, skip := skip, overlay := ws, scope := scopeOf ms
            copies := live.map fun l => (l, dst l, cnt l) }
        pastAccess s2 i false op

end Sys2Proof.Machine
end

