-- ==== Sys2Proof/Machine/Atomics.lean ====
section
/-! DEFINITION. Atomics and reductions of lanes (11 R243 to R245; 09 R198, R202; 10 R224). -/

namespace Sys2Proof.Machine

/-- The bytes of an atomic's operand under a TYPE (R243). -/
def atomWidth (ty : Nat) : Nat := if ty = 12 ∨ ty = 13 then 8 else 4

/-- Whether a TYPE compares as unsigned. -/
def atomUnsigned (ty : Nat) : Bool := ty = 7 || ty = 13

/-- The form of a returning atomic that accepts some TYPEs (R243); `cas` says that it takes C. -/
def Form.atomic (types : List Nat) (cas : Bool) : Form :=
  let wide (n w : Use) (t : Nat) : Use := if t = 12 ∨ t = 13 then w else n
  { types := types, sat := false, d := wide (.voz 1) (.voz 2), a := fun _ => .address, b := wide .src .srcPair
    c := if cas then wide .src .srcPair else fun _ => .unused, imm := .b, rep := false, counting := true
    ords := [0, 1, 2, 3] }

/-- The form of a reduction without return (R245). -/
def Form.reduction (types : List Nat) : Form :=
  { Form.atomic types false with d := fun _ => .imm, counting := false, ords := [0, 2] }

/-- An operand of an atomic: register, or PFXI's immediate in place of B (R94, R243). -/
def atomOperand (i : Iss) (b : LReg) (m : Mods) (w l : Nat) : Nat :=
  if m.imm.isSome then bImm 32 m else readWide i.g i.f b l (w / 4)

/-- One lane of a returning atomic at its point of coherence: in the core's L1 at once (09 R191), or on its way to the
home. -/
def sendAtomic (s : State) (i : Iss) (op : Nat) (x : Met) (f : AtomOp) (w b c : Nat) : State :=
  if inL1 x.p then
    let (old, s) := l1Load (captureBefore s i.gid [i.fid] i.ck i.k.ctx x.key w) i.ck i.k.ctx x.key w
    let s := l1Store s i.ck i.gid i.k.ctx x.p.scope x.key (toBytes w (foldOp f w (ofBytes old) b c))
    let got := (old.foldl (fun (acc : Table Byte × Nat) y => (Table.ins acc.1 acc.2 y, acc.2 + 1))
      (((Table.look s.ops op).map (·.got)).getD [], gotKey x.t.lane 0)).1
    noteWct { s with ops := Table.upd s.ops op fun o => { o with got := got } } i.gid [i.fid] x.p.scope
      (gtOf s i.g.die)
  else
    addWrite (l1Forget s i.ck x.key w) (writeOf s i.gid [i.fid] i.ck i.k.ctx x.p x.key
      (.atomic op x.t.lane f w (BitVec.ofNat 64 b) (BitVec.ofNat 64 c)))

/-- A returning atomic (R243, R244): `f` gives its fold under a TYPE. -/
def laneAtomic (d a b : LReg) (types : List Nat) (cas : Bool) (f : Nat → AtomOp) (s : State) : Out :=
  withIssuing s fun i =>
    laneAccess s i (Form.atomic types cas) d a b ((LReg.toField b).toNat) (fun _ => [a]) fun m misuse =>
      let w := atomWidth m.ty
      let ts := (realLanes i m).map fun l => (l, laneAddress i a { m with imm := none } 0 1 l)
      let early := alignTraps w ts ++ lockTraps s i false true (ts.map fun t => (t.1, t.2, w))
      let (v, s1) := judge s i true true true early misuse (ts.flatMap fun t => touchesOf t.1 t.2 w)
      onVerdict s1 i true v fun ms =>
        let sc := scopeOf ms
        let go (s2 : State) : State :=
          let acq : Bool := decide (m.ord = 1 ∨ m.ord = 3)
          let (op, s3) := launchOp s2 i
            { opBlank i .atomic (countFlag i.f.clause m) (.lane d (w / 4)) with
              size := w, lanes := Mask.ofLanes (ts.map (·.1)), zero := zeroLanes i m, scope := sc, acquire := acq }
          let s4 := ms.foldl (fun s x =>
            sendAtomic s i op x (f m.ty) w (atomOperand i b m w x.t.lane) (readWide i.g i.f m.c x.t.lane (w / 4))) s3
          pastAccess s4 i acq op
        if m.ord = 2 ∨ m.ord = 3 then releasing s1 i sc go else committing s1 i go

/-- ATADD. -/
def execAtadd (d a b : LReg) (s : State) : Out := laneAtomic d a b [0, 6, 7, 12, 13] false (fun _ => .add) s
/-- ATFADD. -/
def execAtfadd (d a b : LReg) (s : State) : Out := laneAtomic d a b [0, 1] false (fun _ => .fadd) s
/-- ATMIN. -/
def execAtmin (d a b : LReg) (s : State) : Out :=
  laneAtomic d a b [0, 6, 7, 12, 13] false (fun t => if atomUnsigned t then .umin else .smin) s
/-- ATMAX. -/
def execAtmax (d a b : LReg) (s : State) : Out :=
  laneAtomic d a b [0, 6, 7, 12, 13] false (fun t => if atomUnsigned t then .umax else .smax) s
/-- ATAND. -/
def execAtand (d a b : LReg) (s : State) : Out := laneAtomic d a b [0, 12] false (fun _ => .and) s
/-- ATOR. -/
def execAtor (d a b : LReg) (s : State) : Out := laneAtomic d a b [0, 12] false (fun _ => .or) s
/-- ATXOR. -/
def execAtxor (d a b : LReg) (s : State) : Out := laneAtomic d a b [0, 12] false (fun _ => .xor) s
/-- ATXCHG. -/
def execAtxchg (d a b : LReg) (s : State) : Out := laneAtomic d a b [0, 12] false (fun _ => .xchg) s
/-- ATCAS. -/
def execAtcas (d a b : LReg) (s : State) : Out := laneAtomic d a b [0, 12] true (fun _ => .cas) s
/-- ATINC. -/
def execAtinc (d a b : LReg) (s : State) : Out := laneAtomic d a b [0] false (fun _ => .inc) s

/-- A reduction without return (R245): buffered when relaxed, sent at once after a release. -/
def laneReduce (a b : LReg) (types : List Nat) (f : Nat → AtomOp) (s : State) : Out :=
  withIssuing s fun i =>
    laneAccess s i (Form.reduction types) .zero a b ((LReg.toField b).toNat) (fun _ => [a]) fun m misuse =>
      let w := atomWidth m.ty
      let ts := (realLanes i m).map fun l => (l, laneAddress i a { m with imm := none } 0 1 l)
      let need := segmentsOf (ts.map fun t => (t.2, w))
      let over_ := if m.ord = 0 then overflowTrap i need (activeLanes i m) else none
      let early := alignTraps w ts ++ lockTraps s i false true (ts.map fun t => (t.1, t.2, w))
      match pickTrap early, over_ with
      | none, some (c, need, lanes) => trapHere s i c (BitVec.ofNat 64 need) lanes
      | _, _ =>
        let (v, s1) := judge s i true true (decide (m.ord ≠ 0)) early misuse (ts.flatMap fun t => touchesOf t.1 t.2 w)
        onVerdict s1 i true v fun ms =>
          let ws := ts.map fun t => BufWrite.reduce t.2 (f m.ty) m.ty w (BitVec.ofNat 64 (atomOperand i b m w t.1))
          if m.ord = 0 then finish (bufferWrites s1 i need ws) i
          else releasing s1 i (scopeOf ms) fun s2 => finish (sendEntry s2 i.gid [i.fid] i.ck i.k.ctx ws) i

/-- REDADD. -/
def execRedadd (a b : LReg) (s : State) : Out := laneReduce a b [0, 6, 7, 12, 13] (fun _ => .add) s
/-- REDFADD. -/
def execRedfadd (a b : LReg) (s : State) : Out := laneReduce a b [0, 1] (fun _ => .fadd) s
/-- REDMIN. -/
def execRedmin (a b : LReg) (s : State) : Out :=
  laneReduce a b [0, 6, 7, 12, 13] (fun t => if atomUnsigned t then .umin else .smin) s
/-- REDMAX. -/
def execRedmax (a b : LReg) (s : State) : Out :=
  laneReduce a b [0, 6, 7, 12, 13] (fun t => if atomUnsigned t then .umax else .smax) s

end Sys2Proof.Machine
end

