-- ==== Sys2Proof/Machine/Flags.lean ====
section
/-! DEFINITION. Conditions and class masks: what the compares and FCLASS compute (05 R116, R121; 06 R132, R136). -/

namespace Sys2Proof.Machine

/-- The signed conditions of ICMP, codes 0 to 5 (R116). -/
def condSigned (c a b : Nat) : Bool :=
  let x := toSigned 32 a
  let y := toSigned 32 b
  match c with
  | 0 => decide (x = y) | 1 => decide (x ≠ y) | 2 => decide (x < y)
  | 3 => decide (x ≤ y) | 4 => decide (y < x) | 5 => decide (y ≤ x) | _ => false

/-- The unsigned conditions of UCMP, codes 0 to 5 (R116). -/
def condUnsigned (c a b : Nat) : Bool :=
  match c with
  | 0 => decide (a = b) | 1 => decide (a ≠ b) | 2 => decide (a < b)
  | 3 => decide (a ≤ b) | 4 => decide (b < a) | 5 => decide (b ≤ a) | _ => false

/-- The FP32 conditions of FCMP, codes 0 to 7 (R116). -/
def condFloat (c a b : Nat) : Bool :=
  let o := Ext.cmp (Fmt.fp32.value a) (Fmt.fp32.value b)
  match c with
  | 0 => o = some .eq
  | 1 => o ≠ some .eq
  | 2 => o = some .lt
  | 3 => o = some .lt || o = some .eq
  | 4 => o = some .gt
  | 5 => o = some .gt || o = some .eq
  | 6 => o.isSome
  | 7 => o.isNone
  | _ => false

/-- The class mask of an FP32 operand (R121). -/
def classMask (a : Nat) : Nat :=
  match Fmt.fp32.value a with
  | .nan => 2 ^ 8
  | .inf neg => if neg then 2 ^ 0 else 2 ^ 7
  | .fin neg m _ _ =>
    if m = 0 then (if neg then 2 ^ 3 else 2 ^ 4)
    else if a / 2 ^ 23 % 256 = 0 then (if neg then 2 ^ 2 else 2 ^ 5)
    else if neg then 2 ^ 1 else 2 ^ 6

/-- The test that BRC's SNS selects (04 R88): zero, nonzero, negative, not negative. -/
def branchTest (sns : Nat) (x : Word) : Bool :=
  match sns with
  | 0 => x = 0
  | 1 => x ≠ 0
  | 2 => x.msb
  | _ => !x.msb

end Sys2Proof.Machine
end

