-- ==== Sys2Proof/Machine/LaneInt.lean ====
section
/-! DEFINITION. Integer arithmetic, logic, shifts, bit fields, compares, selection and moves (05 R111 to R118). -/

namespace Sys2Proof.Machine

/-! ## Shared computations -/

/-- The form of the arithmetic instructions that take the 64-bit types (R113). -/
def Form.arith64 (b : Use) (imm : ImmUse) : Form :=
  let wide (n w : Use) (t : Nat) : Use := if t = 12 ∨ t = 13 then w else n
  { types := [0, 6, 7, 12, 13], sat := true, d := wide .dst .dstPair, a := wide .src .srcPair,
    b := if b = .imm then fun _ => .imm else wide .src .srcPair, c := fun _ => .unused, imm := imm, rep := true,
    counting := false, ords := [0] }

/-- The width of an integer TYPE (R112). -/
def intWidth (ty : Nat) : Nat := if ty = 12 ∨ ty = 13 then 64 else 32

/-- Whether an integer TYPE reads its operands as signed (R112). -/
def intSigned (ty : Nat) : Bool := !(ty = 7 || ty = 13)

/-- An operand as an integer TYPE reads it (R112). -/
def intRead (ty v : Nat) : Int := if intSigned ty then toSigned (intWidth ty) v else (v % 2 ^ intWidth ty : Nat)

/-- An exact integer result stored under a TYPE: clamped to the type's range under SAT, then wrapped (R112). -/
def intStore (ty : Nat) (sat : Bool) (x : Int) : Nat :=
  let w := intWidth ty
  let y := if sat then
      (if intSigned ty then clamp (-(2 ^ (w - 1) : Nat)) ((2 ^ (w - 1) : Nat) - 1) x else clamp 0 ((2 ^ w : Nat) - 1) x)
    else x
  wrapTo w y

/-- An arithmetic result over A and B. `immB` says that B is an immediate, read signed whatever the type (R112);
that this covers the value of a PFXI is the model's reading (log entry 24). -/
def arith (op : Int → Int → Int → Int) (immB : Mods → Bool) : LaneFn :=
  LaneFn.pure fun m x l =>
    let b := if immB m then toSigned (intWidth m.ty) (x.b l) else intRead m.ty (x.b l)
    intStore m.ty m.sat (op (intRead m.ty (x.a l)) b (intRead m.ty (x.c l)))

/-- A 32-bit result over A, B and C as unsigned numbers. -/
def bitsFn (f : Nat → Nat → Nat → Nat) : LaneFn := LaneFn.pure fun _ x l => f (x.a l) (x.b l) (x.c l) % 2 ^ 32

/-- SHL (R114). -/
def shlWord (a n : Nat) : Nat := if 32 ≤ n then 0 else a * 2 ^ n % 2 ^ 32
/-- SHR (R114). -/
def shrWord (a n : Nat) : Nat := if 32 ≤ n then 0 else a / 2 ^ n
/-- SAR (R114). -/
def sarWord (a n : Nat) : Nat := wrapTo 32 (toSigned 32 a / (2 ^ min n 31 : Nat))
/-- ROL (R114). -/
def rolWord (a n : Nat) : Nat := (a * 2 ^ (n % 32) + a / 2 ^ (32 - n % 32)) % 2 ^ 32
/-- POPC (R114). -/
def popcWord (a : Nat) : Nat := ((List.range 32).filter fun j => bits a j j = 1).length
/-- CLZ (R114). -/
def clzWord (a : Nat) : Nat := if a % 2 ^ 32 = 0 then 32 else 31 - Nat.log2 (a % 2 ^ 32)
/-- BREV (R114). -/
def brevWord (a : Nat) : Nat := ((List.range 32).map fun j => bits a (31 - j) (31 - j) * 2 ^ j).sum
/-- BFX (R115). -/
def bfxWord (signed : Bool) (a b : Nat) : Nat :=
  let pos := bits b 4 0
  let n := min (bits b 13 8) (32 - pos)
  let f := a / 2 ^ pos % 2 ^ n
  if n = 0 then 0 else if signed then wrapTo 32 (toSigned n f) else f
/-- BFI (R115). -/
def bfiWord (a b c : Nat) : Nat :=
  let pos := bits b 4 0
  let n := min (bits b 13 8) (32 - pos)
  c - bits c (pos + n - 1) pos % 2 ^ n * 2 ^ pos + a % 2 ^ n * 2 ^ pos

/-- A form over A and B of 32 bits that takes TYPE 0 alone. -/
def Form.plain2 : Form := .regs [0] false .src .src .unused
/-- A form over A of 32 bits that takes TYPE 0 alone. -/
def Form.plain1 : Form := .regs [0] false .src .unused .unused
/-- The LI form (04 R86); `shift` marks the shifts. -/
def Form.li (shift : Bool) : Form := { Form.regs [0] false .src .imm .unused with imm := .li shift }
/-- The LC form (04 R86). -/
def Form.compare (types : List Nat) : Form := { Form.regs types false .src .src .unused with d := fun _ => .imm }

/-- The LI immediate, sign-extended at the TYPE's width (R113, 04 R87, R94). -/
def liSigned (x : BitVec 8) (m : Mods) : Nat :=
  wrapTo (intWidth m.ty) (match m.imm with | some y => y.toInt | none => x.toInt)
/-- The LI immediate, zero-extended (04 R87, R94). -/
def liZero (x : BitVec 8) (m : Mods) : Nat := match m.imm with | some y => y.toNat | none => x.toNat
/-- The LI shift count (04 R87, R94). -/
def liShift (x : BitVec 5) (m : Mods) : Nat := match m.imm with | some y => y.toNat | none => x.toNat

/-- What the B field of an encoding holds where an immediate prefix requires 0x00 (04 R94). -/
def lowOf (b : LReg) : Nat := match b with | .v k => k.val | _ => 1

/-- An instruction over register fields D, A and B. -/
def laneReg (s : State) (fm : Form) (d a b : LReg) (fn : LaneFn) : Out :=
  withIssuing s fun i => laneRun s i fm d a b (lowOf b) (fun m => bImm (intWidth m.ty) m) fn .regs

/-- An instruction over register fields D and A, with an immediate in place of B. -/
def laneImm (s : State) (fm : Form) (d a : LReg) (low : Nat) (imm : Mods → Nat) (fn : LaneFn) : Out :=
  withIssuing s fun i => laneRun s i fm d a .zero low imm fn .regs

/-- A compare (R116, R117): a condition code above `top`, and predicate 0, are illegal. -/
def laneCompare (s : State) (types : List Nat) (top : Nat) (c : BitVec 5) (p : BitVec 3) (a b : LReg)
    (cond : Nat → Nat → Nat → Bool) : Out :=
  withIssuing s fun i =>
    if top < c.toNat ∨ p = 0 then illegal s i
    else laneRun s i (.compare types) .zero a b (lowOf b) (bImm 32)
      (LaneFn.pure fun _ x l => if cond c.toNat (x.a l) (x.b l) then 1 else 0) (.pred p.toNat)

/-! ## Integer arithmetic (R111, R112) -/

/-- IADD. -/
def execIadd (d a b : LReg) (s : State) : Out :=
  laneReg s (.arith64 .src .b) d a b (arith (fun a b _ => a + b) fun m => m.imm.isSome)
/-- ISUB. -/
def execIsub (d a b : LReg) (s : State) : Out :=
  laneReg s (.arith64 .src .b) d a b (arith (fun a b _ => a - b) fun m => m.imm.isSome)
/-- IMUL. -/
def execImul (d a b : LReg) (s : State) : Out :=
  laneReg s (.regs [0, 6, 7] true .src .src .unused) d a b (arith (fun a b _ => a * b) fun m => m.imm.isSome)
/-- IMULH. -/
def execImulh (d a b : LReg) (s : State) : Out :=
  laneReg s .plain2 d a b (bitsFn fun a b _ => wrapTo 32 (toSigned 32 a * toSigned 32 b / (2 ^ 32 : Nat)))
/-- UMULH. -/
def execUmulh (d a b : LReg) (s : State) : Out := laneReg s .plain2 d a b (bitsFn fun a b _ => a * b / 2 ^ 32)
/-- IMAD. -/
def execImad (d a b : LReg) (s : State) : Out :=
  laneReg s (.regs [0, 6, 7] true .src .src .src) d a b (arith (fun a b c => a * b + c) fun m => m.imm.isSome)
/-- IMIN. -/
def execImin (d a b : LReg) (s : State) : Out :=
  laneReg s .plain2 d a b (bitsFn fun a b _ => if toSigned 32 b < toSigned 32 a then b else a)
/-- IMAX. -/
def execImax (d a b : LReg) (s : State) : Out :=
  laneReg s .plain2 d a b (bitsFn fun a b _ => if toSigned 32 a < toSigned 32 b then b else a)
/-- UMIN. -/
def execUmin (d a b : LReg) (s : State) : Out := laneReg s .plain2 d a b (bitsFn fun a b _ => min a b)
/-- UMAX. -/
def execUmax (d a b : LReg) (s : State) : Out := laneReg s .plain2 d a b (bitsFn fun a b _ => max a b)
/-- IADDI. -/
def execIaddi (d a : LReg) (i : BitVec 8) (s : State) : Out :=
  laneImm s (.arith64 .imm (.li false)) d a i.toNat (liSigned i) (arith (fun a b _ => a + b) fun _ => true)

/-! ## Logic, shifts and bit fields (R114, R115) -/

/-- AND. -/
def execAnd (d a b : LReg) (s : State) : Out := laneReg s .plain2 d a b (bitsFn fun a b _ => a &&& b)
/-- OR. -/
def execOr (d a b : LReg) (s : State) : Out := laneReg s .plain2 d a b (bitsFn fun a b _ => a ||| b)
/-- XOR. -/
def execXor (d a b : LReg) (s : State) : Out := laneReg s .plain2 d a b (bitsFn fun a b _ => a ^^^ b)
/-- ANDN. -/
def execAndn (d a b : LReg) (s : State) : Out := laneReg s .plain2 d a b (bitsFn fun a b _ => a - (a &&& b))
/-- SHL. -/
def execShl (d a b : LReg) (s : State) : Out := laneReg s .plain2 d a b (bitsFn fun a b _ => shlWord a b)
/-- SHR. -/
def execShr (d a b : LReg) (s : State) : Out := laneReg s .plain2 d a b (bitsFn fun a b _ => shrWord a b)
/-- SAR. -/
def execSar (d a b : LReg) (s : State) : Out := laneReg s .plain2 d a b (bitsFn fun a b _ => sarWord a b)
/-- ROL. -/
def execRol (d a b : LReg) (s : State) : Out := laneReg s .plain2 d a b (bitsFn fun a b _ => rolWord a b)
/-- POPC. -/
def execPopc (d a : LReg) (s : State) : Out := laneReg s .plain1 d a .zero (bitsFn fun a _ _ => popcWord a)
/-- CLZ. -/
def execClz (d a : LReg) (s : State) : Out := laneReg s .plain1 d a .zero (bitsFn fun a _ _ => clzWord a)
/-- BREV. -/
def execBrev (d a : LReg) (s : State) : Out := laneReg s .plain1 d a .zero (bitsFn fun a _ _ => brevWord a)
/-- BFX. -/
def execBfx (d a b : LReg) (s : State) : Out :=
  laneReg s (.regs [0, 6, 7] false .src .src .unused) d a b
    (LaneFn.pure fun m x l => bfxWord (m.ty = 6) (x.a l) (x.b l))
/-- BFI. -/
def execBfi (d a b : LReg) (s : State) : Out :=
  laneReg s (.regs [0] false .src .src .src) d a b (bitsFn fun a b c => bfiWord a b c)
/-- SHLI. -/
def execShli (d a : LReg) (i : BitVec 5) (s : State) : Out :=
  laneImm s (.li true) d a i.toNat (liShift i) (bitsFn fun a b _ => shlWord a b)
/-- SHRI. -/
def execShri (d a : LReg) (i : BitVec 5) (s : State) : Out :=
  laneImm s (.li true) d a i.toNat (liShift i) (bitsFn fun a b _ => shrWord a b)
/-- SARI. -/
def execSari (d a : LReg) (i : BitVec 5) (s : State) : Out :=
  laneImm s (.li true) d a i.toNat (liShift i) (bitsFn fun a b _ => sarWord a b)
/-- ANDI. -/
def execAndi (d a : LReg) (i : BitVec 8) (s : State) : Out :=
  laneImm s (.li false) d a i.toNat (liZero i) (bitsFn fun a b _ => a &&& b)
/-- ORI. -/
def execOri (d a : LReg) (i : BitVec 8) (s : State) : Out :=
  laneImm s (.li false) d a i.toNat (liZero i) (bitsFn fun a b _ => a ||| b)
/-- XORI. -/
def execXori (d a : LReg) (i : BitVec 8) (s : State) : Out :=
  laneImm s (.li false) d a i.toNat (liZero i) (bitsFn fun a b _ => a ^^^ b)

/-! ## Compares, selection, moves (R116 to R118) -/

/-- ICMP. -/
def execIcmp (c : BitVec 5) (p : BitVec 3) (a b : LReg) (s : State) : Out := laneCompare s [0] 5 c p a b condSigned
/-- UCMP. -/
def execUcmp (c : BitVec 5) (p : BitVec 3) (a b : LReg) (s : State) : Out := laneCompare s [0] 5 c p a b condUnsigned
/-- FCMP. -/
def execFcmp (c : BitVec 5) (p : BitVec 3) (a b : LReg) (s : State) : Out := laneCompare s [0, 1] 7 c p a b condFloat
/-- MOV; under TYPE 12 it moves a pair. -/
def execMov (d a : LReg) (s : State) : Out :=
  let wide (n w : Use) (t : Nat) : Use := if t = 12 then w else n
  laneReg s { Form.regs [0, 12] false .src .unused .unused with d := wide .dst .dstPair, a := wide .src .srcPair }
    d a .zero (LaneFn.pure fun _ x l => x.a l)
/-- SEL. -/
def execSel (d a b : LReg) (s : State) : Out :=
  laneReg s (.regs [0] false .src .src .src) d a b (bitsFn fun a b c => if c = 0 then b else a)
/-- MOVI, or a 32-bit immediate under PFXI. -/
def execMovi (d : LReg) (i : BitVec 16) (s : State) : Out :=
  laneImm s { Form.regs [0] false .imm .imm .unused with imm := .lw } d .zero 0
    (fun m => match m.imm with | some x => x.toNat * 65536 + i.toNat | none => wrapTo 32 i.toInt)
    (bitsFn fun _ b _ => b)

end Sys2Proof.Machine
end

