-- ==== Sys2Proof/Machine/Uniform.lean ====
section
/-! DEFINITION. Scalar, predicate and lane-moving uniform instructions, time and noise (06 R131 to R135, R145, R147). -/

namespace Sys2Proof.Machine

/-- What every uniform instruction does first (R131): it takes no prefix, and a pending token among its S registers
holds it (04 R85). -/
def uniform (s : State) (ok : Iss → Bool) (regs : List Nat) (act : Iss → State) : Out :=
  withIssuing s fun i =>
    if i.f.chain.isSome ∨ !ok i then illegal s i
    else match pendingS i.g regs with
      | some k => waitOn s i.gid i.fid (.token k)
      | none => act i

/-- A pair of S registers (02 R40). -/
def pairRegs (k : BitVec 6) : List Nat := [k.toNat, k.toNat + 1]

/-- Whether a register may begin a pair (02 R40). -/
def evenReg (k : BitVec 6) : Bool := k.toNat % 2 = 0

/-- The issuing group's S register written, and the fibre past its word. -/
def putS (s : State) (i : Iss) (d : BitVec 6) (x : Word) : State :=
  finish (updGroup s i.gid fun g => g.writeS d.toNat x) i

/-- The issuing group's S pair written, and the fibre past its word. -/
def putPair (s : State) (i : Iss) (d : BitVec 6) (x : DWord) : State :=
  finish (updGroup s i.gid fun g => g.writePair d.toNat x) i

/-- A scalar result over two S registers (R132). -/
def scalar2 (s : State) (d a b : BitVec 6) (f : Nat → Nat → Nat) : Out :=
  uniform s (fun _ => true) [d.toNat, a.toNat, b.toNat] fun i =>
    putS s i d (BitVec.ofNat 32 (f (i.g.readS a.toNat).toNat (i.g.readS b.toNat).toNat))

/-- A scalar result over one S register (R132). -/
def scalar1 (s : State) (d a : BitVec 6) (f : Nat → Nat) : Out :=
  uniform s (fun _ => true) [d.toNat, a.toNat] fun i => putS s i d (BitVec.ofNat 32 (f (i.g.readS a.toNat).toNat))

/-- SADD. -/
def execSadd (d a b : BitVec 6) (s : State) : Out := scalar2 s d a b fun a b => a + b
/-- SSUB. -/
def execSsub (d a b : BitVec 6) (s : State) : Out := scalar2 s d a b fun a b => a + 2 ^ 32 - b
/-- SMUL. -/
def execSmul (d a b : BitVec 6) (s : State) : Out := scalar2 s d a b fun a b => a * b
/-- SMULH; `u` selects the unsigned product. -/
def execSmulh (d a b : BitVec 6) (u : BitVec 1) (s : State) : Out :=
  scalar2 s d a b fun a b =>
    if u = 1 then a * b / 2 ^ 32 else wrapTo 32 (toSigned 32 a * toSigned 32 b / (2 ^ 32 : Nat))
/-- SAND. -/
def execSand (d a b : BitVec 6) (s : State) : Out := scalar2 s d a b fun a b => a &&& b
/-- SOR. -/
def execSor (d a b : BitVec 6) (s : State) : Out := scalar2 s d a b fun a b => a ||| b
/-- SXOR. -/
def execSxor (d a b : BitVec 6) (s : State) : Out := scalar2 s d a b fun a b => a ^^^ b
/-- SSHL, count from a register. -/
def execSshl (d a b : BitVec 6) (s : State) : Out := scalar2 s d a b shlWord
/-- SSHL, count from FN. -/
def execSshlImm (d a : BitVec 6) (n : BitVec 5) (s : State) : Out := scalar1 s d a fun a => shlWord a n.toNat
/-- SSHR, count from a register. -/
def execSshr (d a b : BitVec 6) (s : State) : Out := scalar2 s d a b shrWord
/-- SSHR, count from FN. -/
def execSshrImm (d a : BitVec 6) (n : BitVec 5) (s : State) : Out := scalar1 s d a fun a => shrWord a n.toNat
/-- SSAR, count from a register. -/
def execSsar (d a b : BitVec 6) (s : State) : Out := scalar2 s d a b sarWord
/-- SSAR, count from FN. -/
def execSsarImm (d a : BitVec 6) (n : BitVec 5) (s : State) : Out := scalar1 s d a fun a => sarWord a n.toNat
/-- SMIN; `u` compares unsigned. -/
def execSmin (d a b : BitVec 6) (u : BitVec 1) (s : State) : Out :=
  scalar2 s d a b fun a b => if u = 1 then min a b else if toSigned 32 b < toSigned 32 a then b else a
/-- SMAX; `u` compares unsigned. -/
def execSmax (d a b : BitVec 6) (u : BitVec 1) (s : State) : Out :=
  scalar2 s d a b fun a b => if u = 1 then max a b else if toSigned 32 a < toSigned 32 b then b else a
/-- SCMP: condition codes 6 and 7 are illegal; `u` compares unsigned. -/
def execScmp (d a b : BitVec 6) (u : BitVec 1) (c : BitVec 3) (s : State) : Out :=
  uniform s (fun _ => c.toNat ≤ 5) [d.toNat, a.toNat, b.toNat] fun i =>
    let x := (i.g.readS a.toNat).toNat
    let y := (i.g.readS b.toNat).toNat
    putS s i d (if (if u = 1 then condUnsigned c.toNat x y else condSigned c.toNat x y) then 1 else 0)
/-- SSEL. -/
def execSsel (d a b c : BitVec 6) (s : State) : Out :=
  uniform s (fun _ => true) [d.toNat, a.toNat, b.toNat, c.toNat] fun i =>
    putS s i d (if i.g.readS c.toNat ≠ 0 then i.g.readS a.toNat else i.g.readS b.toNat)
/-- SPOPC. -/
def execSpopc (d a : BitVec 6) (s : State) : Out := scalar1 s d a popcWord
/-- SCLZ. -/
def execSclz (d a : BitVec 6) (s : State) : Out := scalar1 s d a clzWord
/-- SMOV. -/
def execSmov (d a : BitVec 6) (s : State) : Out := scalar1 s d a fun a => a
/-- SMOVI. -/
def execSmovi (d : BitVec 6) (x : BitVec 18) (s : State) : Out :=
  uniform s (fun _ => true) [d.toNat] fun i => putS s i d (x.signExtend 32)
/-- SMOVH. -/
def execSmovh (d : BitVec 6) (x : BitVec 16) (s : State) : Out :=
  uniform s (fun _ => true) [d.toNat] fun i => putS s i d (x ++ (i.g.readS d.toNat).extractLsb' 0 16)
/-- SADDI. -/
def execSaddi (d : BitVec 6) (x : BitVec 18) (s : State) : Out :=
  uniform s (fun _ => true) [d.toNat] fun i => putS s i d (i.g.readS d.toNat + x.signExtend 32)
/-- SADD64. -/
def execSadd64 (d a b : BitVec 6) (s : State) : Out :=
  uniform s (fun _ => evenReg d && evenReg a && evenReg b) (pairRegs d ++ pairRegs a ++ pairRegs b) fun i =>
    putPair s i d (i.g.readPair a.toNat + i.g.readPair b.toNat)

/-! ## Predicates and lanes (R134, R135) -/

/-- A predicate result over the lanes of the fibre's P0; a destination of P0 is illegal (02 R31). -/
def predicate (s : State) (d : BitVec 3) (regs : List Nat) (ok : Bool) (f : Iss → Mask) : Out :=
  uniform s (fun _ => d ≠ 0 && ok) regs fun i =>
    finish (updGroup s i.gid fun g => g.writeP d.toNat i.f.p0 (f i)) i

/-- SBALLOT Pd, Sa. -/
def execSballot (p : BitVec 3) (a : BitVec 6) (s : State) : Out :=
  predicate s p (pairRegs a) (evenReg a) fun i => i.g.readPair a.toNat
/-- SBALLOT Sd, Pa. -/
def execSballotToS (d : BitVec 6) (p : BitVec 3) (s : State) : Out :=
  uniform s (fun _ => evenReg d) (pairRegs d) fun i => putPair s i d (i.g.readP i.f.p0 p.toNat &&& i.f.p0)
/-- PAND. -/
def execPand (d a b : BitVec 3) (s : State) : Out :=
  predicate s d [] true fun i => i.g.readP i.f.p0 a.toNat &&& i.g.readP i.f.p0 b.toNat
/-- POR. -/
def execPor (d a b : BitVec 3) (s : State) : Out :=
  predicate s d [] true fun i => i.g.readP i.f.p0 a.toNat ||| i.g.readP i.f.p0 b.toNat
/-- PXOR. -/
def execPxor (d a b : BitVec 3) (s : State) : Out :=
  predicate s d [] true fun i => i.g.readP i.f.p0 a.toNat ^^^ i.g.readP i.f.p0 b.toNat
/-- PNOT. -/
def execPnot (d a : BitVec 3) (s : State) : Out := predicate s d [] true fun i => ~~~(i.g.readP i.f.p0 a.toNat)

/-- Whether a VREG field names a V register of the window or an O register (R135). -/
def vregOk (w : Nat) (v : LReg) : Bool := match v with | .v k => decide (k.val < w) | .o _ => true | _ => false

/-- RDLANE. -/
def execRdlane (d a : BitVec 6) (v : LReg) (s : State) : Out :=
  uniform s (fun i => vregOk i.g.window v) [d.toNat, a.toNat] fun i =>
    if onBoard i.g [(.src, v)] then stallFibre s i.gid i.fid (.board (heldCodes i.g.board [(.src, v)]))
    else
      let l := (i.g.readS a.toNat).toNat
      putS s i d (if l < i.g.width ∧ Mask.has (i.g.held i.f.p0) l then readReg i.g i.f v l else 0)
/-- WRLANE: it waits for the lane instructions in flight alone; its own write stands at its issue (21 R420). -/
def execWrlane (d a : BitVec 6) (v : LReg) (s : State) : Out :=
  uniform s (fun i => vregOk i.g.window v) [d.toNat, a.toNat] fun i =>
    if onBoard i.g [(.dst, v)] then stallFibre s i.gid i.fid (.board (heldCodes i.g.board [(.dst, v)]))
    else
      let l := (i.g.readS a.toNat).toNat
      if l < i.g.width ∧ Mask.has i.f.p0 l then
        finish (updGroup s i.gid fun g => writeReg g v l (i.g.readS d.toNat)) i
      else finish s i

/-! ## Time and noise (R145, R147) -/

/-- RDTIME. -/
def execRdtime (d : BitVec 6) (s : State) : Out :=
  uniform s (fun _ => evenReg d) (pairRegs d) fun i => putPair s i d (BitVec.ofNat 64 (gtOf s i.g.die))

/-- RNG: two draws, the first in the high half. -/
def execRng (d : BitVec 6) (s : State) : Out :=
  uniform s (fun _ => true) [d.toNat] fun i =>
    let s := openReplay s i.k i.g 2
    match drawValues s i.k i.g 2 with
    | none => waitOn s i.gid i.fid (.noise 2)
    | some vs => putS (commitDraws s i.gid 2) i d (BitVec.ofNat 32 (vs.getD 0 0 * 65536 + vs.getD 1 0))

end Sys2Proof.Machine
end

