-- ==== Sys2Proof/Machine/Fetch.lean ====
section
/-! DEFINITION. Fetching words and opening clauses (04 R80 to R84; 10 R218, R229, R230; 18 R386). -/

namespace Sys2Proof.Machine

/-- What a fetch meets (10 R218). -/
inductive FetchRes where
  | word (w : Word)
  | poison
  | wait
  deriving DecidableEq, Repr

/-- The key of a word in a core's instruction cache, tagged by virtual address, below 2^56 (02 R48), and context (10 R229). -/
def icKey (ck ctx va : Nat) : Nat := (ck * 2 ^ 12 + ctx) * 2 ^ 56 + va

/-- A word fetched for a group: from what the core fetched ahead, its instruction cache, or memory (10 R230), by way of the
core's L1 where that is the page's point of coherence (09 R191; 10 R231). An address of 2^56 or more is unmapped (02 R49).
A page in STATE 0 posts a page request and one in STATE 1 begins staging. -/
def fetchWord (s : State) (gid : Nat) (g : Group) (k : Kernel) (va : Nat) : FetchRes × State :=
  let ck := coreKey g.die g.core
  match Table.look g.ahead va with
  | some w => (.word w, updGroup s gid fun g => { g with ahead := Table.del g.ahead va })
  | none =>
    match if va < 2 ^ 56 then Table.look s.icache (icKey ck k.ctx va) else none with
    | some w => (.word w, s)
    | none =>
      let (p, s) := translate s ck k.ctx va
      let key := p.key s k.ctx g.die va
      match p.st with
      | 0 => (.wait, pageRequest s k.ctx g.die va (groupIdent g))
      | 1 => (.wait, startStaging s k.ctx p)
      | 2 => (.wait, s)
      | 5 => (.wait, s)
      | _ =>
        if poisoned s key then (.poison, s)
        else
          let (bs, s) := if inL1 p then codeBytes s ck k.ctx key 4 else engineRead s k.ctx g.die key 4
          let w := BitVec.ofNat 32 (ofBytes bs)
          (.word w, { s with icache := Table.ins s.icache (icKey ck k.ctx va) w })

/-- The words after a CLAUSE word, as fetched; a word on a poisoned line is `none`. `none` altogether where a page
makes the fetch wait; the address it waits at. -/
def fetchRest (gid : Nat) (g : Group) (k : Kernel) : Nat → Nat → State → (Except Nat (List (Option Word))) × State
  | 0, _, s => (.ok [], s)
  | n + 1, va, s =>
    match fetchWord s gid g k va with
    | (.wait, s) => (.error va, s)
    | (.poison, s) =>
      match fetchRest gid g k n (va + 4) s with
      | (.ok ws, s) => (.ok (none :: ws), s)
      | (.error e, s) => (.error e, s)
    | (.word w, s) =>
      match fetchRest gid g k n (va + 4) s with
      | (.ok ws, s) => (.ok (some w :: ws), s)
      | (.error e, s) => (.error e, s)

/-- Whether a word is a lane word: bit 31 clear. -/
def isLaneWord (w : Word) : Bool := !w.msb

/-- Whether a word is PFX, PFXI or REP (04 R90). -/
def isModifierWord (w : Word) : Bool := let o := (field w 24 8).toNat; o = 0x81 || o = 0x82 || o = 0x83

/-- Whether a word is a control transfer (04 R81): BRA, BRC, BRP, CALL, RET, FDONE, JOIN or EXIT. -/
def isTransferWord (w : Word) : Bool :=
  let o := (field w 24 8).toNat
  o = 0x85 || o = 0x86 || o = 0x87 || o = 0x88 || o = 0x89 || o = 0x8B || o = 0x8C || o = 0x8F

/-- R81's checks over a clause's words, in order: transfers only last, and every prefix chain inside and ending in a
lane instruction. -/
def clauseWordsOk : List (Option Word) → Bool
  | [] => true
  | [some w] => !isModifierWord w
  | some w :: rest =>
    !isTransferWord w &&
    (!isModifierWord w || (match rest with
      | some v :: _ => isLaneWord v || isModifierWord v
      | _ => true)) && clauseWordsOk rest
  | none :: rest => clauseWordsOk rest

/-- R83's field checks. -/
def clauseFieldsOk (a b : Nat) : Bool := decide (a ≤ 12 ∧ b ≤ 12) && (b = 0 || (a ≠ 0 && a ≠ b))

/-- The trace record of a clause start (18 R386): {PC, GT[31:0], identifier} at TRCB + TRCPOS, while there is room. A
record that a page holds up waits with the context's other writes; one that a page refuses is lost (log entry 8). -/
def traceClause (s : State) (i : Iss) : State :=
  match ctxAt s i.k.ctx with
  | none => s
  | some c =>
    if debugOn s i.k.ctx 1 ∧ c.trcpos.toNat + 16 ≤ c.trcsz.toNat then
      let r := toBytes 8 i.f.pc.toNat ++ toBytes 4 (gtOf s i.g.die) ++ toBytes 4 (groupIdent i.g)
      let s := updCtx s i.k.ctx fun c => { c with trcpos := c.trcpos + 16 }
      match cpWrite s i.k.ctx i.g.die (c.trcb.toNat + c.trcpos.toNat) r with
      | some (w, s) => updGroup s i.gid fun g => { g with wctMax := max g.wctMax w }
      | none => sendOut s i.k.ctx i.g.die (.bytes (c.trcb.toNat + c.trcpos.toNat) r)
    else s

/-- What the core fetches ahead past a clause: the next word, or nothing, by a free choice (10 R230, log entry 10). -/
def fetchAhead (s : State) (gid : Nat) (va : Nat) : State :=
  match groupAt s gid with
  | none => s
  | some g =>
    match kernelAt s g.kernel with
    | none => s
    | some k =>
      let (n, s) := choose s 2
      let p := translateCp s k.ctx va
      let key := p.key s k.ctx g.die va
      if n = 1 ∧ (p.st = 3 ∨ p.st = 4 ∨ p.st = 6 ∨ p.st = 7) ∧ !poisoned s key ∧
          !trafficHeld s g.die (homeDie s k.ctx key) then
        let w := match if va < 2 ^ 56 then Table.look s.icache (icKey (coreKey g.die g.core) k.ctx va) else none with
          | some w => w
          | none => BitVec.ofNat 32 (ofBytes (if inL1 p then (codeBytes s (coreKey g.die g.core) k.ctx key 4).1
              else (engineRead s k.ctx g.die key 4).1))
        updGroup s gid fun g => { g with ahead := Table.ins g.ahead va w }
      else s

/-- CLAUSE (04 R80, R81, R83): the waits, the statuses owed, the fetch of its words and R81's checks, of which those of the
CLAUSE word alone need no other word; then the clause is open, with L0 to L3 zero, and STEP traps (18 R386). -/
def execClause (w : BitVec 12) (a b l : BitVec 4) (s : State) : Out :=
  withIssuing s fun i =>
    if i.f.clause.isSome then illegal s i
    else if !flagsClear i.g w then waitOn s i.gid i.fid (.flags w)
    else
      let n := l.toNat + 1
      let clause (ws : List (Option Word)) : Clause := { start := i.f.pc, flagA := a.toNat, flagB := b.toNat, words := ws }
      let headOk := clauseFieldsOk a.toNat b.toNat && decide (i.f.pc.toNat / 65536 = (i.f.pc.toNat + 4 * n) / 65536)
      match fetchRest i.gid i.g i.k n (i.f.pc.toNat + 4) s with
      | (.error va, t) =>
        if headOk then waitOn t i.gid i.fid (.fetch va)
        else takeTrap s i.gid i.fid 0x01 i.f.pc 0 0 (some (clause (List.replicate n none)))
      | (.ok ws, s) =>
        let cl := clause ws
        if !(headOk && clauseWordsOk ws) then takeTrap s i.gid i.fid 0x01 i.f.pc 0 0 (some cl)
        else match owedTrap s i w (some cl) with
          | some s => s
          | none =>
            let s := traceClause s i
            let s := updFibre s i.gid i.fid fun f =>
              { f with clause := some cl, last := [], pc := f.pc + 4, branch := none, chain := none }
            stepTrap (fetchAhead s i.gid (i.f.pc.toNat + 4 * (n + 1))) i

/-- ICINV (10 R229): the lines dropped from the instruction caches of every core of the partition's active dies; the
fibre waits until every core has acknowledged. -/
def execIcinv (a b : BitVec 6) (s : State) : Out :=
  uniform s (fun _ => evenReg a) (pairRegs a ++ [b.toNat]) fun i =>
    let lo := (i.g.readPair a.toNat).toNat
    let n := (i.g.readS b.toNat).toNat
    let first := lo / 128 * 128
    let last := (lo + n + 127) / 128 * 128
    let dies := ctxRanks s i.k.ctx
    let s := if n = 0 then s else
      { s with icache := Table.sel s.icache fun key _ =>
          let va := key % 2 ^ 56
          let tag := key / 2 ^ 56
          !(tag % 2 ^ 12 = i.k.ctx && dies.contains (coreDie (tag / 2 ^ 12)) && decide (first ≤ va ∧ va < last)) }
    waitOn s i.gid i.fid .icinv

/-- ISYNC (10 R230): what the core fetched ahead for the group is discarded. -/
def execIsync (s : State) : Out :=
  uniform s (fun _ => true) [] fun i => finish (updGroup s i.gid fun g => { g with ahead := [] }) i

end Sys2Proof.Machine
end

