-- ==== Sys2Proof/Machine/Fibres.lean ====
section
/-! DEFINITION. Barriers, joins and what follows when a group's set of fibres changes (07 R150 to R157; 08 R174 to
R178, R185). -/

namespace Sys2Proof.Machine

/-! ## Barrier instances -/

/-- Whether a kernel declares a barrier that a group is a member of (08 R174, R175, R179). -/
def barrierOk (k : Kernel) (g : Group) (level num : Nat) : Bool :=
  match level with
  | 0 => decide (num ≤ 3) && decide (bits k.bars num num = 1)
  | 1 => decide (k.bmask num ≠ 0) && decide (bits (k.bmask num) g.s1 g.s1 = 1)
  | 2 => decide (num ≤ 7) && decide (bits k.bars (4 + num) (4 + num) = 1)
  | _ => decide (num ≤ 3) && decide (bits k.bars (12 + num) (12 + num) = 1)

/-- The container of a group's instance of a barrier: its group, block, cluster, or the grid (08 R174). -/
def barrierContainer (gid : Nat) (g : Group) (level : Nat) : Nat :=
  match level with | 0 => gid | 1 => g.block | 2 => g.s3 | _ => 0

/-- The key of a barrier instance, and the state with it made idle with GEN 0 where it is first met (08 R177). -/
def barrierKey (s : State) (gid : Nat) (g : Group) (level num : Nat) : Nat × State :=
  let c := barrierContainer gid g level
  match s.barriers.find? fun e =>
      e.2.kernel = g.kernel ∧ e.2.level = level ∧ e.2.num = num ∧ e.2.container = c with
  | some e => (e.1, s)
  | none =>
    let (n, s) := freshId s
    let b : Barrier := { kernel := g.kernel, level := level, num := num, container := c, gen := false, state := .idle,
                         covered := [], held := [], came := [], linked := [], sent := [] }
    (n, { s with barriers := Table.ins s.barriers n b })

/-- The state with a barrier instance changed. -/
def updBarrier (s : State) (b : Nat) (f : Barrier → Barrier) : State := { s with barriers := Table.upd s.barriers b f }

/-- A group's expected lanes: its live lanes less those that are done-parked (08 R176). -/
def expectedLanes (g : Group) : Mask :=
  g.fibres.foldl (fun m e => if e.2.state = .ended ∨ e.2.state = .doneParked then m else m ||| e.2.p0) 0

/-- Whether a group belongs to an instance's container, by its indices. -/
def barrierMember (s : State) (b : Barrier) (gid : Nat) (g : Group) : Bool :=
  g.kernel = b.kernel && (match b.level with
    | 0 => gid = b.container
    | 1 => decide (g.block = b.container) && (match kernelAt s b.kernel with
        | some k => decide (bits (k.bmask b.num) g.s1 g.s1 = 1)
        | none => false)
    | 2 => decide (g.s3 = b.container)
    | _ => true)

/-- The member groups of an instance that are not yet retired: those in being, and those of the kernel still to be
placed, counted (08 R176). -/
def barrierMembers (s : State) (b : Barrier) : List (Nat × Group) :=
  s.groups.filter fun e => e.2.state ≠ .retired && barrierMember s b e.1 e.2

/-- How many members of an instance have not been placed yet. -/
def barrierUnplaced (s : State) (b : Barrier) : Nat :=
  match kernelAt s b.kernel with
  | none => 0
  | some k =>
    (k.pendingGroups.filter fun p => match b.level with
      | 0 => false
      | 1 => (match blockAt s b.container with
          | some bl => decide (p.1 = bl.s3 ∧ p.2.1 = bl.s2) && decide (bits (k.bmask b.num) p.2.2 p.2.2 = 1)
          | none => false)
      | 2 => decide (p.1 = b.container)
      | _ => true).length

/-- The lanes of a group covered in an instance's current phase. -/
def Barrier.coveredBy (b : Barrier) (gid : Nat) : Mask := Table.rd b.covered 0 gid

/-- The matrix operations linked to a group's arrival at a barrier that are not yet applied (R185). -/
def linkPending (g : Group) (bar : Nat) : Bool :=
  g.links.any fun e => e.1 = bar && e.2.any fun id => g.tileOps.any fun o => o.id = id && !o.applied

/-- Whether a member group that is not counted arrives now (08 R176, R185): some lane is covered, every expected lane is, and
the operations linked to the arrival have been applied. -/
def arrivesNow (bar : Nat) (b : Barrier) (gid : Nat) (g : Group) : Bool :=
  b.coveredBy gid ≠ 0 && expectedLanes g &&& ~~~(b.coveredBy gid) = 0 && !linkPending g bar

/-- Participants of an instance that have not arrived (08 R183): lanes at group level, groups above it. A group that has not
retired, but whose lanes have all ended or are done-parked, is not waited for, as one that has retired is not (DESIGN CHOICE,
log entry 67). -/
def remaining (s : State) (b : Barrier) : Nat :=
  match b.level with
  | 0 => ((barrierMembers s b).map fun e => (Mask.lanes (expectedLanes e.2 &&& ~~~(b.coveredBy e.1))).length).sum
  | _ => ((barrierMembers s b).filter fun e =>
      !b.came.contains e.1 && (e.2.fibres = [] || expectedLanes e.2 ≠ 0)).length + barrierUnplaced s b

/-- Whether a participant's arrival is counted in an instance's current phase. -/
def Barrier.begun (b : Barrier) : Bool := if b.level = 0 then b.covered.any fun e => e.2 ≠ 0 else b.came ≠ []

/-- Whether an instance's expected set is complete with an arrival counted in the current phase (08 R177). -/
def barrierComplete (s : State) (b : Barrier) : Bool := b.begun && remaining s b = 0

/-- Whether a retraining boundary between a die and the root of the barrier tree holds an instance's sideband traffic: that of a
grid barrier alone crosses boundaries (08 R184; 19 R396). -/
def Barrier.pathHeld (s : State) (b : Barrier) (die : Nat) : Bool :=
  b.level = 3 && ((kernelAt s b.kernel).bind fun k => ctxAt s k.ctx).any fun c => Machine.pathHeld s c.part die

/-- The lanes of a group barrier whose linked operations have been applied, recorded (08 R185). -/
def Barrier.record (s : State) (bar : Nat) (b : Barrier) : Barrier :=
  if b.linked = [] ∨ (barrierMembers s b).any fun e => linkPending e.2 bar then b
  else { b with linked := [], covered := b.linked.foldl (fun t e => Table.wr t 0 e.1 (Table.rd t 0 e.1 ||| e.2)) b.covered }

/-- The groups that arrive at an instance: those of which every expected lane is covered leave for the unit that holds it, and
what no retraining boundary holds on its way is counted (08 R176, R184). -/
def Barrier.count (s : State) (bar : Nat) (b : Barrier) : Barrier × List Nat :=
  if b.level = 0 then (b, [])
  else
    let now := ((barrierMembers s b).filter fun e =>
      !b.came.contains e.1 && !b.sent.contains e.1 && arrivesNow bar b e.1 e.2).map (·.1)
    let (stay, come) := (b.sent ++ now).partition fun gid => (groupAt s gid).any fun g => b.pathHeld s g.die
    ({ b with sent := stay, came := b.came ++ come }, now)

/-- An instance evaluated again (08 R176, R177): the arrivals are counted, and their links are done with; with
an arrival counted the instance counts, and with its expected set complete it is released. -/
def settleBarrier (s : State) (bar : Nat) : State :=
  match Table.look s.barriers bar with
  | none => s
  | some b =>
    if b.state = .released then s
    else
      let (b, now) := (b.record s bar).count s bar
      let done : Bool := barrierComplete s b
      let over_ := if b.level = 0 ∧ done then [b.container] else now
      let s := over_.foldl (fun s gid => updGroup s gid fun g => { g with links := g.links.filter fun e => e.1 ≠ bar }) s
      updBarrier s bar fun _ => { b with state := if done then .released else if b.begun then .counting else b.state }

/-- The instances of a kernel evaluated again. -/
def settleBarriers (s : State) (kernel : Nat) : State :=
  s.barriers.foldl (fun s e => if e.2.kernel = kernel then settleBarrier s e.1 else s) s

/-- The instances of every kernel evaluated again. -/
def settleAllBarriers (s : State) : State := s.barriers.foldl (fun s e => settleBarrier s e.1) s

/-- The arrival of a fibre's owned lanes at an instance (08 R177, R178): lanes already covered, and every lane while
the instance is released, are held; the others are recorded, at a group barrier once what is linked to them has been applied
(R185). The held lanes, and the state. -/
def arrive (s : State) (bar gid : Nat) (p0 : Mask) : Mask × State :=
  match Table.look s.barriers bar with
  | none => (0, s)
  | some b =>
    let held := if b.state = .released then p0 else p0 &&& (b.coveredBy gid ||| Table.rd b.linked 0 gid)
    let now := p0 &&& ~~~held
    let s := updBarrier s bar fun b =>
      { b with covered := if b.level = 0 then b.covered else Table.wr b.covered 0 gid (b.coveredBy gid ||| now)
               linked := if b.level = 0 then Table.wr b.linked 0 gid (Table.rd b.linked 0 gid ||| now) else b.linked
               held := Table.wr b.held 0 gid (Table.rd b.held 0 gid ||| held) }
    (held, settleBarriers s b.kernel)

/-! ## Fibres fused and ended -/

/-- Operations, writes and marks of some fibres handed to another that takes their place (07 R157). -/
def rebindFibre (s : State) (gid : Nat) (olds : List Nat) (new : Nat) : State :=
  { s with
    writes := s.writes.map fun e =>
      if e.2.gid = gid ∧ e.2.fibs.any olds.contains then (e.1, { e.2 with fibs := dedup (new :: e.2.fibs) }) else e
    ops := s.ops.map fun e => if e.2.gid = gid ∧ olds.contains e.2.fib then (e.1, { e.2 with fib := new }) else e
    splats := s.splats.map fun e => if e.2.gid = gid ∧ olds.contains e.2.fib then (e.1, { e.2 with fib := new }) else e
    evals := s.evals.map fun e => if e.2.gid = gid ∧ olds.contains e.2.fib then (e.1, { e.2 with fib := new }) else e
    porter := s.porter.map fun e => if e.2.gid = gid ∧ olds.contains e.2.fib then (e.1, { e.2 with fib := new }) else e
    groups := s.groups.map fun e =>
      if e.1 = gid then
        (e.1, { e.2 with
          tileOps := e.2.tileOps.map fun o => if olds.contains o.fib then { o with fib := new } else o
          sumOps := e.2.sumOps.map fun o => if olds.contains o.fib then { o with fib := new } else o })
      else e }

/-- The latest write completion time of each scope over some fibres. -/
def mergeWct (fs : List Fibre) : Table Nat :=
  (List.range 5).foldl (fun t sc =>
    let w := maxOf (fs.map fun f => Table.rd f.wct 0 sc)
    if w = 0 then t else Table.ins t sc w) []

/-- The join at one address evaluated (07 R157): when every live lane of the union of needs is owned by a parked fibre
or done-parked, the parked fibres fuse; STEP then traps the fused fibre, for the JOIN that it issued (18 R386). -/
def settleJoin (s : State) (gid : Nat) (pc : DWord) : State :=
  match groupAt s gid with
  | none => s
  | some g =>
    let parked := g.fibres.filter fun e => (match e.2.state with | .joinParked _ => true | _ => false) && e.2.pc = pc
    let need : Mask := parked.foldl (fun m e => match e.2.state with | .joinParked n => m ||| n | _ => m) 0
    let need := need &&& g.live
    let own : Mask := parked.foldl (fun m e => m ||| e.2.p0) 0
    let dones := g.fibres.filter fun e => e.2.state = .doneParked
    let done : Mask := dones.foldl (fun m e => m ||| e.2.p0) 0
    match sortBy (fun (x y : Nat × Fibre) => decide (Mask.first x.2.p0 < Mask.first y.2.p0)) parked with
    | [] => s
    | (fid, f) :: others =>
      if need &&& ~~~(own ||| done) ≠ 0 then s
      else
        let taken := need &&& done
        let lost := dones.filter fun e => e.2.p0 &&& taken ≠ 0
        let olds := others.map (·.1) ++ lost.map (·.1)
        let f' : Fibre := readyFibre (gtOf s g.die)
          { f with pc := pc + 4, p0 := own ||| taken, clause := none, chain := none, branch := none, fresh := true,
                   wct := mergeWct ((parked ++ lost).map (·.2)),
                   owed := f.owed ++ (others ++ lost).flatMap (·.2.owed) }
        let fibres := g.fibres.map fun e =>
          if e.1 = fid then (e.1, f')
          else if others.any (fun o => o.1 = e.1) then (e.1, e.2.gone)
          else if e.2.state = .doneParked ∧ e.2.p0 &&& taken ≠ 0 then
            (e.1, if e.2.p0 &&& ~~~taken = 0 then e.2.gone else { e.2 with p0 := e.2.p0 &&& ~~~taken })
          else e
        let s := rebindFibre (setGroup s gid (({ g with fibres := fibres }).clearO (own ||| taken))) gid olds fid
        match issuing { s with cur := some (gid, fid) } with
        | some i => stepTrap s i
        | none => s

/-- What follows a change of a group's set of fibres: joins are evaluated again, then the kernel's barriers (07 R157,
08 R176). Where the joins of two addresses could both complete, that of the fibre earlier in the table goes first (log
entry 63). -/
def resettle (s : State) (gid : Nat) : State :=
  match groupAt s gid with
  | none => s
  | some g =>
    let pcs := dedup (g.fibres.filterMap fun e => match e.2.state with | .joinParked _ => some e.2.pc | _ => none)
    let s := pcs.foldl (fun s pc => settleJoin s gid pc) s
    settleBarriers s g.kernel

/-- Every fibre of a group has ended or is done-parked, so its done-parked lanes are treated as exited (07 R156). -/
def allEnded (g : Group) : Bool := g.fibres.all fun e => e.2.state = .ended || e.2.state = .doneParked

/-- A new fibre of a group that copies another's window base, return stack, completion-time state and handler level
(06 R137, 07 R155), with its own address and lanes; a write on its way enters both fibres' completion times. -/
def spawnFibre (s : State) (gid fid : Nat) (f : Fibre) (gt : Nat) (pc from_ : DWord) (p0 : Mask) : State :=
  match groupAt s gid with
  | none => s
  | some g =>
    let n := g.nextFibre
    let f' : Fibre := readyFibre gt
      { f with pc := pc, p0 := p0, clause := none, chain := none, branch := some from_, last := [], buffer := [],
               fresh := true, traps := [], owed := [], yieldMark := none }
    let s := updGroup s gid fun g => { g with fibres := Table.ins g.fibres n f', nextFibre := n + 1 }
    { s with writes := s.writes.map fun e =>
        if e.2.gid = gid ∧ e.2.fibs.contains fid then (e.1, { e.2 with fibs := e.2.fibs ++ [n] }) else e }

end Sys2Proof.Machine
end

