-- ==== Sys2Proof/Machine/Control.lean ====
section
/-! DEFINITION. Modifier words, branches, calls, the instructions that shape the set of fibres, waits and ends
(04 R90 to R97; 06 R136 to R141; 07 R155 to R158; 11 R241). -/

namespace Sys2Proof.Machine

/-! ## Modifier words (04 R90) -/

/-- The chain that a fibre is in, or a new one that starts at its word. -/
def chainAt (f : Fibre) : Chain :=
  match f.chain with
  | some c => c
  | none => { start := f.pc, rep := none, pfx := none, pfxi := none, done := 0, upto := none }

/-- A modifier word recorded, when the order of R90 admits it. -/
def recordModifier (s : State) (ok : Chain → Bool) (f : Chain → Chain) : Out :=
  withIssuing s fun i =>
    let c := chainAt i.f
    if ok c then updFibre s i.gid i.fid fun x => { x with chain := some (f c), pc := x.pc + 4 } else illegal s i

/-- PFX. -/
def execPfx (c : LReg) (m : BitVec 3) (z : BitVec 1) (r : BitVec 3) (t : BitVec 4) (x : BitVec 1) (o : BitVec 2)
    (f : BitVec 1) (s : State) : Out :=
  recordModifier s (fun ch => ch.pfx.isNone && ch.pfxi.isNone) fun ch => { ch with pfx := some (c, m, z, r, t, x, o, f) }
/-- PFXI. -/
def execPfxi (x : BitVec 24) (s : State) : Out :=
  recordModifier s (fun ch => ch.pfxi.isNone) fun ch => { ch with pfxi := some x }
/-- REP. -/
def execRep (c : BitVec 6) (d a b : BitVec 3) (s : State) : Out :=
  recordModifier s (fun ch => ch.rep.isNone && ch.pfx.isNone && ch.pfxi.isNone) fun ch => { ch with rep := some (c, d, a, b) }
/-- NOP (04 R97). -/
def execNop (s : State) : Out := uniform s (fun _ => true) [] fun i => finish s i

/-! ## Branches (06 R136 to R138) -/

/-- A branch target: the word's address plus four times the sign-extended offset (04 R88). -/
def branchTarget {n : Nat} (pc : DWord) (o : BitVec n) : DWord := pc + 4 * o.signExtend 64

/-- BRA. -/
def execBra (o : BitVec 24) (s : State) : Out :=
  uniform s (fun _ => true) [] fun i => goTo s i (branchTarget i.f.pc o)
/-- BRC. -/
def execBrc (r : BitVec 6) (n : BitVec 2) (o : BitVec 16) (s : State) : Out :=
  uniform s (fun _ => true) [r.toNat] fun i =>
    if branchTest n.toNat (i.g.readS r.toNat) then goTo s i (branchTarget i.f.pc o) else finish s i

/-- A fibre that divides: the new fibre begins at the target with the taken lanes, the issuing one keeps the rest, and
every O register of both reads zero (02 R38, 06 R137). -/
def divide (s : State) (i : Iss) (target : DWord) (taken rest : Mask) : State :=
  match fibreAt s i.gid i.fid with
  | none => s
  | some f =>
    let s := spawnFibre s i.gid i.fid f (gtOf s i.g.die) target i.f.pc taken
    let s := updFibre s i.gid i.fid fun f => { f with p0 := rest }
    updGroup s i.gid fun g => g.clearO (taken ||| rest)

/-- BRP. -/
def execBrp (p : BitVec 3) (n : BitVec 2) (o : BitVec 16) (s : State) : Out :=
  uniform s (fun _ => true) [] fun i =>
    let pn := i.g.readP i.f.p0 p.toNat
    let taken := pn &&& i.f.p0
    let rest := i.f.p0 &&& ~~~pn
    let target := branchTarget i.f.pc o
    match n.toNat with
    | 0 =>
      if rest = 0 then goTo s i target
      else if taken = 0 then finish s i
      else committing s i fun s => finish (divide s i target taken rest) i
    | 1 => if taken ≠ 0 then goTo s i target else finish s i
    | 2 => if rest = 0 then goTo s i target else finish s i
    | _ => if taken = 0 then goTo s i target else finish s i

/-- CALL: a full return stack is illegal (06 R138). -/
def execCall (o : BitVec 24) (s : State) : Out :=
  uniform s (fun i => i.f.stack.length < 16) [] fun i =>
    goTo (updFibre s i.gid i.fid fun f => { f with stack := (f.pc + 4) :: f.stack }) i (branchTarget i.f.pc o)

/-- EXIT's end of a fibre: its lanes leave the live set, and what waits on the set of fibres is evaluated again. -/
def exitFibre (s : State) (gid fid : Nat) : State := resettle (endFibre s gid fid) gid

/-- RETURNING FROM A HANDLER (18 R368, R369): RET at a return-stack depth of H leaves handler level and resumes at
TEPC. Inside the trapping clause the fibre resumes in it, with its flags in force and L0 to L3 zero; anywhere else the
address must hold a CLAUSE word, which the next fetch checks. A handler of cause 0x0A ends the fibre instead. -/
def returnFromTrap (s : State) (i : Iss) : State :=
  if i.f.doomed then committing s i fun s => exitFibre s i.gid i.fid
  else
    let pc := i.g.tepc
    let inside := match i.f.trapClause with
      | some c => decide (c.start < pc ∧ pc < c.limit ∧ pc.toNat % 4 = 0) &&
          (match c.words.getD ((pc - c.start).toNat / 4 - 1) none with
            | some w => field w 24 8 ≠ 0x80
            | none => true)
      | none => false
    let s := updFibre s i.gid i.fid fun f =>
      { f with handler := none, pc := pc, chain := none, branch := none, last := [],
               clause := if inside then f.trapClause else none }
    match fibreAt s i.gid i.fid with
    | some f => if f.traps = [] then s else
        deliverTrap (updFibre s i.gid i.fid fun f => { f with state := .waiting .trap, readySince := none }) i.gid i.fid
    | none => s

/-- RET. -/
def execRet (s : State) : Out :=
  uniform s (fun i => decide (i.f.handler = some i.f.stack.length) || i.f.stack ≠ []) [] fun i =>
    if i.f.handler = some i.f.stack.length then returnFromTrap s i
    else match i.f.stack with
      | [] => illegal s i
      | a :: rest => goTo (updFibre s i.gid i.fid fun f => { f with stack := rest }) i a

/-! ## Waits and ends (06 R139 to R141) -/

/-- WAITF. -/
def execWaitf (m : BitVec 12) (s : State) : Out :=
  uniform s (fun _ => true) [] fun i =>
    if !flagsClear i.g m then waitOn s i.gid i.fid (.flags m)
    else match owedTrap s i m i.f.clause with
      | some s => s
      | none => finish s i

/-- EXIT (R140): the statuses owed, the commit, the end of the fibre. -/
def execExit (s : State) : Out :=
  uniform s (fun _ => true) [] fun i =>
    lastWord s i fun s => exitFibre s i.gid i.fid

/-- TRAP (R141). No rule gives TMASK of trap 0x0B; it is 0 (log entry 61). -/
def execTrap (x : BitVec 18) (s : State) : Out :=
  uniform s (fun _ => true) [] fun i => trapHere s i 0x0B (x.setWidth 64) 0

/-- REGION (11 R241). -/
def execRegion (s : State) : Out := uniform s (fun _ => true) [] fun i => committing s i fun s => finish s i

/-! ## The set of fibres (07 R155 to R158) -/

/-- FORK. -/
def execFork (p : BitVec 3) (o : BitVec 16) (s : State) : Out :=
  uniform s (fun _ => true) [] fun i =>
    let pn := i.g.readP i.f.p0 p.toNat
    let taken := pn &&& i.f.p0
    let rest := i.f.p0 &&& ~~~pn
    if taken = 0 then finish s i
    else committing s i fun s =>
      let s := divide s i (branchTarget i.f.pc o) taken rest
      if rest = 0 then endFibre s i.gid i.fid else finish s i

/-- FDONE (R156). -/
def execFdone (s : State) : Out :=
  uniform s (fun _ => true) [] fun i =>
    lastWord s i fun s =>
      resettle (updFibre s i.gid i.fid fun f =>
        { f with state := .doneParked, pc := f.pc + 4, clause := none, readySince := none, due := false }) i.gid

/-- JOIN (R157). -/
def execJoin (p : BitVec 3) (s : State) : Out :=
  uniform s (fun _ => true) [] fun i =>
    committing s i fun s =>
      let need := i.g.readP i.f.p0 p.toNat &&& i.g.live
      resettle (updFibre s i.gid i.fid fun f =>
        { f with state := .joinParked need, readySince := none, due := false }) i.gid

/-- YIELD (R158). -/
def execYield (s : State) : Out :=
  uniform s (fun _ => true) [] fun i =>
    finish (updFibre s i.gid i.fid fun f => { f with yieldMark := some (gtOf s i.g.die) }) i

/-! ## Barriers (08 R179 to R185) -/

/-- The barrier that FN names, LVL and NUM. -/
def barrierNamed (i : Iss) (l : BitVec 2) (n : BitVec 4) : Bool := barrierOk i.k i.g l.toNat n.toNat

/-- The sequence of R181: the commit, release(3), and the arrival; `after` gets the lanes held and the instance's GEN before
the arrival. -/
def arrival (s : State) (i : Iss) (l : BitVec 2) (n : BitVec 4) (after : State → Nat → Mask → Bool → State) : State :=
  releasing s i 3 fun s =>
    let (bar, s) := barrierKey s i.gid i.g l.toNat n.toNat
    let gen := match Table.look s.barriers bar with | some b => b.gen | none => false
    let (held, s) := arrive s bar i.gid i.f.p0
    after s bar held gen

/-- BARR: the phase token is the GEN of the latest phase in which the arrival recorded a lane (R180). -/
def execBarr (d : BitVec 6) (l : BitVec 2) (n : BitVec 4) (s : State) : Out :=
  uniform s (fun i => barrierNamed i l n) [d.toNat] fun i =>
    arrival s i l n fun s bar held gen =>
      if held ≠ 0 then waitOn s i.gid i.fid (.held bar gen (some d.toNat))
      else putS s i d (if gen then 1 else 0)

/-- BARRW. -/
def execBarrw (l : BitVec 2) (n : BitVec 4) (s : State) : Out :=
  uniform s (fun i => barrierNamed i l n) [] fun i =>
    arrival s i l n fun s bar held gen =>
      if held ≠ 0 then waitOn s i.gid i.fid (.held bar gen none)
      else waitOn s i.gid i.fid (.barrier bar gen)

/-- BARW: it completes with acquire(3) once the barrier's GEN differs from Sa[0] (R180, R182). -/
def execBarw (a : BitVec 6) (l : BitVec 2) (n : BitVec 4) (s : State) : Out :=
  uniform s (fun i => barrierNamed i l n) [a.toNat] fun i =>
    let (bar, s) := barrierKey s i.gid i.g l.toNat n.toNat
    let tok := (i.g.readS a.toNat).getLsbD 0
    match Table.look s.barriers bar with
    | some b => if b.gen ≠ tok then finish (acquire s i.ck 3) i else waitOn s i.gid i.fid (.barrier bar tok)
    | none => s

/-- BARQ's status word (R183). -/
def barrierStatus (s : State) (i : Iss) (b : Barrier) : Word :=
  let st := match b.state with | .idle => 0 | .counting => 1 | .released => 2
  let arr : Bool := match b.level with
    | 0 => decide (i.f.p0 &&& ~~~(b.coveredBy i.gid) = 0)
    | _ => b.came.contains i.gid
  BitVec.ofNat 32 ((if b.gen then 2 ^ 31 else 0) + st * 2 ^ 29 + (if arr then 2 ^ 24 else 0) +
    min (remaining s b) 0xFFFFFF)

/-- BARQ. -/
def execBarq (d : BitVec 6) (l : BitVec 2) (n : BitVec 4) (s : State) : Out :=
  uniform s (fun i => barrierNamed i l n) [d.toNat] fun i =>
    let (bar, s) := barrierKey s i.gid i.g l.toNat n.toNat
    match Table.look s.barriers bar with
    | some b => putS s i d (barrierStatus s i b)
    | none => s

/-- Whether an MLINK links a tile operation: every one but an ACCRD. -/
def TileOp.links (o : TileOp) : Bool := match o.kind with | .accrd .. => false | _ => true

/-- MLINK (R185): the group's matrix operations issued so far, ACCRD apart, are linked to its next arrival. -/
def execMlink (l : BitVec 2) (n : BitVec 4) (s : State) : Out :=
  uniform s (fun i => barrierNamed i l n) [] fun i =>
    let (bar, s) := barrierKey s i.gid i.g l.toNat n.toNat
    finish (updGroup s i.gid fun g => { g with links := (bar, (i.g.tileOps.filter TileOp.links).map (·.id)) :: g.links }) i

/-- BARRIER_RELEASE (08 R177): GEN flips, arrivals clear, and held lanes are counted in the new phase. A retraining boundary
between the root of the barrier tree and a die with a member holds a grid barrier's release (08 R184). -/
def execBarrierRelease (bar : Nat) (s : State) : Out :=
  .next (match Table.look s.barriers bar with
    | none => s
    | some b =>
      let heldUp : Bool := (barrierMembers s b).any fun e => b.pathHeld s e.2.die
      if b.state = .released ∧ !heldUp then
        settleBarriers (updBarrier s bar fun b =>
          { b with gen := !b.gen, covered := if b.level = 0 then [] else b.held, linked := if b.level = 0 then b.held else []
                   held := [], came := [], sent := [], state := .idle }) b.kernel
      else s)

end Sys2Proof.Machine
end

