-- ==== Sys2Proof/Machine/Clock.lean ====
section
/-! DEFINITION. The passing of global time (01 R22, R24) and what happens as it passes. -/

namespace Sys2Proof.Machine

/-- How far the reference advances from one step of a slew to the next, in 1/64 ns (R24): the die's own count gains 1/64 ns,
or loses it, in each 1,000/64 ns. The steps are counted from the correction (log entry 37). -/
def slewPeriod (slew : Int) : Nat := if 0 < slew then 999 else 1001

/-- A die's count, with its fraction, after `ns` nanoseconds of its reference (R22, R24): a hold withholds the advance, a
slew adds its steps or withholds them. -/
def Die.tick (ns : Nat) (d : Die) : Die :=
  if !d.active then d
  else
    let held := min d.hold (64 * ns)
    let up := 64 * ns - held
    let gone := d.phase + up
    let k := min (gone / slewPeriod d.slew) d.slew.natAbs
    let slew := if d.slew < 0 then d.slew + (k : Int) else d.slew - (k : Int)
    let total := d.gt * 64 + d.frac + (if d.slew < 0 then up - k else up + k)
    { d with gt := total / 64 % 2 ^ 64, frac := total % 64, hold := d.hold - held, slew := slew
             phase := if slew = 0 then 0 else gone % slewPeriod d.slew }

/-- The nanoseconds of the reference until a die's own count reaches a value: its slew and its hold make that more or fewer
than the count lacks. -/
def Die.nsTo (x : Die) (target : Nat) : Nat :=
  let first := target - x.gt - (x.slew.natAbs / 64 + 1)
  first + ((List.range (2 * (x.slew.natAbs / 64 + 2) + x.hold / 64 + 2)).find? fun k => decide (target ≤ (x.tick (first + k)).gt)).getD 0

/-- The nanoseconds until a die's GT reaches a value. -/
def nsUntil (s : State) (d target : Nat) : Nat := ((dieAt s d).map fun x => x.nsTo target).getD 0

/-- Whether a group has a waiting fibre (18 R386 event 7). -/
def Group.hasWaiting (g : Group) : Bool :=
  g.fibres.any fun e => match e.2.state with | .waiting _ => true | _ => false

/-- Whether a kernel's watchdog counts (16 R348): from launched to draining, while its context runs. -/
def watchdogRuns (s : State) (k : Kernel) : Bool :=
  (k.state = .launched || k.state = .running) && k.expired.isNone && (ctxAt s k.ctx).any fun c => c.state = .running

/-- What a change of the dies' counts adds: to the watchdogs of the kernels, by the GT of the die that coordinates their
context (16 R348), and to the waiting time of the groups, by the GT of their die (18 R386). -/
def countGt (before s : State) : State :=
  let gone (d : Nat) : Nat := gtOf s d - gtOf before d
  let s := if s.kernels.any fun e => watchdogRuns s e.2 then
      { s with kernels := s.kernels.map fun e =>
          if watchdogRuns s e.2 then (e.1, { e.2 with count := e.2.count + gone (ctxDie s e.2.ctx) }) else e }
    else s
  s.groups.foldl (fun s e => if (e.2.state = .begun ∨ e.2.state = .resident) ∧ e.2.hasWaiting then countEvent s e.1 7 (gone e.2.die) else s) s

/-- Time passes on every active die; watchdogs and waiting are counted, and the noise logs of which no closed way holds a
halfword are stored (06 R147). -/
def tick (s : State) (ns : Nat) : State :=
  if s.power ≠ .on then s else
  let s := countGt s { s with refNs := s.refNs + ns, dies := s.dies.map (Die.tick ns) }
  s.groups.foldl (fun s e => if e.2.logQueue = [] then s else drainLog e.2.logQueue.length s e.1) s

end Sys2Proof.Machine
end

