-- ==== Sys2Proof/Machine/Issue.lean ====
section
/-! DEFINITION. Choosing the next fibre, fetching its word and issuing it (04 R80 to R82; 07 R160 to R163, R172;
18 R368, R386). -/

namespace Sys2Proof.Machine

/-- The FAIRT that a kernel sampled (06 R143). -/
def fairOf (k : Kernel) : Nat := (k.sample 0x013).toNat

/-- Whether a fibre is due (R163, R164): GT has passed its ready-since stamp by FAIRT, under `.progress on`. -/
def Fibre.overdue (k : Kernel) (gt : Nat) (f : Fibre) : Bool :=
  f.due || (k.prog && f.readySince.any fun t => decide (t + fairOf k ≤ gt))

/-- A fibre's class in R162: a chain in progress is one instruction and comes first (04 R90), then due fibres, then
fibres without a yield mark, then those with one. -/
def Fibre.rank (k : Kernel) (gt : Nat) (f : Fibre) : Nat :=
  if f.chain.isSome then 0 else if f.overdue k gt then 1 else if f.yieldMark.isNone then 2 else 3

/-- What orders the fibres of one class: the ready-since stamp, the PC or the yield mark. -/
def Fibre.rankKey (k : Kernel) (gt : Nat) (f : Fibre) : Nat :=
  if f.overdue k gt then f.readySince.getD 0 else match f.yieldMark with | none => f.pc.toNat | some m => m

/-- Whether fibre `x` is taken before fibre `y` (R162). -/
def fibreBefore (k : Kernel) (gt : Nat) (x y : Nat × Fibre) : Bool :=
  decide (x.2.rank k gt < y.2.rank k gt) || (decide (x.2.rank k gt = y.2.rank k gt) &&
    (decide (x.2.rankKey k gt < y.2.rankKey k gt) || (decide (x.2.rankKey k gt = y.2.rankKey k gt) &&
      decide (Mask.first x.2.p0 < Mask.first y.2.p0))))

/-- The fibre that a group issues next (R162). -/
def nextFibre (s : State) (g : Group) : Option Nat :=
  match kernelAt s g.kernel with
  | none => none
  | some k =>
    ((sortBy (fibreBefore k (gtOf s g.die)) (g.fibres.filter fun e => e.2.state = .ready)).head?).map (·.1)

/-- Whether a group may issue: it is clear and begun or about to begin, its context runs, and its die keeps time
(07 R152; 18 R365, R370; 01 R26). A group being pre-empted issues only what is left of a chain (18 R371, 04 R96). -/
def mayIssue (s : State) (g : Group) : Bool :=
  decide (s.power = .on) && (g.state = .begun || (g.state = .resident && !g.clearing)) &&
  dieActive s g.die &&
  (match kernelAt s g.kernel with
    | some k => (ctxAt s k.ctx).any fun c =>
        (c.state = .running && !g.preempt) ||
        ((c.state = .running || c.state = .preempting || c.state = .faulted) &&
          g.fibres.any fun e => e.2.state = .ready && e.2.chain.isSome)
    | none => false)

/-- The groups that can issue. -/
def readyGroups (s : State) : List Nat :=
  (s.groups.filter fun e => mayIssue s e.2 && (nextFibre s e.2).isSome).map (·.1)

/-- The queue priority of a group (17 R349). -/
def groupPrio (s : State) (g : Group) : Nat :=
  match kernelAt s g.kernel with
  | none => 0
  | some k => (((ctxAt s k.ctx).bind fun c => Table.look c.queues k.queue).map (·.prio)).getD 0

/-- A group's priority with what a timed-out SPINH lends it (17 R360): a saved group of its context that was restored
while the SPINH helps issues at the priority of the group that executed it. -/
def issuePrio (s : State) (g : Group) : Nat :=
  maxOf (groupPrio s g :: s.helps.filterMap fun h =>
    if g.lentBy.contains h.1 then (groupAt s h.1).map (groupPrio s) else none)

/-- The STARV of a group's partition, in ns. -/
def starvOf (s : State) (ctx : Nat) : Nat :=
  1000 * (((ctxAt s ctx).bind fun c => partAt s c.part).map (·.starv)).getD 0

/-- When a begun group's STARV runs out (17 R359): it has had a ready fibre for STARV without issuing. -/
def starvesAt (s : State) (g : Group) : Option Nat :=
  match kernelAt s g.kernel, minOf (g.fibres.filterMap fun e => if e.2.state = .ready then e.2.readySince else none) with
  | some k, some t => if g.state = .begun then some (max t g.lastIssue + starvOf s k.ctx) else none
  | _, _ => none

/-- Whether a group has starved for STARV. -/
def starves (s : State) (g : Group) : Bool :=
  g.starved || (starvesAt s g).any fun t => decide (t ≤ gtOf s g.die)

/-- Whether a group's room takes it for its next slot (17 R359): one starved comes first, then the highest priority. -/
def roomTakes (s : State) (gid : Nat) : Bool :=
  match groupAt s gid with
  | none => false
  | some g =>
    let rivals := (readyGroups s).filterMap fun x => (groupAt s x).bind fun h =>
      if h.die = g.die ∧ h.core = g.core ∧ h.room = g.room then some (x, h) else none
    (rivals.any fun r => r.1 = gid) &&
    (starves s g || (!(rivals.any fun r => starves s r.2) &&
      rivals.all fun r => decide (issuePrio s r.2 ≤ issuePrio s g)))

/-- The groups that may take the next slot of their rooms. -/
def takenGroups (s : State) : List Nat := (readyGroups s).filter (roomTakes s)

/-- What follows for the fibre selected for a slot: its stamp, its yield mark cleared, its region begun if one is to
begin, its group begun (R152, R159, R163, R166). -/
def markIssued (s : State) (gid fid : Nat) : State :=
  let s := match groupAt s gid with
    | some g => if g.state = .begun then s else updKernel s g.kernel fun k =>
        if k.state = .launched then { k with state := .running } else k
    | none => s
  let s := updGroup s gid fun g =>
    { g with
      state := .begun
      starved := false
      beganAt := if g.state = .begun then g.beganAt else gtOf s g.die
      lastIssue := gtOf s g.die
      fibres := Table.upd g.fibres fid fun f =>
        { f with
          yieldMark := none, due := false, readySince := some (gtOf s g.die)
          regionStart := if f.fresh then f.epc else f.regionStart
          regionClause := if f.fresh then f.clause else f.regionClause
          fresh := false } }
  { s with cur := some (gid, fid) }

/-- Whether BRK traps a fibre before the word at its PC (18 R386). -/
def breakHits (s : State) (g : Group) (k : Kernel) (f : Fibre) : Bool :=
  g.dbgctl.getLsbD 1 && decide (g.brk = f.pc) && debugOn s k.ctx 2

/-- The word of a fibre's clause at its PC; none at a clause start. -/
def Fibre.wordAt (f : Fibre) : Option Word :=
  f.clause.bind fun c => c.words.getD ((f.pc - c.start).toNat / 4 - 1) none

/-- What the selected fibre does in its slot: it issues a word; it issues a word one of whose unused register fields
names a hand-off queue (R172); or it waits or traps in place of a word. -/
inductive Slot where
  | word (i : Instr) (s : State)
  | misuse (i : Instr) (desc : Bool) (s : State)
  | done (s : State)

/-- Where a lane word names S registers: DESC of TEX, FRAME of SPLAT, ADDR of SUMQ, SUMH and SUMD. -/
def descPlace (op : Nat) : Option Nat := if 0x75 ≤ op ∧ op ≤ 0x78 then some 8 else if op = 0x74 then some 0 else none

/-- A word with some of its register fields, where they name a queue, replaced by ZERO, or by S0 in the place of a descriptor. -/
def clearQueueFields (w : Word) (los : List Nat) : Word :=
  let op := (field w 24 8).toNat
  let byte (lo : Nat) : Nat :=
    let b := (field w lo 8).toNat
    if los.contains lo ∧ 0xD8 ≤ b ∧ b ≤ 0xDF then (if descPlace op = some lo then 0xE0 else 0xD4) else b
  BitVec.ofNat 32 (op * 2 ^ 24 + byte 16 * 2 ^ 16 + byte 8 * 2 ^ 8 + byte 0)

/-- The instruction that a word would be with the fewest of its queue registers replaced, and whether the one in the place of a
descriptor was. -/
def misusedWord (w : Word) : Option (Instr × Bool) :=
  [[16], [8], [0], [16, 8], [16, 0], [8, 0], [16, 8, 0]].findSome? fun los =>
    match decode (clearQueueFields w los) with
    | .ok i => some (i, (descPlace (field w 24 8).toNat).any los.contains)
    | .error _ => none

/-- A group with a descriptor in S0 to S7 that nothing rejects, as the register that a queue stands for would have to hold:
base 0, one channel, neural, handle 0. -/
def Group.blankDesc (g : Group) : Group :=
  { g with tokens := Table.sel g.tokens fun k _ => decide (8 ≤ k), s := (List.range 8).foldl (fun t j =>
      Table.wr t 0 j (if j = 3 then 1 else 0)) g.s }

/-- Whether a queue register in an unused field of a word is a misuse (R172): the opcode is REORDER or 0x50 and above,
or the kernel declares no such queue. -/
def queueBarred (k : Kernel) (w : Word) : Bool :=
  let bad (lo : Nat) : Bool :=
    let b := (field w lo 8).toNat
    decide (0xD8 ≤ b ∧ b ≤ 0xDF) &&
    (decide ((field w 24 8).toNat = 0x4F ∨ 0x50 ≤ (field w 24 8).toNat) || k.qdepth (b - 0xD8) = 0)
  isLaneWord w && (bad 0 || bad 8 || bad 16)

/-- A fetched word decoded for a fibre in its clause, or at a clause start. -/
def slotWord (s : State) (i : Iss) (w : Word) : Slot :=
  match decode w with
  | .ok ins => .word ins s
  | .error .reservedOpcode => .done (illegal s i)
  | .error .fixedBits =>
    if queueBarred i.k w then
      match misusedWord w with
      | some (ins, desc) => .misuse ins desc s
      | none => .done (illegal s i)
    else .done (illegal s i)

/-- The word at the selected fibre's PC (R80 to R82): inside a clause it is the clause's own, at a clause start it is
fetched and must be a CLAUSE word. -/
def slotOf (s : State) (gid fid : Nat) : Slot :=
  let s := markIssued s gid fid
  match issuing s with
  | none => .done s
  | some i =>
    let s := if i.f.chain.isNone then countEvent s gid 1 1 else s
    if breakHits s i.g i.k i.f then .done (trapHere s i 0x0B 0x200000000 0)
    else if i.f.pc.toNat % 4 ≠ 0 then .done (takeTrap s gid fid 0x01 i.f.pc 0 0 none)
    else match i.f.clause with
      | some c =>
        match c.words.getD ((i.f.pc - c.start).toNat / 4 - 1) none with
        | none => .done (trapHere s i 0x0C i.f.pc 0)
        | some w => slotWord s i w
      | none =>
        match fetchWord s gid i.g i.k i.f.pc.toNat with
        | (.wait, s) => .done (waitOn s gid fid (.fetch i.f.pc.toNat))
        | (.poison, s) => .done (takeTrap s gid fid 0x0C i.f.pc i.f.pc 0 none)
        | (.word w, s) =>
          if (field w 24 8).toNat = 0x80 then slotWord s i w
          else .done (takeTrap s gid fid 0x01 i.f.pc (i.f.branch.getD 0) 0 none)

/-- The cause of the trap that the fibre that issued has taken, or raised; `was` is its record before. -/
def tookTrap (s : State) (gid fid : Nat) (was : Fibre) : Option Nat :=
  match groupAt s gid with
  | none => none
  | some g => match Table.look g.fibres fid with
    | none => none
    | some f => (f.traps.head?.map (·.cause)).or
        (if f.state = .waiting .trap ∨ (f.handler.isSome ∧ was.handler.isNone) then some g.tcause.toNat else none)

/-- Whether a fibre's word was held in its slot (R153): it stalls, or waits with its word to be issued again. -/
def heldWord (f : Fibre) : Bool :=
  match f.state with
  | .stalled _ => true
  | .waiting w => match w with
    | .flags _ => true
    | .release _ => true
    | .queue .. => true
    | .token _ => true
    | .fetch _ => true
    | .noise _ => true
    | .sptile _ => true
    | _ => false
  | _ => false

/-- A fibre whose word was held in its slot has not issued it: its yield mark stands as it was, and one that stalls keeps
its stamp and its due mark (R163); a group that has not issued has not begun (R152). One that needs a way through the mesh that is
closed has done nothing (19 R390). `was` is the state before the slot. -/
def keepUnissued (was s : State) (gid fid : Nat) : State :=
  if s.held then stallFibre { was with held := false } gid fid .way else
  match groupAt was gid, fibreAt was gid fid, fibreAt s gid fid with
  | some g, some f, some x =>
    if !heldWord x then s
    else
      let s := updGroup s gid fun h =>
        { h with
          state := if h.state = .begun then g.state else h.state
          beganAt := g.beganAt, lastIssue := g.lastIssue, starved := g.starved
          fibres := Table.upd h.fibres fid fun x =>
            if x.state.isStalled then { x with readySince := f.readySince, due := f.due, yieldMark := f.yieldMark }
            else { x with yieldMark := f.yieldMark } }
      match kernelAt was g.kernel with
      | some k => updKernel s g.kernel fun j => if k.state = .launched ∧ j.state = .running then { j with state := .launched } else j
      | none => s
  | _, _, _ => s

/-- A lane instruction that issued, counted (18 R386 event 2): once for all its repetitions, and not where its word was held or is
no instruction of the machine. `was` is the state before the slot. -/
def countLane (was s : State) (gid fid : Nat) : State :=
  match fibreAt was gid fid, fibreAt s gid fid with
  | some f, some x =>
    if (f.wordAt.any isLaneWord) && !f.midChain && !heldWord x && !(tookTrap s gid fid f).any fun c => c = 1 || c = 9 then
      countEvent s gid 2 1
    else s
  | _, _ => s

/-- One fibre's turn in a slot: its word runs, or what stands in its place happens. A hand-off queue misused by an unused field
gives way to a lower cause of the same instruction (04 R101). -/
def issueFibre (run : Instr → State → Out) (s : State) (gid fid : Nat) : Out :=
  match slotOf s gid fid with
  | .done t => .next (keepUnissued s t gid fid)
  | .word i u =>
    match run i u with
    | .next t => .next (keepUnissued s (countLane s t gid fid) gid fid)
    | o => o
  | .misuse i desc u =>
    match issuing u with
    | none => .next u
    | some iss =>
      match run i (if desc then updGroup u gid Group.blankDesc else u) with
      | .next t =>
        .next (if (tookTrap t gid fid iss.f).any fun c => decide (c < 9) then
            keepUnissued s (updGroup t gid fun g => { g with s := iss.g.s, tokens := iss.g.tokens }) gid fid
          else trapHere u iss 0x09 0 0)
      | o => o

/-- One issue slot of a group: its next fibre issues alone. -/
def issueSlot (run : Instr → State → Out) (s : State) (gid : Nat) : Out :=
  match (groupAt s gid).bind (nextFibre s) with
  | none => .next s
  | some fid => issueFibre run s gid fid

/-! ## Batches (02 R33; 03 R61; 07 R161) -/

/-- Whether a fibre's next word belongs to a lane instruction: a lane word, or a prefix of one. -/
def Fibre.laneNext (f : Fibre) : Bool := f.wordAt.any fun w => isLaneWord w || isModifierWord w

/-- The quads of a fibre with a live lane. -/
def Fibre.quads (f : Fibre) : Nat := ((List.range 16).filter fun q => bits f.p0.toNat (4 * q + 3) (4 * q) ≠ 0).length

/-- The other ready fibres that the selector may add to a slot of fibre `fid` (02 R33; 07 R161): of the same kernel, in the
same room, at the same PC, with a lane instruction next; one amid a chain only beside one as far in it. -/
def mayJoin (s : State) (gid fid : Nat) : List (Nat × Nat) :=
  match groupAt s gid, fibreAt s gid fid with
  | some g, some f =>
    if !f.laneNext then []
    else s.groups.flatMap fun e =>
      if e.2.kernel = g.kernel ∧ e.2.die = g.die ∧ e.2.core = g.core ∧ e.2.room = g.room ∧ mayIssue s e.2 then
        (e.2.fibres.filter fun x => (e.1 ≠ gid || x.1 ≠ fid) && x.2.state = .ready && x.2.pc = f.pc && x.2.laneNext &&
          decide (x.2.chain = f.chain)).map fun x => (e.1, x.1)
      else []
  | _, _ => []

/-- The fibres added to a slot, each by a free choice, as far as 16 quads go. -/
def addFibres (s : State) (quads : Nat) : List (Nat × Nat) → List (Nat × Nat) × State
  | [] => ([], s)
  | e :: es =>
    let q := ((fibreAt s e.1 e.2).map Fibre.quads).getD 0
    let (n, t) := choose s 2
    if quads + q ≤ 16 ∧ n = 1 then
      let (more, u) := addFibres t (quads + q) es
      (e :: more, u)
    else addFibres t quads es

/-- The order in which batched fibres draw (03 R61): their groups by (S3, S2, S1), then by lowest lane. -/
def drawBefore (s : State) (x y : Nat × Nat) : Bool :=
  let key (e : Nat × Nat) : List Nat :=
    match groupAt s e.1 with
    | some g => [g.s3, g.s2, g.s1, e.1, ((fibreAt s e.1 e.2).map fun f => Mask.first f.p0).getD 0]
    | none => []
  decide (key x < key y)

/-- A member's turn under the board of its group as it stood before the slot: the writes of a slot's other fibres hold
nothing in it (03 R61). -/
def onBoardOf (was : State) (gid : Nat) (act : State → Out) (s : State) : Out :=
  let now := ((groupAt s gid).map (·.board)).getD []
  let old := ((groupAt was gid).map (·.board)).getD []
  match act (updGroup s gid fun g => { g with board := old }) with
  | .next t => .next (updGroup t gid fun g => { g with board := now ++ g.board.filter fun c => !now.contains c })
  | o => o

/-- Round `r` of a batched slot: each member's instruction runs as far as its repetition `r`, one member after another. A
member that has left its word is done. `was` is the state before the slot. -/
def batchRound (run : Instr → State → Out) (was : State) (r : Nat) : List (Nat × Nat × DWord) → State → Out
  | [], s => .next s
  | (gid, fid, pc) :: es, s =>
    if (fibreAt s gid fid).any fun f => f.state = .ready && f.pc = pc && (f.chain.map (·.done)).getD 0 = r then
      let s := updFibre s gid fid fun f => { f with chain := f.chain.map fun c => { c with upto := some (r + 1) } }
      match onBoardOf was gid (fun s => issueFibre run s gid fid) s with
      | .next t =>
        batchRound run was r es (updFibre t gid fid fun f => { f with chain := f.chain.map fun c => { c with upto := none } })
      | o => o
    else batchRound run was r es s

/-- The rounds of a batched slot from round `r` on. -/
def batchRounds (run : Instr → State → Out) (was : State) (ms : List (Nat × Nat × DWord)) : Nat → Nat → State → Out
  | 0, _, s => .next s
  | n + 1, r, s =>
    match batchRound run was r ms s with
    | .next t => batchRounds run was ms n (r + 1) t
    | o => o

/-- One issue slot of a group whose next fibre other ready fibres may join (R161): each counts as having issued, and they
run the same repetitions together, in the order in which they draw. -/
def issueBatch (run : Instr → State → Out) (s : State) (gid : Nat) : Out :=
  match (groupAt s gid).bind (nextFibre s) with
  | none => .next s
  | some fid =>
    match fibreAt s gid fid with
    | none => .next s
    | some f =>
      let (more, s) := addFibres s f.quads (mayJoin s gid fid)
      if more = [] then issueFibre run s gid fid
      else
        let ms := sortBy (drawBefore s) ((gid, fid) :: more)
        let reps := ((f.chain.bind (·.rep)).map fun x => x.1.toNat + 1).getD 1
        batchRounds run s (ms.map fun e => (e.1, e.2, f.pc)) reps 0 s

end Sys2Proof.Machine
end

