-- ==== Sys2Proof/Machine/ScalarMemory.lean ====
section
/-! DEFINITION. Uniform memory instructions, fences, write-backs and prefetches (11 R246 to R250; 09 R198). -/

namespace Sys2Proof.Machine

/-- The registers `n` S registers from `k` name. -/
def sRegs (k : BitVec 6) (n : Nat) : List Nat := (List.range n).map (· + k.toNat)

/-- The bytes that SIZE selects (R246). -/
def scalarSize (z : BitVec 2) : Nat := 4 * 2 ^ z.toNat

/-- Whether SLD's or SST's fields are legal (R246). -/
def scalarOk (d a : BitVec 6) (z : BitVec 2) : Bool :=
  z ≠ 3 && evenReg a && d.toNat % 2 ^ z.toNat = 0

/-- The address of a uniform access. -/
def scalarAddress (g : Group) (a b : BitVec 6) (size : Nat) : Nat :=
  ((g.readPair a.toNat).toNat + b.toNat * size) % 2 ^ 64

/-- S registers made pending until an operation writes them (R246, R254). -/
def pendTokens (s : State) (gid : Nat) (ks : List Nat) (op : Nat) : State :=
  updGroup s gid fun g => { g with tokens := ks.foldl (fun t k => Table.ins t k op) g.tokens }

/-- The value of `n` S registers, lowest first. -/
def readSs (g : Group) (k n : Nat) : Nat :=
  (List.range n).foldl (fun x j => x + (g.readS (k + j)).toNat * 2 ^ (32 * j)) 0

/-- SLD. -/
def execSld (d a b : BitVec 6) (z : BitVec 2) (o : BitVec 1) (s : State) : Out :=
  let size := scalarSize z
  let n := 2 ^ z.toNat
  uniform s (fun _ => scalarOk d a z) (pairRegs a ++ sRegs d n) fun i =>
    let va := scalarAddress i.g a b size
    let early := alignTraps size [(0, va)] ++ lockTraps s i false false [(0, va, size)]
    let (v, s1) := judge s i false false false early [] (touchesOf 0 va size)
    onVerdict s1 i false v fun ms =>
      let ws := buffered i.f
      let (ps, base, skip) := piecesOf ws ms
      let (op, s2) := launchOp s1 i
        { opBlank i .sld 0 (.sreg d.toNat n) with
          size := size, lanes := 1, pieces := ps, base := base, skip := skip, overlay := ws, scope := scopeOf ms
          acquire := o = 1 }
      pastAccess (pendTokens s2 i.gid (sRegs d n) op) i (o = 1) op

/-- SST. -/
def execSst (d a b : BitVec 6) (z : BitVec 2) (o : BitVec 1) (s : State) : Out :=
  let size := scalarSize z
  let n := 2 ^ z.toNat
  uniform s (fun _ => scalarOk d a z) (pairRegs a ++ sRegs d n) fun i =>
    let va := scalarAddress i.g a b size
    let over_ := if o = 0 then overflowTrap i 1 0 else none
    let early := alignTraps size [(0, va)] ++ lockTraps s i false true [(0, va, size)]
    match pickTrap early, over_ with
    | none, some (c, need, _) => trapHere s i c (BitVec.ofNat 64 need) 0
    | _, _ =>
      let (v, s1) := judge s i true false (decide (o = 1)) early [] (touchesOf 0 va size)
      onVerdict s1 i false v fun ms =>
        let ws := [BufWrite.store va (toBytes size (readSs i.g d.toNat n))]
        if o = 0 then finish (bufferWrites (forgetStored s1 i ms) i 1 ws) i
        else releasing s1 i (scopeOf ms) fun s2 => finish (sendEntry s2 i.gid [i.fid] i.ck i.k.ctx ws) i

/-- SATOM's fold (R247). -/
def satomOp (p : Nat) : Option AtomOp :=
  match p with
  | 0 => some .add | 1 => some .fadd | 2 => some .smin | 3 => some .smax | 4 => some .and | 5 => some .or
  | 6 => some .xor | 7 => some .xchg | 8 => some .cas | 9 => some .inc | 10 => some .umin | 11 => some .umax
  | _ => none

/-- SATOM. -/
def execSatom (d a b : BitVec 6) (o : BitVec 2) (p : BitVec 4) (s : State) : Out :=
  uniform s (fun _ => (satomOp p.toNat).isSome && evenReg a) (pairRegs a ++ [d.toNat, b.toNat]) fun i =>
    let f := (satomOp p.toNat).getD .add
    let va := scalarAddress i.g a 0 4
    let early := alignTraps 4 [(0, va)] ++ lockTraps s i false true [(0, va, 4)]
    let (v, s1) := judge s i true true true early [] (touchesOf 0 va 4)
    onVerdict s1 i false v fun ms =>
      let sc := scopeOf ms
      let acq : Bool := decide (o = 1 ∨ o = 3)
      let go (s2 : State) : State :=
        let (op, s3) := launchOp s2 i
          { opBlank i .satom 0 (.sreg d.toNat 1) with size := 4, lanes := 1, scope := sc, acquire := acq }
        let s4 := ms.foldl (fun s x =>
          sendAtomic s i op x f 4 (i.g.readS b.toNat).toNat (i.g.readS d.toNat).toNat) s3
        pastAccess (pendTokens s4 i.gid [d.toNat] op) i acq op
      if o = 2 ∨ o = 3 then releasing s1 i sc go else committing s1 i go

/-- FENCE (R198, R248). -/
def execFence (f : BitVec 2) (s : State) : Out :=
  uniform s (fun _ => f ≠ 0) [] fun i =>
    match f.toNat with
    | 1 => releasing s i 4 fun s => finish s i
    | 2 => finish (acquire s i.ck 4) i
    | _ => releasing s i 4 fun s => finish (acquire s i.ck 4) i

/-! ## Write-back and prefetch -/

/-- The pages of a range of virtual addresses that are in a state that can be served, with the key and length of the
part of the range that lies in each (R249, R250). -/
def servedParts (s : State) (i : Iss) (lo n : Nat) : List (Pg × Nat × Nat) × State :=
  (pagePieces lo n).foldl (fun (acc : List (Pg × Nat × Nat) × State) pc =>
    let va := pc.1 % 2 ^ 64
    let (p, s) := translate acc.2 i.ck i.k.ctx va
    if p.served then (acc.1 ++ [(p, p.key s i.k.ctx i.g.die va, pc.2)], s)
    else (acc.1, s)) ([], s)

/-- Dirty lines of the issuing context written back, then the wait for their completion (R249). -/
def writeBackWait (s : State) (i : Iss) (p : Nat → Bool) : State :=
  let (w, s) := l1WriteBack s i.ck fun k b => b.ctx = i.k.ctx && p k
  let s := updGroup s i.gid fun g => { g with wctMax := max g.wctMax w }
  if w = 0 ∨ w < gtOf s i.g.die then finish s i else finish (waitOn s i.gid i.fid (.writeback w)) i

/-- CWB. -/
def execCwb (a b : BitVec 6) (s : State) : Out :=
  uniform s (fun _ => evenReg a) (pairRegs a ++ [b.toNat]) fun i =>
    committing s i fun s =>
      let (parts, s) := servedParts s i (i.g.readPair a.toNat).toNat (i.g.readS b.toNat).toNat
      writeBackWait s i fun k => parts.any fun q => decide (q.2.1 / 128 ≤ k / 128 ∧ k / 128 ≤ (q.2.1 + q.2.2 - 1) / 128)

/-- CWB.ALL. -/
def execCwbAll (s : State) : Out :=
  uniform s (fun _ => true) [] fun i => committing s i fun s => writeBackWait s i fun _ => true

/-- The parts of cacheable pages that a prefetch covers, line by line: the scope, the first key and the length within the
line; a poisoned line is passed over. -/
def prefetchParts (s : State) (parts : List (Pg × Nat × Nat)) : List (Nat × Nat × Nat) :=
  parts.flatMap fun q =>
    (linesOf q.2.1 q.2.2).filterMap fun l =>
      let lo := max q.2.1 (l * 128)
      if badLine s l then none else some (q.1.scope, lo, min (q.2.1 + q.2.2) (l * 128 + 128) - lo)

/-- The prefetch of some served parts (R250): an operation that writes nothing and whose fills carry leases. -/
def prefetch (s : State) (i : Iss) (parts : List (Pg × Nat × Nat)) : State :=
  let xs := prefetchParts s (parts.filter fun q => q.1.cache)
  if xs = [] then s
  else (launchOp s i { opBlank i .load 0 (.lane .zero 0) with
    pieces := xs.mapIdx fun j x => { lane := j, off := 0, addr := x.2.1, n := x.2.2, scope := x.1, cache := true } }).2

/-- PREF: fills into the core's L1. -/
def execPref (a b : BitVec 6) (s : State) : Out :=
  uniform s (fun _ => evenReg a) (pairRegs a ++ [b.toNat]) fun i =>
    let (parts, s) := servedParts s i (i.g.readPair a.toNat).toNat (i.g.readS b.toNat).toNat
    finish (prefetch s i parts) i

/-- PREF.HOME: fills into the homes and lodges, which change no value and no order (09 R186, R188). -/
def execPrefHome (a b : BitVec 6) (s : State) : Out :=
  uniform s (fun _ => evenReg a) (pairRegs a ++ [b.toNat]) fun i =>
    let (parts, s) := servedParts s i (i.g.readPair a.toNat).toNat (i.g.readS b.toNat).toNat
    finish ((prefetchParts s parts).foldl (fun s x => homeTouch s i.k.ctx i.g.die (x.2.1 / 128) false) s) i

end Sys2Proof.Machine
end

