-- ==== Sys2Proof/Machine/MemoryEvents.lean ====
section
/-! DEFINITION. What happens to accesses in flight: returns, fills, leases, writes at homes, reductions, evictions
(09 R187 to R204; 10 R228; 11 R234, R238, R243 to R247, R252). -/

namespace Sys2Proof.Machine

/-! ## Returns -/

/-- A lane's data of an operation: `n` bytes past the lane's skip, the fibre's buffered writes applied. -/
def Op.laneBytes (o : Op) (lane n : Nat) : List Byte :=
  match Table.look o.base lane with
  | none => (List.range n).map fun j => Table.rd o.got 0 (gotKey lane j)
  | some b =>
    let skip := Table.rd o.skip 0 lane
    let top := maxOf ((o.pieces.filter fun p => p.lane = lane).map fun p => p.off + p.n)
    let raw := (List.range top).map fun j => Table.rd o.got 0 (gotKey lane j)
    ((applyOverlay o.overlay b raw).drop skip).take n

/-- The value a load writes, over its registers (11 R234). -/
def Op.laneValue (o : Op) (lane : Nat) : Nat :=
  let x := ofBytes (o.laneBytes lane o.size)
  if o.signed then wrapTo 32 (toSigned (8 * o.size) x) else x

/-- An operation's destinations written (11 R234, R243, R246). -/
def Op.writeDest (o : Op) (id : Nat) (g : Group) : Group :=
  match o.dest with
  | .lane r n =>
    let g := (Mask.lanes o.zero).foldl (fun g l => writeWide g r l n 0) g
    (Mask.lanes o.lanes).foldl (fun g l => writeWide g r l n (o.laneValue l)) g
  | .sreg k n =>
    let x := o.laneValue 0
    let g := (List.range n).foldl (fun g j => g.writeS (k + j) (BitVec.ofNat 32 (x / 2 ^ (32 * j)))) g
    { g with tokens := Table.sel g.tokens fun _ v => v ≠ id }
  | .scratch => g

/-- The fibre that waited for an acquiring access made ready, past its word (11 R234). -/
def wakeAcquirer (s : State) (gid fid id : Nat) : State :=
  match groupAt s gid, fibreAt s gid fid with
  | some g, some f =>
    if f.state = .waiting (.acquire id) then
      let s := updFibre s gid fid (readyFibre (gtOf s g.die))
      match issuing { s with cur := some (gid, fid) } with
      | some i => stepTrap s i
      | none => s
    else s
  | _, _ => s

/-- Whether the group that a packet is addressed to still has its slot (07 R173). -/
def addressed (s : State) (gid ident : Nat) : Bool :=
  (groupAt s gid).any fun g => groupIdent g = ident && (g.state = .resident || g.state = .begun)

/-- Whether the slot that an identifier names is still that group's: its GEN agrees (07 R173). -/
def slotHolds (s : State) (ident : Nat) : Bool :=
  s.groups.any fun e => groupIdent e.2 = ident && (e.2.state = .resident || e.2.state = .begun)

/-- A complete operation returned: destinations, flag, acquire. Data for a group that has left its slot is dropped (07
R173). -/
def returnOp (s : State) (id : Nat) (o : Op) : State :=
  let s := { s with ops := Table.del s.ops id }
  if !addressed s o.gid o.ident then dropLate s o.ident
  else
    let s := flagDown (updGroup s o.gid fun g => g.settled id (o.writeDest id g)) o.gid o.flag
    if o.acquire then wakeAcquirer (acquireL1 s o.core o.scope) o.gid o.fib id else s

/-- An operation of some kinds returned when nothing of it is outstanding. -/
def returnWhen (s : State) (id : Nat) (kinds : List OpKind) (ready : Op → Bool) : Out :=
  .next (match Table.look s.ops id with
    | some o => if kinds.contains o.kind ∧ ready o then returnOp s id o else s
    | none => s)

/-- LOAD_RETURN. -/
def execLoadReturn (op : Nat) (s : State) : Out := returnWhen s op [.load] Op.complete
/-- LDS_RETURN. -/
def execLdsReturn (op : Nat) (s : State) : Out := returnWhen s op [.lds] Op.complete
/-- SLD_RETURN. -/
def execSldReturn (op : Nat) (s : State) : Out := returnWhen s op [.sld] Op.complete

/-- Whether a response that a home's die sent a core's die under an older key is still on its way (19 R398). -/
def responseBehind (s : State) (key src dest : Nat) : Bool :=
  (s.fills.any fun e => decide (e.1 < key) && homeDie s e.2.ctx (e.2.line * 128) = src && coreDie e.2.core = dest) ||
  s.writes.any fun e => e.2.wct.isSome && decide (e.2.replied < key) && homeDie s e.2.ctx e.2.addr = src &&
    coreDie e.2.core = dest

/-- Whether a response from a line's home to a core waits: for one before it (19 R398), or at boundaries that retrain (R390). -/
def responseWaits (s : State) (key core ctx addr : Nat) : Bool :=
  responseBehind s key (homeDie s ctx addr) (coreDie core) || underWay s 1 key (addr / 128) (homeDie s ctx addr) (coreDie core)

/-- Whether a lane of a returning atomic has not been applied, or its old value has not come back. -/
def atomicPending (s : State) (op : Nat) : Bool :=
  s.writes.any fun e => (match e.2.kind with | .atomic o .. => o = op | _ => false) &&
    (e.2.wct.isNone || responseWaits s e.2.replied e.2.core e.2.ctx e.2.addr)

/-- ATOMIC_RETURN. -/
def execAtomicReturn (op : Nat) (s : State) : Out := returnWhen s op [.atomic, .satom] fun _ => !atomicPending s op

/-- LCPY_COMPLETE (R251, R252): the lanes' bytes go into the scratchpad, zeros after the valid ones. -/
def execLcpyComplete (op : Nat) (s : State) : Out :=
  .next (match Table.look s.ops op with
    | some o =>
      if o.kind = .lcpy ∧ o.complete then
        let s := match groupAt s o.gid with
          | some g => if addressed s o.gid o.ident then
              updBlock s g.block fun b => o.copies.foldl (fun b c =>
                b.writeN c.2.1 (o.laneBytes c.1 c.2.2 ++ List.replicate (32 - c.2.2) 0)) b
            else s
          | none => s
        returnOp s op o
      else s
    | none => s)

/-! ## Hotness (10 R228) -/

/-- HOTNESS_HALVE: once for each millisecond of the die's GT. -/
def execHotnessHalve (die : Nat) (s : State) : Out :=
  .next (match dieAt s die with
    | none => s
    | some d =>
      if d.halved < d.gt / 1000000 then
        updDie s die fun d => { d with
          halved := d.halved + 1
          hot := d.hot.map fun h =>
            let ctr := h.ctr.map fun c => (c.1, c.2 / 2)
            { h with
              ctr := ctr
              posted := h.posted.filter fun p =>
                let thr := ((ctxAt s p.2).map fun c => c.hotthr.toNat % 256).getD 0
                !decide (2 * Table.rd ctr 0 p.1 < thr) } }
      else s)

/-! ## Fills and leases (09 R192, R193) -/

/-- Whether a core's request to a line's home waits: for one before it, or because it has not reached the home's die (19 R397,
R398). -/
def requestWaits (s : State) (id core ctx addr : Nat) : Bool :=
  requestBehind s id (coreDie core) (homeDie s ctx addr) || underWay s 0 id (addr / 128) (coreDie core) (homeDie s ctx addr)

/-- The grain that an operation's fill of a line brings (11 R233): the smallest aligned 16, 32, 64 or 128 bytes that cover
every byte of the line in its pieces. Its first byte within the line, and its size. -/
def Op.grain (o : Op) (line : Nat) : Nat × Nat :=
  let spans := o.pieces.filterMap fun p =>
    if p.addr / 128 ≤ line ∧ line ≤ (p.addr + p.n - 1) / 128 then
      some (max p.addr (line * 128) % 128, min (p.addr + p.n - 1) (line * 128 + 127) % 128)
    else none
  let lo := (minOf (spans.map (·.1))).getD 0
  let hi := maxOf (spans.map (·.2))
  let size := if lo / 16 = hi / 16 then 16 else if lo / 32 = hi / 32 then 32 else if lo / 64 = hi / 64 then 64 else 128
  (lo / size * size, size)

/-- HOME_FILL: a line with update-only holders is recalled first (R203); otherwise the home serves the fill and grants
its lease. -/
def execHomeFill (op line : Nat) (s : State) : Out :=
  .next (match Table.look s.ops op with
    | none => s
    | some o =>
      if !fillable s op o line ∨ requestWaits s op o.core o.ctx (line * 128) then s
      else if !homeClear s line then updHome s line fun h => { h with recalling := true }
      else
        match o.pieces.find? fun p => p.addr / 128 = line || (p.addr + p.n - 1) / 128 = line with
        | none => s
        | some p =>
          let lease := match (groupAt s o.gid).bind fun g => kernelAt s g.kernel with
            | some k => leaseOf k p.scope
            | none => 0
          let leased : Bool := p.cache && decide (2 ≤ p.scope) && decide (lease ≠ 0)
          let e := if leased then gtOf s (homeDie s o.ctx (line * 128)) + lease else 0
          let s := if leased then updHome s line fun h => { h with eMax := max h.eMax e } else s
          let s := homeTouch s o.ctx (coreDie o.core) line false
          let (n, s) := freshId s
          let (off, size) := o.grain line
          { s with fills := Table.ins s.fills n
                     { op := op, ident := o.ident, core := o.core, ctx := o.ctx, line := line, off := off
                       bytes := Memory.readN s.mem (line * 128 + off) size
                       scope := p.scope, expiry := e, keep := p.cache && (leased || decide (p.scope ≤ 1))
                       owner := if p.scope = 0 then some o.gid else none, served := n } })

/-- The first key of a fill's bytes. -/
def Fill.base (f : Fill) : Nat := f.line * 128 + f.off

/-- A fill's bytes put into its L1, each where the L1 holds nothing newer or dirty there (R193). A line that the L1 holds at
scope 0 or 1 keeps its tag, or its want of one (R191). Where there is no room for it nothing is kept. -/
def installFill (s : State) (f : Fill) : State :=
  match l1Clear s f.core f.line with
  | none => s
  | some s =>
  let (sc, ow) := match s.l1.find? fun e => e.1 / 2 ^ 48 = f.core ∧ e.1 % 2 ^ 48 / 128 = f.line ∧ e.2.scope ≤ 1 with
    | some e => if f.scope ≤ 1 then (e.2.scope, e.2.owner) else (f.scope, f.owner)
    | none => (f.scope, f.owner)
  { s with l1 := (f.bytes.foldl (fun (acc : Table L1Byte × Nat) x =>
      let key := l1Key f.core acc.2
      let put : L1Byte :=
        { val := x, scope := sc, expiry := f.expiry, dirty := false, owner := ow, ctx := f.ctx, served := f.served }
      (match Table.look acc.1 key with
        | some b => if b.dirty ∨ f.served < b.served ∨ (b.scope ≤ 1 ∧ f.scope ≤ 1) then acc.1 else Table.ins acc.1 key put
        | none => Table.ins acc.1 key put, acc.2 + 1)) (s.l1, f.base)).1 }

/-- FILL_INSTALL: the fill reaches its L1; the access takes its bytes, at scope 0 or 1 the L1's own where it holds any, for that
is their point of coherence (R191, R199); and the L1 keeps them unless a discard has covered the fill. One addressed to a group
whose slot has gone on to another is dropped and counted (07 R173). Leased bytes that the home served before it go then (R199).
A scope 0 line that another group's fill brought in loses its tag (R191). -/
def execFillInstall (fill : Nat) (s : State) : Out :=
  .next (match Table.look s.fills fill with
    | none => s
    | some f =>
      if responseWaits s fill f.core f.ctx (f.line * 128) then s else
      let s := { s with fills := Table.del s.fills fill }
      if !slotHolds s f.ident then dropLate { s with ops := Table.del s.ops f.op } f.ident else
      let s := match Table.look s.ops f.op with
        | some o => if f.scope ≤ 1 then l1Touch s f.core o.gid (f.line * 128) else s
        | none => s
      let s := { s with ops := Table.upd s.ops f.op fun o =>
                   o.capture fun a => if f.base ≤ a then (f.bytes[a - f.base]?).map fun x =>
                     if f.scope ≤ 1 then ((l1Serves s f.core a).map (·.val)).getD x else x else none }
      if f.keep then installFill s f
      else l1Drop s f.core fun a b =>
        decide (f.base ≤ a ∧ a < f.base + f.bytes.length ∧ 2 ≤ b.scope ∧ b.served < f.served))

/-- LEASE_EXPIRY: leased bytes whose expiry the die's GT has reached leave the L1. -/
def execLeaseExpiry (core line : Nat) (s : State) : Out :=
  .next (l1Drop s core fun a b => decide (a / 128 = line ∧ 2 ≤ b.scope ∧ b.expiry ≤ gtOf s (coreDie core)))

/-! ## Writes at their homes (09 R194) -/

/-- A write applied at its home, with its WCT. -/
def applyWrite (s : State) (id : Nat) (w : Write) : State :=
  let line := w.addr / 128
  let s := homeTouch s w.ctx (coreDie w.core) line true
  let wct := wctAt s line (gtOf s (homeDie s w.ctx w.addr))
  let s := updCtx s w.ctx fun c => { c with wct := max c.wct wct }
  let folded (f : AtomOp) (n : Nat) (b c : DWord) : List Byte :=
    toBytes n (foldOp f n (ofBytes (Memory.readN s.mem w.addr n)) b.toNat c.toNat)
  let s := match w.kind with
    | .store bs => homeBytes s w.addr bs
    | .atomic op lane f n b c =>
      { s with
        mem := Memory.writeN s.mem w.addr (folded f n b c)
        ops := Table.upd s.ops op fun o =>
          { o with got := ((Memory.readN s.mem w.addr n).foldl (fun (acc : Table Byte × Nat) y =>
              (Table.ins acc.1 acc.2 y, acc.2 + 1)) (o.got, gotKey lane 0)).1 } }
    | .reduce f _ n b => { s with mem := Memory.writeN s.mem w.addr (folded f n b 0) }
    | .fold f n b => { s with mem := Memory.writeN s.mem w.addr (folded f n b 0) }
  let s := l1Forget s w.core w.addr w.size
  let (n, s) := freshId s
  wakeSpin { s with writes := Table.ins s.writes id { w with wct := some wct, replied := n } } line

/-- HOME_WRITE_APPLY: a line with update-only holders is recalled first (R203). -/
def execHomeWriteApply (wr : Nat) (s : State) : Out :=
  .next (match Table.look s.writes wr with
    | none => s
    | some w =>
      let line := w.addr / 128
      if w.asks ∨ !applicable s wr w ∨ requestWaits s wr w.core w.ctx w.addr then s
      else if !homeClear s line then updHome s line fun h => { h with recalling := true }
      else applyWrite s wr w)

/-- WRITE_ACK: the acknowledgement brings the WCT to the fibres (R194, R197). Where their group has left its slot it is dropped
and counted (07 R173); the WCT is then in the record of a group that was saved (18 R371; log entry 57), and the kernel's record
waits for it (16 R346). -/
def execWriteAck (wr : Nat) (s : State) : Out :=
  .next (match Table.look s.writes wr with
    | none => s
    | some w => match w.wct with
      | none => s
      | some t =>
        if responseWaits s w.replied w.core w.ctx w.addr then s else
        let s := updKernel { s with writes := Table.del s.writes wr } w.kernel fun k => { k with wct := max k.wct t }
        let s := if slotHolds s w.ident then s else dropLate s w.ident
        if (groupAt s w.gid).isSome then noteWct s w.gid w.fibs w.scope t else s)

/-! ## Reductions without return (09 R202, R203) -/

/-- UPDATE_ONLY_GRANT: the home makes the core a holder with the grant's WCT, the core's leased copy of the line goes, and the
reduction is folded into the core's partial. A core that is a holder already folds under its grant. -/
def execUpdateOnlyGrant (wr : Nat) (s : State) : Out :=
  .next (match Table.look s.writes wr with
    | none => s
    | some w => match w.kind with
      | .reduce f ty n b =>
        if !applicable s wr w ∨ requestWaits s wr w.core w.ctx w.addr then s
        else
          let line := w.addr / 128
          let grant := (grantOf s w.core line).getD (wctAt s line (gtOf s (homeDie s w.ctx w.addr)))
          let s := if (grantOf s w.core line).isSome then s else
            l1Forget (updHome s line fun h => { h with holders := h.holders ++ [(w.core, grant)] }) w.core (line * 128) 128
          let s := foldInL1 s w.core w.ctx w.addr f ty n b
          let (m, s) := freshId s
          let wct := max grant (gtOf s (coreDie w.core))
          let s := updCtx s w.ctx fun c => { c with wct := max c.wct wct }
          { s with writes := Table.ins s.writes wr { w with wct := some wct, replied := m } }
      | _ => s)

/-- PARTIAL_FOLD: a partial sent home is folded, in the order in which its L1 sent them; a core with nothing left on
the line gives up its permission. -/
def execPartialFold (part : Nat) (s : State) : Out :=
  .next (match Table.look s.partials part with
    | none => s
    | some p =>
      let line := p.addr / 128
      let earlier := s.partials.any fun e => e.1 < part && e.2.sent && decide (e.2.core = p.core ∧ e.2.addr / 128 = line)
      if !p.sent ∨ earlier ∨ (homeOf s line).hold.isSome ∨ underWay s 0 part (p.addr / 128) (coreDie p.core) (homeDie s p.ctx p.addr) then s
      else
        let s := { foldPartial s p with partials := Table.del s.partials part }
        if s.partials.any fun e => e.2.core = p.core && decide (e.2.addr / 128 = line) then s
        else updHome s line fun h => { h with holders := h.holders.filter fun x => x.1 ≠ p.core })

/-- Whether retraining boundaries keep a recall from a line's holders, or their answers from its home (19 R390). -/
def recallHeld (s : State) (line : Nat) : Bool :=
  (homeOf s line).holders.any fun h => trafficHeld s (lineDie s line) (coreDie h.1) ||
    trafficHeld s (coreDie h.1) (lineDie s line)

/-- RECALL_REPLY: every holder's partials have come back (R203). -/
def execRecallReply (line : Nat) (s : State) : Out :=
  .next (if (homeOf s line).recalling ∧ !recallHeld s line then recallLine s line else s)

/-- HOLD_RECALL: the home takes back a summary unit's hold on a line (13 R290). -/
def execHoldRecall (line : Nat) (s : State) : Out :=
  .next (if (homeOf s line).hold.isSome then updHome s line fun h => { h with hold := none } else s)

/-- L1_EVICTION: the line's dirty bytes go home, its partials are sent, and the L1 drops it (09 R191, R203). -/
def execL1Eviction (core line : Nat) (s : State) : Out := .next (evictLine s core line)

/-- PAGE_WALK: a core's walker reads the tree for an address and its page TLB keeps the leaf (10 R211, R216). -/
def execPageWalk (core ctx va : Nat) (s : State) : Out := .next (translate s core ctx va).2

end Sys2Proof.Machine
end

