-- ==== Sys2Proof/Machine/NumTables.lean ====
section
/-! DEFINITION. The 64-entry tables of the special functions (03_numbers R74), each entry the nearest multiple of
2^-40, given here times 2^40; and the constants of R75. -/

namespace Sys2Proof.Machine

/-- Table REC: 1/x_i, times 2^40 (R74). -/
def recTable : List Nat :=
  [1099511627776, 1082596064272, 1066193093601, 1050279763846, 1034834473201, 1019836872140, 1005267773967, 991109072925,
    977343669134, 963955399694, 950928975374, 938249922369, 925904528653, 913879794515, 902163386893, 890743597186] ++
  [879609302221, 868749928119, 858155416801, 847816194912, 837723144972, 827867578561, 818241211368, 808836139973,
    799644820201, 790660046940, 781874935307, 773282903051, 764877654105, 756653163201, 748603661465, 740723622923] ++
  [733007751851, 725450970904, 718048409976, 710795395734, 703687441777, 696720239383, 689889648801, 683191691045,
    676622540170, 670178515978, 663856077148, 657651814745, 651562446089, 645584808969, 639715856161, 633952650249] ++
  [628292358729, 622732249360, 617269685769, 611902123284, 606627104980, 601442257929, 596345289641, 591333984686,
    586406201481, 581559869237, 576792985063, 572103611201, 567489872401, 562949953421, 558482096648, 554084599824]

/-- Table RSQ: 1/√x_i, times 2^40 (R74). -/
def rsqTable : List Nat :=
  [1099511627776, 1091021063432, 1082724204896, 1074613797030, 1066682959509, 1058925162300, 1051334203051, 1043904186252,
    1036629503992, 1029504818163, 1022525044003, 1015685334838, 1008981067942, 1002407831403, 995961411925, 989637783471] ++
  [983433096703, 977343669134, 971365975939, 965496641383, 959732430813, 954070243162, 948507103940, 943040158671,
    937666666733, 932383995588, 927189615363, 922081093758, 917056091259, 912112356639, 907247722717, 902460102371] ++
  [897747484769, 893107931826, 888539574850, 884040611386, 879609302221, 875243968564, 870942989373, 866704798824,
    862527883916, 858410782203, 854352079645, 850350408561, 846404445698, 842512910392, 838674562820, 834888202341] ++
  [831152665920, 827466826623, 823829592195, 820239903694, 816696734198, 813199087572, 809745997292, 806336525318,
    802969761030, 799644820201, 796360844025, 793116998184, 789912471955, 786746477363, 783618248364, 780527040069]

/-- Table SQT: √x_i, times 2^40 (R74). -/
def sqtTable : List Nat :=
  [1099511627776, 1108068267548, 1116559336300, 1124986318765, 1133350644479, 1141653690605, 1149896784587, 1158081206624,
    1166208191991, 1174278933217, 1182294582128, 1190256251763, 1198165018181, 1206021922157, 1213827970783, 1221584138972] ++
  [1229291370879, 1236950581248, 1244562656672, 1252128456794, 1259648815442, 1267124541699, 1274556420920, 1281945215693,
    1289291666757, 1296596493864, 1303860396604, 1311084055187, 1318268131184, 1325413268240, 1332520092741, 1339589214457] ++
  [1346621227154, 1353616709173, 1360576223989, 1367500320737, 1374389534720, 1381244387891, 1388065389314, 1394853035607,
    1401607811363, 1408330189553, 1415020631912, 1421679589313, 1428307502116, 1434904800512, 1441471904847, 1448009225935] ++
  [1454517165360, 1460996115757, 1467446461098, 1473868576950, 1480262830734, 1486629581968, 1492969182507, 1499281976763,
    1505568301930, 1511828488192, 1518062858923, 1524271730884, 1530455414412, 1536614213599, 1542748426467, 1548858345136]

/-- Table LGT: log2 x_i, times 2^40 (R74). -/
def lgtTable : List Nat :=
  [0, 24593670513, 48811850439, 72665833379, 96166410953, 119323902126, 142148180405, 164648699121,
    186834514936, 208714309726, 230296410986, 251588810853, 272599183877, 293334903628, 313803058232, 334010464915] ++
  [353963683636, 373669029871, 393132586612, 412360215640, 431357568124, 450130094590, 468683054306, 487021524133,
    505150406860, 523074439069, 540798198572, 558326111421, 575662458546, 592811382031, 609776891055, 626562867513] ++
  [643173071356, 659611145637, 675880621313, 691984921795, 707927367273, 723711178821, 739339482309, 754815312112,
    770141614652, 785321251761, 800357003888, 815251573160, 830007586292, 844627597367, 859114090496, 873469482342] ++
  [887696124545, 901796306033, 915772255233, 929626142182, 943360080554, 956976129588, 970476295949, 983862535498,
    997136754992, 1010300813719, 1023356525056, 1036305657968, 1049149938451, 1061891050909, 1074530639480, 1087070309310]

/-- Table EXT: 2^(i/64), times 2^40 (R74). -/
def expTable : List Nat :=
  [1099511627776, 1111484524408, 1123587797336, 1135822866266, 1148191166361, 1160694148413, 1173333279014, 1186110040723,
    1199025932245, 1212082468605, 1225281181324, 1238623618601, 1252111345494, 1265745944104, 1279529013758, 1293462171200] ++
  [1307547050779, 1321785304641, 1336178602923, 1350728633946, 1365437104419, 1380305739635, 1395336283673, 1410530499604,
    1425890169699, 1441417095635, 1457113098709, 1472980020050, 1489019720837, 1505234082514, 1521625007013, 1538194416978] ++
  [1554944255988, 1571876488786, 1588993101510, 1606296101926, 1623787519664, 1641469406453, 1659343836365, 1677412906057,
    1695678735018, 1714143465815, 1732809264348, 1751678320101, 1770752846399, 1790035080670, 1809527284706, 1829231744928] ++
  [1849150772653, 1869286704369, 1889641902006, 1910218753212, 1931019671637, 1952047097213, 1973303496441, 1994791362681,
    2016513216442, 2038471605683, 2060669106106, 2083108321460, 2105791883849, 2128722454038, 2151902721764, 2175335406057]

/-- Table SIN: sin(iπ/128), times 2^40 (R74). -/
def sinTable : List Nat :=
  [0, 26983366121, 53950478471, 80885093070, 107770985514, 134591960745, 161331862813, 187974584598,
    214504077523, 240904361213, 267159533123, 293253778120, 319171378006, 344896720990, 370414311084, 395708777449] ++
  [420764883643, 445567536804, 470101796741, 494352884935, 518306193436, 541947293666, 565261945112, 588236103898,
    610855931251, 633107801833, 654978311948, 676454287619, 697522792521, 718171135775, 738386879591, 758157846761] ++
  [777472127994, 796318089088, 814684377941, 832559931389, 849933981865, 866796063891, 883136020380, 898944008753,
    914210506869, 928926318760, 943082580171, 956670763901, 969682684934, 982110505377, 993946739174, 1005184256622] ++
  [1015816288660, 1025836430950, 1035238647732, 1044017275463, 1052167026225, 1059682990914, 1066560642194, 1072795837223,
    1078384820155, 1083324224394, 1087611074629, 1091242788621, 1094217178761, 1096532453388, 1098187217867, 1099180475430]

/-- Table COS: cos(iπ/128), times 2^40 (R74). -/
def cosTable : List Nat :=
  [1099511627776, 1099180475430, 1098187217867, 1096532453388, 1094217178761, 1091242788621, 1087611074629, 1083324224394,
    1078384820155, 1072795837223, 1066560642194, 1059682990914, 1052167026225, 1044017275463, 1035238647732, 1025836430950] ++
  [1015816288660, 1005184256622, 993946739174, 982110505377, 969682684934, 956670763901, 943082580171, 928926318760,
    914210506869, 898944008753, 883136020380, 866796063891, 849933981865, 832559931389, 814684377941, 796318089088] ++
  [777472127994, 758157846761, 738386879591, 718171135775, 697522792521, 676454287619, 654978311948, 633107801833,
    610855931251, 588236103898, 565261945112, 541947293666, 518306193436, 494352884935, 470101796741, 445567536804] ++
  [420764883643, 395708777449, 370414311084, 344896720990, 319171378006, 293253778120, 267159533123, 240904361213,
    214504077523, 187974584598, 161331862813, 134591960745, 107770985514, 80885093070, 53950478471, 26983366121]

/-- Table THT: tanh(i/8), times 2^40 (R74). -/
def thtTable : List Nat :=
  [0, 136727571397, 269290917172, 394018126386, 508103187802, 609788843484, 698353658520, 773952396385,
    837381630120, 889835937058, 932697725785, 967379686695, 995221029744, 1017428934449, 1035053350682, 1048983856992] ++
  [1059959533790, 1068585384850, 1075351085424, 1080649537877, 1084793892948, 1088032449979, 1090561300285, 1092534824423,
    1094074271952, 1095274693444, 1096210493083, 1096939847506, 1097508205013, 1097951046065, 1098296054698, 1098564822741] ++
  [1098774185040, 1098937264190, 1099064287120, 1099163222846, 1099240280234, 1099300296329, 1099347039181, 1099383443927,
    1099411796807, 1099433878558, 1099451076151, 1099464469836, 1099474900961, 1099483024798, 1099489351690, 1099494279104] ++
  [1099498116593, 1099501105242, 1099503432810, 1099505245524, 1099506657270, 1099507756740, 1099508613009, 1099509279873,
    1099509799227, 1099510203700, 1099510518704, 1099510764030, 1099510955090, 1099511103887, 1099511219771, 1099511310022]

/-- ⌊2/π × 2^576⌋: 2/π lies between this times 2^-576 and one more (R75). -/
def twoOverPi : Nat :=
  157455423885390313762658407251290096019510718747359492657776553905878851080891155365850017530998893621185647483140530709492942997317730329207330800726357965581151445761097281

/-- C1 (R75), times 2^32. -/
def c1Const : Nat := 0xB17217F8
/-- C2 (R75), times 2^32. -/
def c2Const : Nat := 0x3D7F7BFF
/-- C3 (R75), times 2^32. -/
def c3Const : Nat := 0x0E35846B
/-- KH (R75), times 2^32. -/
def khConst : Nat := 0xB504F334
/-- KL (R75), times 2^31. -/
def klConst : Nat := 0xB8AA3B29
/-- KP (R75), times 2^31. -/
def kpConst : Nat := 0xC90FDAA2

/-- Entry `i` of a table. -/
def entry (t : List Nat) (i : Nat) : Nat := t.getD i 0

end Sys2Proof.Machine
end

