-- ==== Sys2Proof/Machine/Special.lean ====
section
/-! DEFINITION. The special functions (03_numbers R73 to R76). -/

namespace Sys2Proof.Machine

/-- An exact dyadic, m × 2^e. -/
structure Dyadic where
  m : Int
  e : Int
  deriving DecidableEq, Repr

/-- The exact sum. -/
def dyAdd (a b : Dyadic) : Dyadic :=
  let k := min a.e b.e
  { m := a.m * (2 ^ (a.e - k).toNat : Nat) + b.m * (2 ^ (b.e - k).toNat : Nat), e := k }

/-- The exact product. -/
def dyMul (a b : Dyadic) : Dyadic := { m := a.m * b.m, e := a.e + b.e }

/-- The negation. -/
def dyNeg (a : Dyadic) : Dyadic := { a with m := -a.m }

/-- An integer. -/
def dyInt (n : Int) : Dyadic := { m := n, e := 0 }

/-- A scaling by a power of two. -/
def dyScale (a : Dyadic) (k : Int) : Dyadic := { a with e := a.e + k }

/-- The sum of several. -/
def dySum : List Dyadic → Dyadic
  | [] => dyInt 0
  | x :: xs => dyAdd x (dySum xs)

/-- A table entry (R73: a multiple of 2^-40). -/
def dyEntry (t : List Nat) (i : Nat) : Dyadic := { m := entry t i, e := -40 }

/-- The exact value of a dyadic over a small denominator; zero is +0. -/
def dyExt (a : Dyadic) (d : Nat) : Ext := .fin (a.m < 0) a.m.natAbs d a.e

/-- The eight functions (05 R122). -/
inductive SpecialFn where
  | rcp | rsq | sqrt | exp2 | log2 | sin | cos | tanh
  deriving DecidableEq, Repr

/-- A special function's result before rounding: an encoding returned without `round()`, an exact value, or two bounds
that enclose the exact value of R75. -/
inductive SpecialRes where
  | direct (x : Ext)
  | exact (x : Ext)
  | between (lo hi : Ext)
  deriving DecidableEq, Repr

/-- The exact value `R75` gives for x = ±m × 2^e written as an integer `n` of 2^`g`, for the functions that reduce by
i, t and u. -/
def specialTable (fn : SpecialFn) (neg : Bool) (n : Nat) (g : Int) : Ext :=
  let l := Nat.log2 n
  let e : Int := g + l
  let i := n * 64 / 2 ^ l - 64
  let t : Dyadic := { m := (n * 64 - (64 + i) * 2 ^ l : Nat), e := -6 - (l : Int) }
  let u := dyMul t (dyEntry recTable i)
  let u2 := dyMul u u
  let u3 := dyMul u2 u
  let k := e / 2
  let odd := e % 2 = 1
  match fn with
  | .rcp =>
    let p := dyMul (dyEntry recTable i) (dySum [dyInt 1, dyNeg u, u2, dyNeg u3])
    dyExt (dyScale (if neg then dyNeg p else p) (-e)) 1
  | .rsq =>
    let s := dySum [dyInt 1, dyNeg (dyScale u (-1)), dyScale (dyMul (dyInt 3) u2) (-3),
      dyNeg (dyScale (dyMul (dyInt 5) u3) (-4))]
    let p := dyMul (dyEntry rsqTable i) s
    dyExt (dyScale (if odd then dyMul p { m := khConst, e := -32 } else p) (-k)) 1
  | .sqrt =>
    let s := dySum [dyInt 1, dyScale u (-1), dyNeg (dyScale u2 (-3)), dyScale u3 (-4)]
    let p := dyMul (dyEntry sqtTable i) s
    dyExt (dyScale (if odd then dyMul p { m := khConst, e := -31 } else p) k) 1
  | _ =>
    -- FLOG2, over the denominator 3
    let s := dySum [dyMul (dyInt 3) u, dyNeg (dyScale (dyMul (dyInt 3) u2) (-1)), u3]
    dyExt (dySum [dyMul (dyInt 3) (dyInt e), dyMul (dyInt 3) (dyEntry lgtTable i), dyMul { m := klConst, e := -31 } s]) 3

/-- FEXP2 (R75) of ±n × 2^g. -/
def specialExp2 (neg : Bool) (n : Nat) (g : Int) : Ext :=
  -- x in units of 2^-h, h at least 6
  let h : Nat := max 6 (-g).toNat
  let x : Int := (if neg then -(n : Int) else n) * (2 ^ (g + h).toNat : Nat)
  let q : Int := x / (2 ^ h : Nat)
  let f : Nat := (x % (2 ^ h : Nat)).toNat
  let i := f / 2 ^ (h - 6)
  let t : Dyadic := { m := (f % 2 ^ (h - 6) : Nat), e := -(h : Int) }
  let t2 := dyMul t t
  let c (v : Nat) (d : Dyadic) := dyMul { m := v, e := -32 } d
  let s := dySum [dyInt 1, c c1Const t, c c2Const t2, c c3Const (dyMul t2 t)]
  dyExt (dyScale (dyMul (dyEntry expTable i) s) q) 1

/-- The bounds past which FEXP2's argument only tells overflow from underflow: |x| ≥ 2^9. -/
def specialExp2Big (neg : Bool) : Ext := .fin false 1 1 (if neg then -512 else 512)

/-- FSIN or FCOS (R75), with the exact quotient |x| × 2/π enclosed by the constant's 576 bits; the two bounds enclose
the exact p, whose slope in v is below 4. `none` where the enclosure leaves k or i open. -/
def specialTrig (isSin neg : Bool) (n : Nat) (g : Int) : Option (Dyadic × Dyadic) :=
  let s : Nat := (576 - g).toNat
  let q := n * twoOverPi % 2 ^ (s + 2)
  let k := q / 2 ^ s
  let v := q % 2 ^ s
  let i := v / 2 ^ (s - 6)
  let rest := v % 2 ^ (s - 6)
  if 2 ^ (s - 6) ≤ rest + n then none
  else
    let b := dyMul { m := kpConst, e := -31 } { m := rest, e := -(s : Int) }
    let b2 := dyMul b b
    -- six times sb and cb
    let sb := dyAdd (dyMul (dyInt 6) b) (dyNeg (dyMul b2 b))
    let cb := dyAdd (dyInt 6) (dyNeg (dyMul (dyInt 3) b2))
    let sn := dyEntry sinTable i
    let cs := dyEntry cosTable i
    let sv := dyAdd (dyMul sn cb) (dyMul cs sb)
    let cv := dyAdd (dyMul cs cb) (dyNeg (dyMul sn sb))
    let (a, c) := match k with
      | 0 => (sv, cv)
      | 1 => (cv, dyNeg sv)
      | 2 => (dyNeg sv, dyNeg cv)
      | _ => (dyNeg cv, sv)
    let p := if isSin then (if neg then dyNeg a else a) else c
    let w : Dyadic := { m := 24 * n, e := -(s : Int) }
    some (dyAdd p (dyNeg w), dyAdd p w)

/-- FTANH (R75) of ±n × 2^g with |x| below 8, over the denominator 3. -/
def specialTanh (neg : Bool) (n : Nat) (g : Int) : Ext :=
  let h : Nat := max 3 (-g).toNat
  let x := n * 2 ^ (g + h).toNat
  let i := x / 2 ^ (h - 3)
  let t : Dyadic := { m := (x % 2 ^ (h - 3) : Nat), e := -(h : Int) }
  let y := dyEntry thtTable i
  let y2 := dyMul y y
  let c1 := dyAdd (dyInt 1) (dyNeg y2)
  let t2 := dyMul t t
  let p := dySum [dyMul (dyInt 3) y, dyMul (dyInt 3) (dyMul c1 t), dyNeg (dyMul (dyInt 3) (dyMul y (dyMul c1 t2))),
    dyMul c1 (dyMul (dyAdd (dyMul (dyInt 3) y2) (dyInt (-1))) (dyMul t2 t))]
  dyExt (if neg then dyNeg p else p) 3

/-- A special function of an FP32 encoding, before rounding (R75, R76). -/
def special (fn : SpecialFn) (x : Nat) : SpecialRes :=
  match Fmt.fp32.value x with
  | .nan => .direct .nan
  | .inf neg => .direct (match fn with
    | .rcp => .fin neg 0 1 0
    | .rsq => if neg then .nan else .fin false 0 1 0
    | .sqrt => if neg then .nan else .inf false
    | .log2 => if neg then .nan else .inf false
    | .exp2 => if neg then .fin false 0 1 0 else .inf false
    | .sin => .nan
    | .cos => .nan
    | .tanh => .fin neg 1 1 0)
  | .fin neg n _ g =>
    if n = 0 then .direct (match fn with
      | .rcp => .inf neg
      | .rsq => .inf neg
      | .sqrt => .fin neg 0 1 0
      | .log2 => .inf true
      | .exp2 => .fin false 1 1 0
      | .sin => .fin neg 0 1 0
      | .cos => .fin false 1 1 0
      | .tanh => .fin neg 0 1 0)
    else match fn with
      | .rcp => .exact (specialTable .rcp neg n g)
      | .rsq => if neg then .direct .nan else .exact (specialTable .rsq neg n g)
      | .sqrt => if neg then .direct .nan else .exact (specialTable .sqrt neg n g)
      | .log2 => if neg then .direct .nan else .exact (specialTable .log2 neg n g)
      | .exp2 => .exact (if 9 ≤ g + Nat.log2 n then specialExp2Big neg else specialExp2 neg n g)
      | .sin => match specialTrig true neg n g with
        | some (a, b) => .between (dyExt a 6) (dyExt b 6)
        | none => .between (.fin true 1 1 0) (.fin false 1 1 0)
      | .cos => match specialTrig false neg n g with
        | some (a, b) => .between (dyExt a 6) (dyExt b 6)
        | none => .between (.fin true 1 1 0) (.fin false 1 1 0)
      | .tanh => .exact (if 3 ≤ g + Nat.log2 n then .fin neg 1 1 0 else specialTanh neg n g)

/-- Whether a special function calls `round()`, and so draws noise under SR (R76, 05 R122). -/
def specialRounds (fn : SpecialFn) (x : Nat) : Bool :=
  match special fn x with
  | .direct _ => false
  | _ => true

/-- A special function's FP32 result (R73). Where the enclosure of FSIN's or FCOS's exact value does not decide the
rounding, the result is the free value of log entry 5. -/
def specialResult (fn : SpecialFn) (mode : Nat) (sat : Bool) (u x : Nat) : Nat :=
  match special fn x with
  | .direct v => roundTo .fp32 1 sat 0 v
  | .exact v => roundTo .fp32 mode sat u v
  | .between lo hi =>
    let a := roundTo .fp32 mode sat u lo
    let b := roundTo .fp32 mode sat u hi
    if a = b then a else (Config.undecided (BitVec.ofNat 32 x)).toNat

end Sys2Proof.Machine
end

