-- ==== Sys2Proof/Machine/LaneFloat.lean ====
section
/-! DEFINITION. Floating-point arithmetic, special functions, packed halves, dot products and conversions
(05 R119 to R125). -/

namespace Sys2Proof.Machine

/-- An FP32 form (R119). -/
def Form.float (sat : Bool) (a b c : Use) : Form := .regs [0, 1] sat a b c

/-- An FP32 result rounded once from its exact value, drawing one value under SR (R119). -/
def floatFn (f : Nat → Nat → Nat → Nat → Ext) : LaneFn :=
  { draws := fun _ _ _ => 1
    value := fun m x l u => roundTo .fp32 m.rnd m.sat (u 0) (f m.rnd (x.a l) (x.b l) (x.c l)) }

/-- An FP32 operand's value. -/
def fv (x : Nat) : Ext := Fmt.fp32.value x

/-- FADD. -/
def execFadd (d a b : LReg) (s : State) : Out :=
  laneReg s (.float true .src .src .unused) d a b (floatFn fun r a b _ => Ext.add (r = 3) (fv a) (fv b))
/-- FSUB. -/
def execFsub (d a b : LReg) (s : State) : Out :=
  laneReg s (.float true .src .src .unused) d a b (floatFn fun r a b _ => Ext.add (r = 3) (fv a) (fv b).negate)
/-- FMUL. -/
def execFmul (d a b : LReg) (s : State) : Out :=
  laneReg s (.float true .src .src .unused) d a b (floatFn fun _ a b _ => Ext.mul (fv a) (fv b))
/-- FFMA. -/
def execFfma (d a b : LReg) (s : State) : Out :=
  laneReg s (.float true .src .src .src) d a b
    (floatFn fun r a b c => Ext.add (r = 3) (Ext.mul (fv a) (fv b)) (fv c))

/-- FRND's result (R119): an integral value under RND, keeping the sign of a zero; ±∞ is subject to SAT alone. -/
def frndResult (mode : Nat) (sat : Bool) (u a : Nat) : Nat :=
  match fv a with
  | .fin neg m d e =>
    if m = 0 then a else
      let r := roundInt mode u neg m d e
      roundTo .fp32 1 sat 0 (.fin neg r.natAbs 1 0)
  | x => roundTo .fp32 1 sat 0 x

/-- FRND: a lane whose operand is finite and not zero draws one value under SR. -/
def execFrnd (d a : LReg) (s : State) : Out :=
  laneReg s (.float true .src .unused .unused) d a .zero
    { draws := fun _ x l => if (fv (x.a l)).isNonzero then 1 else 0
      value := fun m x l u => frndResult m.rnd m.sat (u 0) (x.a l) }

/-! ## Minimum, maximum, class (R120, R121) -/

/-- The lesser or greater of two encodings (R120): one operand's bits, −0 below +0, A where they are equal. -/
def minMax (f : Fmt) (wantMax : Bool) (a b : Nat) : Nat :=
  let x := f.value a
  let y := f.value b
  if x.isNan ∧ y.isNan then f.canon else if x.isNan then b else if y.isNan then a
  else
    let o := match Ext.cmp x y with
      | some .eq => if x.neg? = y.neg? then Ordering.eq else if x.neg? then .lt else .gt
      | some z => z
      | none => .eq
    match o with
    | .eq => a
    | .lt => if wantMax then b else a
    | .gt => if wantMax then a else b

/-- FMIN. -/
def execFmin (d a b : LReg) (s : State) : Out :=
  laneReg s (.float false .src .src .unused) d a b (bitsFn fun a b _ => minMax .fp32 false a b)
/-- FMAX. -/
def execFmax (d a b : LReg) (s : State) : Out :=
  laneReg s (.float false .src .src .unused) d a b (bitsFn fun a b _ => minMax .fp32 true a b)
/-- FCLASS. -/
def execFclass (d a : LReg) (s : State) : Out :=
  laneReg s (.float false .src .unused .unused) d a .zero (bitsFn fun a _ _ => classMask a)

/-! ## Special functions (R122) -/

/-- A special function over A. -/
def laneSpecial (fn : SpecialFn) (d a : LReg) (s : State) : Out :=
  laneReg s (.float true .src .unused .unused) d a .zero
    { draws := fun _ x l => if specialRounds fn (x.a l) then 1 else 0
      value := fun m x l u => specialResult fn m.rnd m.sat (u 0) (x.a l) }

/-- FRCP. -/
def execFrcp (d a : LReg) (s : State) : Out := laneSpecial .rcp d a s
/-- FRSQ. -/
def execFrsq (d a : LReg) (s : State) : Out := laneSpecial .rsq d a s
/-- FSQRT. -/
def execFsqrt (d a : LReg) (s : State) : Out := laneSpecial .sqrt d a s
/-- FEXP2. -/
def execFexp2 (d a : LReg) (s : State) : Out := laneSpecial .exp2 d a s
/-- FLOG2. -/
def execFlog2 (d a : LReg) (s : State) : Out := laneSpecial .log2 d a s
/-- FSIN. -/
def execFsin (d a : LReg) (s : State) : Out := laneSpecial .sin d a s
/-- FCOS. -/
def execFcos (d a : LReg) (s : State) : Out := laneSpecial .cos d a s
/-- FTANH. -/
def execFtanh (d a : LReg) (s : State) : Out := laneSpecial .tanh d a s

/-! ## Packed halves (R123) and dot products (R124) -/

/-- The half format that TYPE selects: FP16 under 0 and 2, BF16 under 3. -/
def halfFmt (ty : Nat) : Fmt := if ty = 3 then .bf16 else .fp16

/-- Element `j` of a packed pair (03 R57). -/
def half (x j : Nat) : Nat := x / 2 ^ (16 * j) % 65536

/-- A packed-half form. -/
def Form.half (sat : Bool) (c : Use) : Form := .regs [0, 2, 3] sat .src .src c

/-- A packed-half result, rounded element by element; element 0 draws before element 1. -/
def halfFn (f : Nat → Ext → Ext → Ext → Ext) : LaneFn :=
  { draws := fun _ _ _ => 2
    value := fun m x l u =>
      let t := halfFmt m.ty
      let e (j : Nat) : Nat := roundTo t m.rnd m.sat (u j)
        (f m.rnd (t.value (half (x.a l) j)) (t.value (half (x.b l) j)) (t.value (half (x.c l) j)))
      e 0 + e 1 * 65536 }

/-- A packed minimum or maximum. -/
def halfMinMax (wantMax : Bool) : LaneFn :=
  LaneFn.pure fun m x l =>
    let t := halfFmt m.ty
    minMax t wantMax (half (x.a l) 0) (half (x.b l) 0) + minMax t wantMax (half (x.a l) 1) (half (x.b l) 1) * 65536

/-- HADD2. -/
def execHadd2 (d a b : LReg) (s : State) : Out :=
  laneReg s (.half true .unused) d a b (halfFn fun r a b _ => Ext.add (r = 3) a b)
/-- HMUL2. -/
def execHmul2 (d a b : LReg) (s : State) : Out :=
  laneReg s (.half true .unused) d a b (halfFn fun _ a b _ => Ext.mul a b)
/-- HFMA2. -/
def execHfma2 (d a b : LReg) (s : State) : Out :=
  laneReg s (.half true .src) d a b (halfFn fun r a b c => Ext.add (r = 3) (Ext.mul a b) c)
/-- HMIN2. -/
def execHmin2 (d a b : LReg) (s : State) : Out := laneReg s (.half false .unused) d a b (halfMinMax false)
/-- HMAX2. -/
def execHmax2 (d a b : LReg) (s : State) : Out := laneReg s (.half false .unused) d a b (halfMinMax true)

/-- Element `j` of four packed bytes. -/
def byteOf (x j : Nat) : Nat := x / 2 ^ (8 * j) % 256

/-- DOT4: signed bytes under TYPE 0 and 8, unsigned under 9. -/
def execDot4 (d a b : LReg) (s : State) : Out :=
  laneReg s (.regs [0, 8, 9] true .src .src .src) d a b
    (LaneFn.pure fun m x l =>
      let sg := m.ty ≠ 9
      let e (v j : Nat) : Int := if sg then toSigned 8 (byteOf v j) else (byteOf v j : Int)
      let c : Int := if sg then toSigned 32 (x.c l) else (x.c l : Int)
      let y := c + ((List.range 4).map fun j => e (x.a l) j * e (x.b l) j).sum
      wrapTo 32 (if m.sat then (if sg then clamp (-(2 ^ 31)) (2 ^ 31 - 1) y else clamp 0 (2 ^ 32 - 1) y) else y))

/-- The exact sum of FDOT2's three terms, a zero sum signed by R56 over all three (R124). -/
def dot2Sum (rdn : Bool) (p q c : Ext) : Ext :=
  match Ext.add rdn (Ext.add rdn p q) c with
  | .fin n m d e =>
    if m = 0 then
      let plus (t : Ext) : Bool := match t with | .fin n m _ _ => m = 0 && !n | _ => false
      let minus (t : Ext) : Bool := match t with | .fin n m _ _ => m = 0 && n | _ => false
      .fin (if rdn then !(plus p && plus q && plus c) else minus p && minus q && minus c) 0 1 0
    else .fin n m d e
  | x => x

/-- FDOT2. -/
def execFdot2 (d a b : LReg) (s : State) : Out :=
  laneReg s (.regs [0, 2, 3] true .src .src .src) d a b
    { draws := fun _ _ _ => 1
      value := fun m x l u =>
        let t := halfFmt m.ty
        let p (j : Nat) : Ext := Ext.mul (t.value (half (x.a l) j)) (t.value (half (x.b l) j))
        roundTo .fp32 m.rnd m.sat (u 0) (dot2Sum (m.rnd = 3) (p 0) (p 1) (fv (x.c l))) }

/-! ## Conversions (R125) -/

/-- CVTIF. -/
def execCvtif (d a : LReg) (s : State) : Out :=
  laneReg s (.regs [0, 6, 7, 8, 9] false .src .unused .unused) d a .zero
    { draws := fun _ _ _ => 1
      value := fun m x l u =>
        let a := x.a l
        let v : Int := match m.ty with
          | 7 => a
          | 8 => toSigned 8 a
          | 9 => (a % 256 : Nat)
          | _ => toSigned 32 a
        roundTo .fp32 m.rnd false (u 0) (Ext.ofInt v) }

/-- CVTFI: INT8 is stored sign-extended, UINT8 zero-extended. -/
def execCvtfi (d a : LReg) (s : State) : Out :=
  laneReg s (.regs [0, 6, 7, 8, 9] true .src .unused .unused) d a .zero
    { draws := fun _ x l => match fv (x.a l) with | .fin .. => 1 | _ => 0
      value := fun m x l u =>
        let (lo, hi) : Int × Int := match m.ty with
          | 7 => (0, 2 ^ 32 - 1)
          | 8 => (-128, 127)
          | 9 => (0, 255)
          | _ => (-(2 ^ 31), 2 ^ 31 - 1)
        wrapTo 32 (toInteger m.rnd (u 0) lo hi (fv (x.a l))) }

/-- CVTFH. -/
def execCvtfh (d a b : LReg) (s : State) : Out :=
  laneReg s (.regs [0, 2, 3] true .src .src .unused) d a b
    { draws := fun _ _ _ => 2
      value := fun m x l u =>
        let t := halfFmt m.ty
        roundTo t m.rnd m.sat (u 0) (fv (x.a l)) + roundTo t m.rnd m.sat (u 1) (fv (x.b l)) * 65536 }

/-- CVTHF. -/
def execCvthf (d a : LReg) (s : State) : Out :=
  laneReg s { Form.regs [0, 2, 3] false .src .unused .unused with d := fun _ => .vo 2 } d a .zero
    (LaneFn.pure fun m x l =>
      let e (j : Nat) : Nat := convert (halfFmt m.ty) .fp32 0 false 0 (half (x.a l) j)
      e 0 + e 1 * 2 ^ 32)

/-- The FP8 format that TYPE selects. -/
def fp8Fmt (ty : Nat) : Fmt := if ty = 5 then .e5m2 else .e4m3

/-- Word `j` of a wide operand. -/
def wordOf (x j : Nat) : Nat := x / 2 ^ (32 * j) % 2 ^ 32

/-- CVT8P. -/
def execCvt8p (d a : LReg) (s : State) : Out :=
  laneReg s { Form.regs [0, 4, 5, 8, 9] true .src .unused .unused with a := fun _ => .vo 4 } d a .zero
    { draws := fun m _ _ => if m.ty = 8 ∨ m.ty = 9 then 0 else 4
      value := fun m x l u =>
        let e (j : Nat) : Nat :=
          let v := wordOf (x.a l) j
          match m.ty with
          | 8 => if m.sat then wrapTo 8 (clamp (-128) 127 (toSigned 32 v)) else v % 256
          | 9 => if m.sat then wrapTo 8 (clamp 0 255 (toSigned 32 v)) else v % 256
          | t => roundTo (fp8Fmt t) m.rnd m.sat (u j) (fv v)
        ((List.range 4).map fun j => e j * 2 ^ (8 * j)).sum }

/-- CVT8U. -/
def execCvt8u (d a : LReg) (s : State) : Out :=
  laneReg s { Form.regs [0, 4, 5, 8, 9] false .src .unused .unused with d := fun _ => .vo 4 } d a .zero
    (LaneFn.pure fun m x l =>
      let e (j : Nat) : Nat :=
        let v := byteOf (x.a l) j
        match m.ty with
        | 8 => wrapTo 32 (toSigned 8 v)
        | 9 => v
        | t => convert (fp8Fmt t) .fp32 0 false 0 v
      ((List.range 4).map fun j => e j * 2 ^ (32 * j)).sum)

end Sys2Proof.Machine
end

