-- ==== Sys2Proof/Machine/Matrix.lean ====
section
/-! DEFINITION. The matrix engine: fragments, tiles, tile operations in order, MLOOP (12_matrix R264 to R283). -/

namespace Sys2Proof.Machine

/-! ## Operand types (R266, R267) -/

/-- A type code of R266; code 0 is BF16. -/
def matType (c : Nat) : Option Nat :=
  match c with
  | 0 => some 3 | 2 => some 2 | 3 => some 3 | 4 => some 4 | 5 => some 5 | 10 => some 10 | 11 => some 11 | _ => none

/-- The effective type of B, whose code 0 is the effective type of A (R266). -/
def matTypeB (ta code : Nat) : Option Nat := if code = 0 then some ta else matType code

/-- Registers of a chunk (R266). -/
def chunkRegs (ty : Nat) : Nat := match ty with | 4 => 8 | 5 => 8 | 10 => 9 | 11 => 5 | _ => 16

/-- Stride of a chunk in registers (R266). -/
def chunkStride (ty : Nat) : Nat := match ty with | 4 => 8 | 5 => 8 | 10 => 12 | 11 => 8 | _ => 16

/-- Bytes of a chunk's elements in the scratchpad: c of R268. -/
def chunkBytes (ty : Nat) : Nat := match ty with | 4 => 32 | 5 => 32 | 10 => 32 | 11 => 16 | 1 => 128 | _ => 64

/-- Bytes of a panel: P of R268. -/
def panelBytes (ty : Nat) : Nat := match ty with | 10 => 1152 | 11 => 640 | t => 32 * chunkBytes t

/-- The value of element `k` of a chunk given as its registers' words, the scale last (R267). -/
def chunkValue (ty : Nat) (ws : List Nat) (k : Nat) : Ext :=
  match ty with
  | 2 => Fmt.fp16.value (ws.getD (k / 2) 0 / 2 ^ (16 * (k % 2)) % 2 ^ 16)
  | 4 => Fmt.e4m3.value (ws.getD (k / 4) 0 / 2 ^ (8 * (k % 4)) % 2 ^ 8)
  | 5 => Fmt.e5m2.value (ws.getD (k / 4) 0 / 2 ^ (8 * (k % 4)) % 2 ^ 8)
  | 10 => blockValue true (ws.getD 8 0) (ws.getD (k / 4) 0 / 2 ^ (8 * (k % 4)) % 2 ^ 8)
  | 11 => blockValue false (ws.getD 4 0) (ws.getD (k / 8) 0 / 2 ^ (4 * (k % 8)) % 2 ^ 4)
  | _ => Fmt.bf16.value (ws.getD (k / 2) 0 / 2 ^ (16 * (k % 2)) % 2 ^ 16)

/-- The 32 values of a chunk. -/
def chunkValues (ty : Nat) (ws : List Nat) : List Ext := (List.range 32).map (chunkValue ty ws)

/-- A chunk's words in a table of V registers. -/
def chunkOf (v : Table Word) (ty base lane : Nat) : List Nat :=
  (List.range (chunkRegs ty)).map fun j => (Table.rd v 0 ((base + j) * 64 + lane)).toNat

/-- The registers of a fragment as they stand (R271), numbered from its base. -/
def captureRegs (g : Group) (base n : Nat) : Table Word :=
  (Table.sel g.v fun key _ => decide (base ≤ key / 64 ∧ key / 64 < base + n)).map fun e => (e.1 - base * 64, e.2)

/-! ## Tiles (R264, R265) -/

/-- The key of a tile element of a group: within its own tiles, or within its block's shared ones. -/
def accKey (k : Kernel) (g : Group) (t row col : Nat) : Nat :=
  (if k.accShare then g.accSet * 32768 else 0) + tileKey t row col

/-- The tiles a group names. -/
def accTable (s : State) (k : Kernel) (g : Group) : Table Word :=
  if k.accShare then ((blockAt s g.block).map (·.shared)).getD [] else g.acc

/-- The tiles a group names, replaced. -/
def setAcc (s : State) (gid : Nat) (k : Kernel) (g : Group) (t : Table Word) : State :=
  if k.accShare then updBlock s g.block fun b => { b with shared := t } else updGroup s gid fun g => { g with acc := t }

/-- A NaN replaced by the canonical one (R273, R275). -/
def canonWord (x : Word) : Word := if (Fmt.fp32.value x.toNat).isNan then BitVec.ofNat 32 Fmt.fp32.canon else x

/-- Every element of a tile rewritten from its old value. -/
def mapTile (k : Kernel) (g : Group) (t : Nat) (f : Nat → Nat → Word → Word) (acc : Table Word) : Table Word :=
  (List.range 32).foldl (fun acc i => (List.range 64).foldl (fun acc j =>
    let key := accKey k g t i j
    Table.wr acc 0 key (f i j (Table.rd acc 0 key))) acc) acc

/-! ## Tile operations in order (R276) -/

/-- The steps of an MLOOP descriptor: COUNT + 1 (R279). -/
def loopSteps (x1 : Word) : Nat := bits x1.toNat 27 20 + 1

/-- The tile of an MLOOP's step. -/
def loopTile (x1 x2 : Word) (i : Nat) : Nat := bits x1.toNat 11 8 + bits x2.toNat 27 24 * i

/-- The quarter base of an MLOOP's step. -/
def loopBase (x1 x2 : Word) (i : Nat) : Int := bits x1.toNat 7 0 + toSigned 8 (bits x2.toNat 23 16) * i

/-- The A offset of an MLOOP's step. -/
def loopOffset (x0 x2 : Word) (i : Nat) : Nat := wrapTo 32 (x0.toNat + 64 * toSigned 16 (bits x2.toNat 15 0) * i)

/-- The tiles that a tile operation touches. -/
def TileOp.tileSet (o : TileOp) : List Nat :=
  match o.kind with
  | .mloop _ x1 x2 _ _ => dedup ((List.range (loopSteps x1)).map (loopTile x1 x2))
  | _ => [o.tile]

/-- Whether no earlier tile operation of the group waits on a tile of an operation. -/
def tileFree (ops : List TileOp) (o : TileOp) : Bool :=
  (ops.takeWhile fun x => x.id ≠ o.id).all fun x => !(x.tileSet.any o.tileSet.contains)

/-- One MMA over a tile (R271). -/
def applyMma (ta tb : Nat) (a b : Table Word) (k : Kernel) (g : Group) (t : Nat) (acc : Table Word) : Table Word :=
  let as_ := (List.range 64).map fun l => chunkValues ta (chunkOf a ta 0 l)
  let bs := (List.range 128).map fun n => chunkValues tb (chunkOf b tb (n / 64 * chunkStride tb) (n % 64))
  mapTile k g t (fun i j x =>
    BitVec.ofNat 32 ((List.range 2).foldl (fun y kb =>
      macBlock y ((as_.getD (i + 32 * kb) []).zip (bs.getD (j + 64 * kb) []))) x.toNat)) acc

/-- The words of a chunk in canonical layout in the scratchpad, its scale word last (R268). -/
def panelChunk (pad : Table Byte) (size ty panel row : Nat) : List Nat :=
  let rd (a : Nat) : Nat := (List.range 4).foldr (fun j n =>
    (if a + j < size then (Table.rd pad 0 (a + j)).toNat else 0) + 256 * n) 0
  let c := chunkBytes ty
  let ws := (List.range (c / 4)).map fun j => rd (panel + row * c + 4 * j)
  if ty = 10 ∨ ty = 11 then ws ++ [rd (panel + 32 * c + 4 * row)] else ws

/-- A column of a quarter at a step: the chunk of column `j` for K-block `kb`, at the quarter's own base register (R279,
R281). -/
def Quarter.chunk (q : Quarter) (tb i j kb : Nat) : List Ext :=
  chunkValues tb (chunkOf q.v tb (loopBase q.x1 q.x2 i).toNat (j + 16 * kb))

/-- The steps of an MLOOP over its member's tiles (R281), all of them at one instant, so that no other group's operation on a
shared tile comes between two (DESIGN CHOICE, log entry 3). -/
def applyLoop (x0 x1 x2 : Word) (quarters : List Quarter) (pad : Table Byte) (size : Nat) (k : Kernel) (g : Group)
    (acc : Table Word) : Table Word :=
  let ta := (matType (bits x1.toNat 15 12)).getD 3
  let tb := (matTypeB ta (bits x1.toNat 19 16)).getD 3
  (List.range (loopSteps x1)).foldl (fun acc i =>
    let a := loopOffset x0 x2 i
    let as_ := (List.range 128).map fun n => chunkValues ta (panelChunk pad size ta (a + n / 32 * panelBytes ta) (n % 32))
    let bs := (List.range 256).map fun n =>
      (quarters.getD (n % 64 / 16) ⟨0, 0, []⟩).chunk tb i (n % 16) (n / 64)
    mapTile k g (loopTile x1 x2 i) (fun r j x =>
      BitVec.ofNat 32 ((List.range 4).foldl (fun y kb =>
        macBlock y ((as_.getD (r + 32 * kb) []).zip (bs.getD (j + 64 * kb) []))) x.toNat)) acc) acc

/-- A tile operation applied to its group, the whole of it at one instant, where R275 lets each word of ACCLD and ACCST move at
its own (DESIGN CHOICE, log entry 3): tiles, registers, scratchpad (R271, R273 to R275, R281). -/
def applyTileOp (s : State) (gid : Nat) (k : Kernel) (g : Group) (o : TileOp) : State :=
  let acc := accTable s k g
  match o.kind with
  | .mma ta tb a b =>
    setAcc s gid k g (applyMma ta tb a b k g o.tile acc)
  | .accrd reg rowg lanes zero =>
    updGroup s gid fun g => g.settled o.id (
      let g := (Mask.lanes zero).foldl (fun g l => writeWide g reg l 8 0) g
      (Mask.lanes lanes).foldl (fun g l => (List.range 8).foldl (fun g i =>
        writeReg g (regPlus reg i) l (Table.rd acc 0 (accKey k g o.tile (8 * rowg + i) l))) g) g)
  | .accwr rowg lanes vals =>
    setAcc s gid k g ((Mask.lanes lanes).foldl (fun acc l => (List.range 8).foldl (fun acc i =>
      Table.wr acc 0 (accKey k g o.tile (8 * rowg + i) l) (canonWord (Table.rd vals 0 (i * 64 + l)))) acc) acc)
  | .accz => setAcc s gid k g (mapTile k g o.tile (fun _ _ _ => 0) acc)
  | .accld off =>
    match blockAt s g.block with
    | none => s
    | some b => setAcc s gid k g (mapTile k g o.tile (fun i j _ =>
        canonWord (BitVec.ofNat 32 (ofBytes (b.readN (off + 256 * i + 4 * j) 4)))) acc)
  | .accst off =>
    updBlock s g.block fun b => (List.range 2048).foldl (fun b n =>
      b.writeN (off + 4 * n) (toBytes 4 (Table.rd acc 0 (accKey k g o.tile (n / 64) (n % 64))).toNat)) b
  | .mloop x0 x1 x2 _ (some (quarters, pad)) =>
    setAcc s gid k g (applyLoop x0 x1 x2 quarters pad (((blockAt s g.block).map (·.size)).getD 0) k g acc)
  | .mloop .. => s

/-- Whether a tile operation is one that no flag counts and that is applied as soon as its turn comes. -/
def TileOp.silent (o : TileOp) : Bool := match o.kind with | .accwr .. => true | .accz => true | _ => false

/-- A tile operation of a group complete: applied, out of the queue, its flag lowered. It is applied to the whole tile at one
instant, so that two groups' operations on a shared tile come in one order for every element of it, where R277 lets the order
differ from element to element (DESIGN CHOICE, log entry 3). -/
def completeTileOp (s : State) (gid : Nat) (o : TileOp) : State :=
  match groupAt s gid with
  | none => s
  | some g => match kernelAt s g.kernel with
    | none => s
    | some k =>
      let s := applyTileOp s gid k g o
      flagDown (updGroup s gid fun g => { g with tileOps := g.tileOps.filter fun x => x.id ≠ o.id }) gid o.flag

/-- The ACCWR and ACCZ operations whose turn has come applied (R276). -/
def settleTiles : Nat → State → Nat → State
  | 0, s, _ => s
  | n + 1, s, gid =>
    match (groupAt s gid).bind fun g => g.tileOps.find? fun o => o.silent && tileFree g.tileOps o with
    | some o => settleTiles n (completeTileOp s gid o) gid
    | none => s

/-- The tile operations of a group settled; an arrival that waited for linked ones is counted when they are applied (08
R185). -/
def settleGroupTiles (s : State) (gid : Nat) : State :=
  let s := settleTiles (((groupAt s gid).map fun g => g.tileOps.length).getD 0) s gid
  match groupAt s gid with
  | some g => if g.links = [] then s else settleBarriers s g.kernel
  | none => s

/-- A tile operation issued: it joins its group's queue and its flag is raised. -/
def issueTileOp (s : State) (i : Iss) (kind : TileKind) (tile flag : Nat) : State :=
  let (n, s) := freshId s
  let o : TileOp := { id := n, fib := i.fid, kind := kind, tile := tile, flag := flag, applied := false }
  settleGroupTiles (flagUp (updGroup s i.gid fun g => { g with tileOps := g.tileOps ++ [o] }) i.gid flag) i.gid

/-- A tile operation completed by its event, when its turn has come. -/
def completeWhen (s : State) (gid op : Nat) (p : TileKind → Bool) : Out :=
  .next (match groupAt s gid with
    | none => s
    | some g => match g.tileOps.find? fun o => o.id = op with
      | some o => if p o.kind ∧ tileFree g.tileOps o then settleGroupTiles (completeTileOp s gid o) gid else s
      | none => s)

/-! ## MMA, ACCRD, ACCWR (R270 to R273) -/

/-- A V register that may begin `n` registers of a fragment: a multiple of 4, all within the window. -/
def fragOk (w n : Nat) (r : LReg) : Bool :=
  match r with | .v k => k.val % 4 = 0 && decide (k.val + n ≤ w) | _ => false

/-- The number of a V register. -/
def vNum (r : LReg) : Nat := match r with | .v k => k.val | _ => 0

/-- MMA. -/
def execMma (y t : BitVec 4) (a b : LReg) (s : State) : Out :=
  withIssuing s fun i =>
    let m := modsOf i.f.chain
    let types := (matType m.ty).bind fun ta => (matTypeB ta y.toNat).map fun tb => (ta, tb)
    let plain : Bool := (m.c = .zero || isQueue m.c) && decide (m.msel = 0 ∧ m.rnd = 0 ∧ m.ord = 0 ∧ m.imm = none) && !m.mz && !m.sat
    let flagOk : Bool := i.f.clause.any fun c => (if m.fb then c.flagB else c.flagA) ≠ 0
    match types with
    | none => illegal s i
    | some (ta, tb) =>
      let nb := chunkStride tb + chunkRegs tb
      let bad (n : Nat) (r : LReg) : Bool := !isQueue r && !fragOk i.g.window n r
      if !plain ∨ !flagOk ∨ (repOf i.f.chain).isSome ∨ i.g.width ≠ 64 ∨ i.g.tiles ≤ t.toNat ∨ bad (chunkRegs ta) a ∨ bad nb b then
        illegal s i
      else if isQueue a ∨ isQueue b ∨ isQueue m.c then trapHere s i 0x09 0 0
      else
        holdFor s i [(.vOnly (chunkRegs ta), a), (.vOnly nb, b)] (countFlag i.f.clause m)
          (finish (issueTileOp s i (.mma ta tb (captureRegs i.g (vNum a) (chunkRegs ta)) (captureRegs i.g (vNum b) nb))
            t.toNat (countFlag i.f.clause m)) i)

/-- The eight registers of ACCRD and ACCWR (R273). -/
def eightOk (w : Nat) (r : LReg) : Bool :=
  match r with
  | .v k => k.val % 4 = 0 && decide (k.val + 8 ≤ w)
  | .o k => k.val % 4 = 0 && decide (k.val + 8 ≤ 16)
  | _ => false

/-- What ACCRD and ACCWR share: their legality and the scoreboard, then `act`. -/
def tileMove (s : State) (r : LReg) (t : BitVec 4) (counting : Bool) (act : Iss → Mods → State) : Out :=
  withIssuing s fun i =>
    let m := modsOf i.f.chain
    let fm : Form :=
      { types := [0, 1], sat := false, d := fun _ => .imm, a := fun _ => .imm, b := fun _ => .imm, c := fun _ => .unused,
        imm := .none, rep := false, counting := counting, ords := [0] }
    if !modsOk fm i.f.clause m 0 ∨ (m.c ≠ .zero ∧ !isQueue m.c) ∨ (repOf i.f.chain).isSome ∨ i.g.width ≠ 64 ∨ i.g.tiles ≤ t.toNat ∨
        (!isQueue r ∧ !eightOk i.g.window r) then illegal s i
    else if isQueue r ∨ isQueue m.c then trapHere s i 0x09 0 0
    else holdFor s i [(.vOnly 8, r)] (if counting then countFlag i.f.clause m else 0) (act i m)

/-- ACCRD. -/
def execAccrd (r : LReg) (t : BitVec 4) (g : BitVec 2) (s : State) : Out :=
  tileMove s r t true fun i m =>
    finish (issueTileOp s i (.accrd r g.toNat (activeLanes i m) (zeroLanes i m)) t.toNat (countFlag i.f.clause m)) i

/-- ACCWR. -/
def execAccwr (r : LReg) (t : BitVec 4) (g : BitVec 2) (s : State) : Out :=
  tileMove s r t false fun i m =>
    let vals : Table Word := (Mask.lanes (activeLanes i m)).foldl (fun v l => (List.range 8).foldl (fun v j =>
      Table.wr v 0 (j * 64 + l) (readReg i.g i.f (regPlus r j) l)) v) []
    finish (issueTileOp s i (.accwr g.toNat (activeLanes i m) vals) t.toNat 0) i

/-! ## ACCZ, ACCLD, ACCST (R274, R275) -/

/-- ACCZ. -/
def execAccz (t : BitVec 4) (s : State) : Out :=
  uniform s (fun i => t.toNat < i.g.tiles) [] fun i => finish (issueTileOp s i .accz t.toNat 0) i

/-- Whether FN names a flag (02 R44). -/
def flagField (f : BitVec 4) : Bool := decide (1 ≤ f.toNat ∧ f.toNat ≤ 12)

/-- A uniform instruction counted against a flag: at 127 it stalls (02 R44). -/
def countedOn (s : State) (i : Iss) (f : BitVec 4) (act : State) : State :=
  if 127 ≤ i.g.flag f.toNat then stallFibre s i.gid i.fid (.flag f.toNat) else act

/-- ACCLD and ACCST: the offset, a multiple of 256. -/
def accMove (s : State) (t : BitVec 4) (a : BitVec 6) (f : BitVec 4) (kind : Nat → TileKind) : Out :=
  uniform s (fun i => decide (t.toNat < i.g.tiles) && flagField f) [a.toNat] fun i =>
    let o := (i.g.readS a.toNat).toNat
    if o % 256 ≠ 0 then trapHere s i 0x03 (BitVec.ofNat 64 o) 0
    else countedOn s i f (finish (issueTileOp s i (kind o) t.toNat f.toNat) i)

/-- ACCLD. -/
def execAccld (t : BitVec 4) (a : BitVec 6) (f : BitVec 4) (s : State) : Out := accMove s t a f .accld
/-- ACCST. -/
def execAccst (t : BitVec 4) (a : BitVec 6) (f : BitVec 4) (s : State) : Out := accMove s t a f .accst

/-! ## MLOOP (R278 to R282) -/

/-- Whether an MLOOP's descriptor passes the checks at issue (R279). -/
def loopOk (g : Group) (k : Kernel) (x0 x1 x2 : Word) : Bool :=
  decide (g.width = 64) && k.quart && decide (bits x1.toNat 31 28 = 0 ∧ bits x2.toNat 31 28 = 0 ∧ x0.toNat % 64 = 0) &&
  (match (matType (bits x1.toNat 15 12)).bind fun ta => matTypeB ta (bits x1.toNat 19 16) with
    | none => false
    | some tb => (List.range (loopSteps x1)).all fun i =>
        let b := loopBase x1 x2 i
        decide (loopTile x1 x2 i < g.tiles ∧ 0 ≤ b ∧ b % 4 = 0 ∧ b + chunkRegs tb ≤ g.window))

/-- The MLOOPs of a group that are not complete, oldest first. Whether one that has started still takes one of the queue's four
places is not stated (R280): here it does (DESIGN CHOICE, log entry 14). -/
def loopsOf (g : Group) : List TileOp := g.tileOps.filter fun o => match o.kind with | .mloop .. => true | _ => false

/-- MLOOP: a group whose queue of four is full stalls. -/
def execMloop (d : BitVec 6) (f : BitVec 4) (s : State) : Out :=
  uniform s (fun _ => decide (d.toNat ≤ 61) && flagField f) [d.toNat, d.toNat + 1, d.toNat + 2] fun i =>
    let x0 := i.g.readS d.toNat
    let x1 := i.g.readS (d.toNat + 1)
    let x2 := i.g.readS (d.toNat + 2)
    if !loopOk i.g i.k x0 x1 x2 then illegal s i
    else if 4 ≤ (loopsOf i.g).length then stallFibre s i.gid i.fid .loops
    else countedOn s i f (
      let s := updGroup s i.gid fun g => { g with mloopSeq := g.mloopSeq + 1 }
      finish (issueTileOp s i (.mloop x0 x1 x2 i.g.mloopSeq none) (bits x1.toNat 11 8) f.toNat) i)

/-- What must agree among the four members: COUNT and the effective types (R280). -/
def loopShape (o : TileOp) : Option (Nat × Nat × Nat) :=
  match o.kind with
  | .mloop _ x1 _ _ _ =>
    (matType (bits x1.toNat 15 12)).bind fun ta =>
      (matTypeB ta (bits x1.toNat 19 16)).map fun tb => (loopSteps x1, ta, tb)
  | _ => none

/-- The place of an MLOOP in its member's sequence, when it has not started. -/
def loopWaiting (o : TileOp) : Option Nat := match o.kind with | .mloop _ _ _ q none => some q | _ => none

/-- A member's quarter as its MLOOP finds it. -/
def quarterOf (h : Nat × Group × TileOp) : Quarter :=
  match h.2.2.kind with
  | .mloop _ x1 x2 _ _ => ⟨x1, x2, h.2.1.v⟩
  | _ => ⟨0, 0, h.2.1.v⟩

/-- The four members of a quartet, each with its oldest MLOOP not complete. -/
def quartetHeads (s : State) (block quartet : Nat) : List (Nat × Group × TileOp) :=
  (List.range 4).filterMap fun q =>
    match s.groups.find? fun e => e.2.block = block ∧ e.2.s1 = 4 * quartet + q ∧ e.2.state = .begun with
    | some e => (loopsOf e.2).head?.map fun o => (e.1, e.2, o)
    | none => none

/-- MLOOP_START: the four members' next MLOOPs meet. Where they disagree no step runs and each member owes trap 0x01 to
whichever of its fibres next waits; else the steps take their operands (log entry 14). -/
def execMloopStart (block quartet : Nat) (s : State) : Out :=
  .next (
    let hs := quartetHeads s block quartet
    let seqs := hs.map fun h => loopWaiting h.2.2
    if hs.length ≠ 4 ∨ seqs.any (·.isNone) ∨ (dedup seqs).length ≠ 1 then s
    else if (dedup (hs.map fun h => loopShape h.2.2)).length ≠ 1 then
      hs.foldl (fun s h =>
        let s := updGroup s h.1 fun g => { g with tileOps := g.tileOps.filter fun x => x.id ≠ h.2.2.id }
        let s := updGroup (flagDown s h.1 h.2.2.flag) h.1 fun g =>
          { g with owed := g.owed ++ [{ flag := h.2.2.flag, cause := 0x01, addr := 0, mask := 0 }] }
        settleGroupTiles s h.1) s
    else
      let quarters := hs.map quarterOf
      let pad := ((blockAt s block).map (·.scratch)).getD []
      hs.foldl (fun s h => updGroup s h.1 fun g =>
        { g with tileOps := g.tileOps.map fun x => if x.id = h.2.2.id then
            { x with kind := match x.kind with | .mloop x0 x1 x2 q _ => .mloop x0 x1 x2 q (some (quarters, pad)) | y => y }
            else x }) s)

/-! ## Completions -/

/-- MMA_COMPLETE. -/
def execMmaComplete (g op : Nat) (s : State) : Out :=
  completeWhen s g op fun k => match k with | .mma .. => true | _ => false
/-- ACCRD_COMPLETE. -/
def execAccrdComplete (g op : Nat) (s : State) : Out :=
  completeWhen s g op fun k => match k with | .accrd .. => true | _ => false
/-- ACC_MOVE_COMPLETE. -/
def execAccMoveComplete (g op : Nat) (s : State) : Out :=
  completeWhen s g op fun k => match k with | .accld .. => true | .accst .. => true | _ => false
/-- MLOOP_COMPLETE. -/
def execMloopComplete (g op : Nat) (s : State) : Out :=
  completeWhen s g op fun k => match k with | .mloop _ _ _ _ (some _) => true | _ => false

end Sys2Proof.Machine
end

