-- ==== Sys2Proof/Machine/Porter.lean ====
section
/-! DEFINITION. The Porter: descriptors, ranges, transfers, completion (03 R69 to R71; 09 R206 to R210; 11 R253 to R263;
12 R268, R269). -/

namespace Sys2Proof.Machine

/-! ## Descriptors (R255) -/

/-- A word of a descriptor. -/
def descAt (d : List Word) (j : Nat) : Nat := (d.getD j 0).toNat

/-- A doubleword field of a descriptor. -/
def desc64 (d : List Word) (j : Nat) : Nat := descAt d j + 2 ^ 32 * descAt d (j + 1)

/-- A check that failed: its pass, its register, its status. -/
abbrev BadField := Nat × Nat × Nat

/-- A failed check, when the condition holds. -/
def badIf (pass reg status : Nat) (c : Bool) : List BadField := if c then [(pass, reg, status)] else []

/-- Whether a command moves nothing: a length or count of 0 (R254). -/
def porterEmpty (op : PorterOp) (d : List Word) : Bool :=
  match op with | .tile => false | .store => false | _ => descAt d 4 = 0

/-- The first failing check: by pass, then register; at one register a rejected value comes before a misaligned one. -/
def firstBad (xs : List BadField) : Option BadField :=
  (sortBy (fun (x y : BadField) => decide (x.1 < y.1 ∨ (x.1 = y.1 ∧ (x.2.1 < y.2.1 ∨ (x.2.1 = y.2.1 ∧ x.2.2 < y.2.2))))) xs).head?

/-- The checks of an address field of `n` bytes: a scratchpad offset with its high word zero, or a global address. Of a global
address with a bit of [63:56] set the register of the high word is reported (DEDUCED, log entry 25). -/
def addrChecks (d : List Word) (j : Nat) (scratch : Bool) (n size : Nat) : List BadField :=
  if scratch then badIf 1 (j + 1) 3 (descAt d (j + 1) ≠ 0) ++ badIf 2 j 3 (size < descAt d j + n)
  else badIf 1 (j + 1) 3 (2 ^ 56 ≤ desc64 d j)

/-- Whether FMT names a format of the storage layouts (R258). -/
def fmtOk (f : Nat) : Bool := f = 1 || f = 2 || f = 3 || f = 4 || f = 5 || f = 10 || f = 11

/-- Whether FMT is B8 or B4. -/
def fmtBlock (f : Nat) : Bool := f = 10 || f = 11

/-- Bytes of an element of a floating-point FMT. -/
def fmtSize (f : Nat) : Nat := match f with | 1 => 4 | 4 => 1 | 5 => 1 | _ => 2

/-- The format of a floating-point FMT. -/
def fmtOf (f : Nat) : Fmt := match f with | 1 => .fp32 | 2 => .fp16 | 4 => .e4m3 | 5 => .e5m2 | _ => .bf16

/-- Bytes of a block record (03 R68). -/
def recordBytes (f : Nat) : Nat := if f = 10 then 36 else 20

/-- What a tile descriptor says (R258, R259). -/
structure Tiling where
  fmt : Nat
  kdim : Bool
  cm : Bool
  rows : Nat
  cols : Nat
  pitch : Nat
  base : Nat

/-- The tile of a descriptor. -/
def tilingOf (d : List Word) : Tiling :=
  { fmt := bits (descAt d 5) 3 0, kdim := bits (descAt d 5) 4 4 = 1, cm := bits (descAt d 5) 5 5 = 1
    rows := bits (descAt d 4) 15 0, cols := bits (descAt d 4) 31 16, pitch := descAt d 3, base := desc64 d 0 }

/-- The non-K extent. -/
def Tiling.lines (t : Tiling) : Nat := if t.kdim then t.cols else t.rows
/-- The K extent. -/
def Tiling.kext (t : Tiling) : Nat := if t.kdim then t.rows else t.cols
/-- Lines of the storage layout. -/
def Tiling.storeLines (t : Tiling) : Nat := if fmtBlock t.fmt then t.lines else if t.cm then t.cols else t.rows
/-- Bytes of one line of the storage layout. -/
def Tiling.lineBytes (t : Tiling) : Nat :=
  if fmtBlock t.fmt then t.kext / 32 * recordBytes t.fmt else fmtSize t.fmt * (if t.cm then t.rows else t.cols)
/-- Bytes from the base to the end of the last line. -/
def Tiling.extent (t : Tiling) : Nat := (t.storeLines - 1) * t.pitch + t.lineBytes
/-- A length rounded up to a multiple of 32. -/
def up32 (n : Nat) : Nat := (n + 31) / 32 * 32
/-- Bytes of the tile in canonical layout (12 R268). -/
def Tiling.canonical (t : Tiling) : Nat := up32 t.lines / 32 * (up32 t.kext / 32) * panelBytes t.fmt

/-- The checks of a tile's geometry (R258). -/
def tilingChecks (d : List Word) (t : Tiling) : List BadField :=
  let e := if fmtBlock t.fmt then 4 else fmtSize t.fmt
  badIf 1 1 3 (2 ^ 56 ≤ t.base) ++ badIf 1 0 4 (descAt d 0 % e ≠ 0) ++
  badIf 1 3 4 (t.pitch % e ≠ 0) ++ badIf 1 3 3 (t.pitch < t.lineBytes) ++
  badIf 1 4 3 (!decide (1 ≤ t.rows ∧ t.rows ≤ 4096 ∧ 1 ≤ t.cols ∧ t.cols ≤ 4096)) ++
  badIf 1 4 3 (fmtBlock t.fmt && decide (t.kext % 32 ≠ 0))

/-- The checks of each command's descriptor (R255 to R260). KREAL of a PSTORE in an FP format is taken up to the K extent and
not used (DEDUCED, log entry 25). -/
def porterChecks (op : PorterOp) (d : List Word) (size : Nat) : List BadField :=
  let ctl := descAt d 5
  let t := tilingOf d
  match op with
  | .copy =>
    addrChecks d 0 (bits ctl 0 0 = 1) (descAt d 4) size ++ addrChecks d 2 (bits ctl 1 1 = 1) (descAt d 4) size ++
    badIf 1 4 3 (2 ^ 24 < descAt d 4) ++ badIf 1 5 3 (4 ≤ ctl) ++ badIf 1 6 3 (descAt d 6 ≠ 0) ++ badIf 1 7 3 (descAt d 7 ≠ 0)
  | .fill =>
    addrChecks d 0 (bits ctl 1 1 = 1) (descAt d 4) size ++ badIf 1 3 3 (descAt d 3 ≠ 0) ++
    badIf 1 4 3 (2 ^ 24 < descAt d 4) ++ badIf 1 5 3 (ctl ≠ 0 && ctl ≠ 2) ++ badIf 1 6 3 (descAt d 6 ≠ 0) ++
    badIf 1 7 3 (descAt d 7 ≠ 0)
  | .tile =>
    tilingChecks d t ++ badIf 1 2 4 (descAt d 2 % 256 ≠ 0) ++ badIf 2 2 3 (size < descAt d 2 + t.canonical) ++
    badIf 1 5 3 (!fmtOk t.fmt || 64 ≤ ctl || (fmtBlock t.fmt && t.cm)) ++
    (if desc64 d 6 = 0 then [] else
      badIf 1 6 3 (fmtBlock t.fmt) ++ badIf 1 6 4 (descAt d 6 % 32 ≠ 0) ++ badIf 1 7 3 (2 ^ 56 ≤ desc64 d 6))
  | .store =>
    let split : Bool := bits ctl 6 6 = 1
    tilingChecks d t ++ badIf 1 2 4 (descAt d 2 % 4 ≠ 0) ++ badIf 2 2 3 (size < descAt d 2 + 4 * t.rows * t.cols) ++
    badIf 1 5 3 (!fmtOk t.fmt || (fmtBlock t.fmt && t.cm) || (split && !fmtBlock t.fmt) || decide (5 < bits ctl 9 7) ||
      (fmtBlock t.fmt && decide (bits ctl 10 7 ≠ 0)) || decide (bits ctl 15 11 ≠ 0 ∨ bits ctl 31 28 ≠ 0) ||
      decide (t.kext < bits ctl 27 16)) ++
    (if split then
      badIf 1 6 3 (desc64 d 6 = 0) ++ badIf 1 6 4 (descAt d 6 % 32 ≠ 0) ++ badIf 1 7 3 (2 ^ 56 ≤ desc64 d 6)
    else badIf 1 6 3 (descAt d 6 ≠ 0) ++ badIf 1 7 3 (descAt d 7 ≠ 0))
  | _ =>
    let n := descAt d 4
    badIf 1 1 3 (2 ^ 56 ≤ desc64 d 0) ++ badIf 2 2 3 (size < descAt d 2 + n * descAt d 3) ++
    badIf 1 3 3 (!decide (1 ≤ descAt d 3 ∧ descAt d 3 ≤ 65536)) ++ badIf 1 4 3 (65536 < n) ++
    badIf 1 6 4 (descAt d 6 % 4 ≠ 0) ++ badIf 2 6 3 (size < descAt d 6 + 4 * n)

/-- The checks that count for a command: one that moves nothing reads and writes no byte, so no size is checked (R254). -/
def commandChecks (op : PorterOp) (d : List Word) (size : Nat) : List BadField :=
  (porterChecks op d size).filter fun x => x.1 = 1 || !porterEmpty op d

/-- A range in bytes, in the order of a command's list: in the scratchpad, written, first byte, length. -/
abbrev RawRange := Bool × Bool × Nat × Nat

/-- The ranges of a command, in its list's order (R256 to R260). -/
def porterRanges (op : PorterOp) (d : List Word) : List RawRange :=
  let ctl := descAt d 5
  let at_ (j : Nat) (scratch : Bool) : Nat := if scratch then descAt d j else desc64 d j
  let t := tilingOf d
  let n := descAt d 4
  if porterEmpty op d then []
  else match op with
  | .copy =>
    [(bits ctl 0 0 = 1, false, at_ 0 (bits ctl 0 0 = 1), n), (bits ctl 1 1 = 1, true, at_ 2 (bits ctl 1 1 = 1), n)]
  | .fill => [(bits ctl 1 1 = 1, true, at_ 0 (bits ctl 1 1 = 1), n)]
  | .tile =>
    [(false, false, t.base, t.extent), (true, true, descAt d 2, t.canonical)] ++
    (if desc64 d 6 = 0 then [] else [(false, false, desc64 d 6, 32)])
  | .store =>
    [(true, false, descAt d 2, 4 * t.rows * t.cols), (false, true, t.base, t.extent)] ++
    (if bits ctl 6 6 = 1 then [(false, true, desc64 d 6, 32)] else [])
  | op =>
    let gath : Bool := op = .gath
    [(true, false, descAt d 6, 4 * n)] ++
    (if descAt d 7 = 0 then [] else [(false, !gath, desc64 d 0, (descAt d 7 - 1) * descAt d 5 + descAt d 3)]) ++
    [(true, gath, descAt d 2, n * descAt d 3)]

/-- A range as it is registered, rounded outwards to 64 bytes (09 R206). -/
def lockRange (r : RawRange) : Range :=
  { scratch := r.1, write := r.2.1, lo := r.2.2.1 / 64 * 64, hi := (r.2.2.1 + r.2.2.2 + 63) / 64 * 64 }

/-! ## Issue (R253, R254) -/

/-- The entries that a core's range-lock table holds (09 R206). -/
def lockEntries (s : State) (ck : Nat) : Nat := (s.porter.map fun e => if e.2.core = ck then e.2.ranges.length else 0).sum

/-- The values that a command draws at issue: PSTORE to a floating-point format under SR, one for each element. -/
def porterDraws (op : PorterOp) (d : List Word) : Nat :=
  let t := tilingOf d
  if op = .store ∧ bits (descAt d 5) 9 7 = 5 ∧ !fmtBlock t.fmt then t.rows * t.cols else 0

/-- A command entered (R254): its ranges registered, its flag raised, its token pending. -/
def enterPorter (s : State) (i : Iss) (c : PorterCmd) : State :=
  let (n, s) := freshId s
  let s := { s with porter := Table.ins s.porter n c }
  let s := match c.token with
    | some k => updGroup s i.gid fun g => { g with tokens := Table.ins g.tokens k n }
    | none => s
  finish (flagUp s i.gid c.flag) i

/-- A Porter command's word. -/
def porterWord (op : PorterOp) (t d : BitVec 6) (k : BitVec 1) (f : BitVec 4) (s : State) : Out :=
  let regs := (List.range 8).map (d.toNat + ·)
  uniform s (fun _ => decide (d.toNat % 8 = 0) && flagField f && (k = 1 || t = 0)) (regs ++ if k = 1 then [t.toNat] else [])
    fun i => committing s i fun s =>
      let ds := regs.map i.g.readS
      let blank : PorterCmd :=
        { op := op, gid := i.gid, fib := i.fid, core := i.ck, ctx := i.k.ctx, block := i.g.block, d := ds,
          token := if k = 1 then some t.toNat else none, flag := f.toNat, ranges := [], started := true, wct := 0,
          status := 0, info := 0, failAddr := 0, coins := [], outl := i.k.sample 0x023,
          dup := none }
      match firstBad (commandChecks op ds i.b.size) with
      | some (_, r, st) => countedOn s i f (enterPorter s i { blank with status := st, info := r, failAddr := r })
      | none =>
        let rs := (porterRanges op ds).map lockRange
        if 256 < lockEntries s i.ck + rs.length then stallFibre s i.gid i.fid (.locks rs.length)
        else countedOn s i f (
          let n := porterDraws op ds
          let s := openReplay s i.k i.g n
          match drawValues s i.k i.g n with
          | none => waitOn s i.gid i.fid (.noise n)
          | some coins => enterPorter (commitDraws s i.gid n) i { blank with ranges := rs, started := false, coins := coins })

/-- PCOPY. -/
def execPcopy (t d : BitVec 6) (k : BitVec 1) (f : BitVec 4) (s : State) : Out := porterWord .copy t d k f s
/-- PTILE. -/
def execPtile (t d : BitVec 6) (k : BitVec 1) (f : BitVec 4) (s : State) : Out := porterWord .tile t d k f s
/-- PSTORE. -/
def execPstore (t d : BitVec 6) (k : BitVec 1) (f : BitVec 4) (s : State) : Out := porterWord .store t d k f s
/-- PGATH. -/
def execPgath (t d : BitVec 6) (k : BitVec 1) (f : BitVec 4) (s : State) : Out := porterWord .gath t d k f s
/-- PSCAT. -/
def execPscat (t d : BitVec 6) (k : BitVec 1) (f : BitVec 4) (s : State) : Out := porterWord .scat t d k f s
/-- PFILL. -/
def execPfill (t d : BitVec 6) (k : BitVec 1) (f : BitVec 4) (s : State) : Out := porterWord .fill t d k f s

/-! ## Accesses of an engine to global memory (09 R190, R209; R254, R261) -/

/-- What stops an access: a page it must wait for, or a failure with its status and address. -/
inductive Halt where
  | wait (p : Pg) (va : Nat) (b : Block1)
  | fail (status : Nat) (range : Nat) (va : Nat)

/-- What a page does to an access of `n` bytes at an address, if it stops it. Retraining boundaries hold it as a page that it
waits for does (19 R390). -/
def meetEngine (s : State) (ctx die rng va n : Nat) (write : Bool) : Option Halt :=
  let p := translateCp s ctx va
  let k := p.key s ctx die va
  match meetPage s p k n write with
  | .go => if trafficHeld s die (homeDie s ctx k) then some (.wait p va .wait) else none
  | .denied => some (.fail 2 rng va)
  | .poison =>
    let l := ((linesOf k n).find? (badLine s)).getD (k / 128)
    some (.fail 1 rng (va + (l * 128 - k)))
  | b => some (.wait p va b)

/-- Bytes read by a core's engine: at the core's L1 where that is the point of coherence, else at the homes. -/
def enginePiece (s : State) (ck ctx va n : Nat) : List Byte × State :=
  let p := translateCp s ctx va
  let k := p.key s ctx (coreDie ck) va
  let s := touchWalk s ctx (coreDie ck) va
  if inL1 p then l1Load s ck ctx k n else engineRead s ctx (coreDie ck) k n

/-- A range read by a core's engine. -/
def engineGet (s : State) (ck ctx rng va n : Nat) : Except Halt (List Byte) × State :=
  (pagePieces va n).foldl (fun (acc : Except Halt (List Byte) × State) pc =>
    match acc.1 with
    | .error _ => acc
    | .ok bs => match meetEngine acc.2 ctx (coreDie ck) rng pc.1 pc.2 false with
      | some h => (.error h, acc.2)
      | none =>
        let (xs, s) := enginePiece acc.2 ck ctx pc.1 pc.2
        (.ok (bs ++ xs), s)) (.ok [], s)

/-- Bytes written by a core's engine within one page, with the latest WCT. -/
def enginePut (s : State) (ck gid ctx va : Nat) (bs : List Byte) : Nat × State :=
  let p := translateCp s ctx va
  let k := p.key s ctx (coreDie ck) va
  let s := touchWalk s ctx (coreDie ck) va
  if inL1 p then
    let s := l1Store s ck gid ctx p.scope k bs
    (gtOf s (coreDie ck), clearPoison s ((linesOf k bs.length).filter fun l => k ≤ l * 128 ∧ l * 128 + 128 ≤ k + bs.length))
  else engineWrite s ctx (coreDie ck) k bs

/-- A transfer's write: its range in the list, its space, its address, its bytes. -/
structure Xfer where
  rng : Nat
  scratch : Bool
  addr : Nat
  bytes : List Byte

/-- The writes of one command merged byte by byte, the last at each byte standing, as runs that lie in one page and in one
chunk of a spread page (10 R214). -/
def mergeXfers (rng : Nat) (xs : List (Nat × List Byte)) : List Xfer :=
  let cells : Table Byte := xs.foldl (fun t x =>
    (x.2.foldl (fun (acc : Table Byte × Nat) b => (Table.ins acc.1 acc.2 b, acc.2 + 1)) (t, x.1)).1) []
  ((cells.foldl (fun (acc : List (Nat × List Byte)) c => match acc with
    | (a, bs) :: rest =>
      if c.1 = a + bs.length ∧ c.1 / 4096 = a / 4096 then (a, c.2 :: bs) :: rest else (c.1, [c.2]) :: acc
    | [] => [(c.1, [c.2])]) []).reverse).map fun r => { rng := rng, scratch := false, addr := r.1, bytes := r.2.reverse }

/-- One run of bytes to a space, cut at pages. -/
def splitXfer (rng : Nat) (scratch : Bool) (a : Nat) (bs : List Byte) : List Xfer :=
  if scratch then [{ rng := rng, scratch := true, addr := a, bytes := bs }]
  else (pagePieces a bs.length).map fun pc =>
    { rng := rng, scratch := false, addr := pc.1, bytes := (bs.drop (pc.1 - a)).take pc.2 }

/-! ## What the commands write (R256 to R260) -/

/-- A source range of a command. -/
def sourceBytes (s : State) (c : PorterCmd) (rng : Nat) (scratch : Bool) (a n : Nat) : Except Halt (List Byte) × State :=
  if scratch then (.ok (((blockAt s c.block).map fun b => b.readN a n).getD []), s)
  else engineGet s c.core c.ctx rng a n

/-- Several source ranges of a command, in order. -/
def sourceMany (s : State) (c : PorterCmd) (rng n : Nat) : List Nat → Except Halt (List (List Byte)) × State
  | [] => (.ok [], s)
  | a :: as_ =>
    match sourceBytes s c rng false a n with
    | (.error h, s) => (.error h, s)
    | (.ok b, s) => match sourceMany s c rng n as_ with
      | (.error h, s) => (.error h, s)
      | (.ok bs, s) => (.ok (b :: bs), s)

/-- The valid entries of a duplication map (03 R71): source and destination. -/
def mapEntries (bs : List Byte) : List (Nat × Nat) :=
  (List.range 8).filterMap fun j =>
    let w := numAt bs (4 * j) 4
    if bits w 31 31 = 1 then some (bits w 11 0, bits w 27 16) else none

/-- A list with one place copied to another. -/
def copyPlace (xs : List Nat) (src dst : Nat) : List Nat := xs.mapIdx fun j x => if j = dst then xs.getD src 0 else x

/-- The canonical layout of a floating-point tile, from its elements by line and K (12 R268, R269). -/
def canonicalFp (t : Tiling) (dup : List (Nat × Nat)) (elem : Nat → Nat → Nat) : List Byte :=
  let kp := up32 t.kext
  let lp := up32 t.lines
  let z := fmtSize t.fmt
  let grid := (List.range lp).map fun l =>
    dup.foldl (fun row e => copyPlace row e.1 e.2)
      ((List.range kp).map fun k => if l < t.lines ∧ k < t.kext then elem l k else 0)
  (List.range (lp / 32)).flatMap fun lb => (List.range (kp / 32)).flatMap fun kb => (List.range 32).flatMap fun l =>
    (List.range 32).flatMap fun k => toBytes z ((grid.getD (32 * lb + l) []).getD (32 * kb + k) 0)

/-- The canonical layout of a B8 or B4 tile, from its storage lines (03 R68, 12 R268). -/
def canonicalBlock (t : Tiling) (lines : List (List Byte)) : List Byte :=
  let c := chunkBytes t.fmt
  let r := recordBytes t.fmt
  let rec_ (l kb : Nat) : List Byte := ((lines.getD l []).drop (kb * r)).take r
  (List.range (up32 t.lines / 32)).flatMap fun lb => (List.range (t.kext / 32)).flatMap fun kb =>
    ((List.range 32).flatMap fun l =>
      if 32 * lb + l < t.lines then (rec_ (32 * lb + l) kb).drop 4 else List.replicate c 0) ++
    ((List.range 32).flatMap fun l =>
      if 32 * lb + l < t.lines then (rec_ (32 * lb + l) kb).take 4 else toBytes 4 (2 ^ 22))

/-- PTILE's duplication map, read at the command's start: a command that waits for a source page keeps the map it read
(12 R269). -/
def tileMap (s : State) (id : Nat) (c : PorterCmd) : Except Halt (List (Nat × Nat)) × State :=
  let t := tilingOf c.d
  let m := desc64 c.d 6
  match c.dup with
  | some xs => (.ok xs, s)
  | none =>
    if m = 0 then (.ok [], s)
    else match sourceBytes s c 2 false m 32 with
      | (.ok bs, s) =>
        if (mapEntries bs).any fun e => up32 t.kext ≤ e.1 ∨ up32 t.kext ≤ e.2 then (.error (.fail 3 6 6), s)
        else (.ok (mapEntries bs), { s with porter := Table.ins s.porter id { c with dup := some (mapEntries bs) } })
      | (.error h, s) => (.error h, s)

/-- PTILE's write. -/
def tileWrites (s : State) (id : Nat) (c : PorterCmd) : Except Halt (List Xfer) × State :=
  let t := tilingOf c.d
  let (dup, s) := tileMap s id c
  match dup with
  | .error h => (.error h, s)
  | .ok dup =>
    match sourceMany s c 0 t.lineBytes ((List.range t.storeLines).map fun j => t.base + j * t.pitch) with
    | (.error h, s) => (.error h, s)
    | (.ok lines, s) =>
      let z := fmtSize t.fmt
      let elem (l k : Nat) : Nat :=
        let (i, j) := if t.kdim then (k, l) else (l, k)
        if t.cm then numAt (lines.getD j []) (i * z) z else numAt (lines.getD i []) (j * z) z
      (.ok (splitXfer 1 true (descAt c.d 2)
        (if fmtBlock t.fmt then canonicalBlock t lines else canonicalFp t dup elem)), s)

/-- Half of an FP32 value, rounded (03 R70). -/
def halfValue (x : Nat) : Nat :=
  match Fmt.fp32.value x with
  | .fin neg m d e => roundTo .fp32 0 false 0 (.fin neg m d (e - 1))
  | v => roundTo .fp32 0 false 0 v

/-- The channels that R70 splits, in the order in which they are taken; `vals` holds the lines, `k` the real channels,
`kext` the K extent. A NaN or an infinity counts as 0 in the maxima behind the median (log entry 62). -/
def splitChannels (outl k kext : Nat) (vals : List (List Nat)) : List Nat :=
  let blocks := vals.flatMap fun row => (List.range (kext / 32)).map fun b => maxOf ((((row.drop (32 * b)).take 32)).map mag149)
  let sorted := sortBy (fun (x y : Nat) => decide (x < y)) blocks
  let mu := sorted.getD ((sorted.length - 1) / 2) 0
  let big (j : Nat) : Nat := maxOf (vals.map fun row => mag149 (row.getD j 0))
  let cand := (List.range k).filter fun j => outl * mu < 256 * big j
  (sortBy (fun (x y : Nat) => decide (big y < big x ∨ (big x = big y ∧ x < y))) cand).take (min 8 (kext - k))

/-- PSTORE's writes. -/
def storeWrites (s : State) (c : PorterCmd) : List Xfer :=
  let t := tilingOf c.d
  let ctl := descAt c.d 5
  let tile := ((blockAt s c.block).map fun b => b.readN (descAt c.d 2) (4 * t.rows * t.cols)).getD []
  let src (i j : Nat) : Nat := numAt tile (4 * (t.cols * i + j)) 4
  if fmtBlock t.fmt then
    let kreal := if bits ctl 27 16 = 0 then t.kext else bits ctl 27 16
    let vals := (List.range t.lines).map fun l => (List.range t.kext).map fun k =>
      if kreal ≤ k then 0 else if t.kdim then src k l else src l k
    let outl := c.outl.toNat % 2 ^ 16
    let split : Bool := bits ctl 6 6 = 1
    let chans := if split ∧ outl ≠ 0 then splitChannels outl kreal t.kext vals else []
    let vals := vals.map fun row => row.mapIdx fun k x =>
      if chans.contains k then halfValue x
      else if kreal ≤ k ∧ k < kreal + chans.length then halfValue (row.getD (chans.getD (k - kreal) 0) 0) else x
    let b8 : Bool := t.fmt = 10
    let lineBytes (row : List Nat) : List Byte := (List.range (t.kext / 32)).flatMap fun kb =>
      let q := bquant b8 ((row.drop (32 * kb)).take 32)
      toBytes 4 q.1 ++ (if b8 then q.2.map fun e => BitVec.ofNat 8 e
        else (List.range 16).map fun j => BitVec.ofNat 8 (q.2.getD (2 * j) 0 + 16 * q.2.getD (2 * j + 1) 0))
    let map : List Byte := (List.range 8).flatMap fun j => match chans[j]? with
      | some k => toBytes 4 (2 ^ 31 + (kreal + j) * 2 ^ 16 + k)
      | none => toBytes 4 0
    mergeXfers 1 (vals.mapIdx fun l row => (t.base + l * t.pitch, lineBytes row)) ++
      (if split then splitXfer 2 false (desc64 c.d 6) map else [])
  else
    let z := fmtSize t.fmt
    let sat : Bool := bits ctl 10 10 = 1
    let elem (i j : Nat) : Nat :=
      convert .fp32 (fmtOf t.fmt) (bits ctl 9 7) sat (c.coins.getD (t.cols * i + j) 0) (src i j)
    mergeXfers 1 ((List.range t.storeLines).map fun l =>
      (t.base + l * t.pitch, if t.cm then (List.range t.rows).flatMap fun i => toBytes z (elem i l)
        else (List.range t.cols).flatMap fun j => toBytes z (elem l j)))

/-- The index of a gathered or scattered row, `none` for a null row (R260). -/
def rowIndex (s : State) (c : PorterCmd) (i : Nat) : Option Nat :=
  let idx := ofBytes (((blockAt s c.block).map fun b => b.readN (descAt c.d 6 + 4 * i) 4).getD [])
  if idx = 0xFFFFFFFF ∨ descAt c.d 7 ≤ idx then none else some idx

/-- PGATH's writes, row by row. -/
def gathWrites (c : PorterCmd) : List Nat → State → Except Halt (List Xfer) × State
  | [], s => (.ok [], s)
  | i :: is, s =>
    let z := descAt c.d 3
    let row : Except Halt (List Byte) × State := match rowIndex s c i with
      | none => (.ok (List.replicate z 0), s)
      | some idx => sourceBytes s c 1 false (desc64 c.d 0 + idx * descAt c.d 5) z
    match row with
    | (.error h, s) => (.error h, s)
    | (.ok bs, s) => match gathWrites c is s with
      | (.error h, s) => (.error h, s)
      | (.ok xs, s) => (.ok (splitXfer 2 true (descAt c.d 2 + i * z) bs ++ xs), s)

/-- PSCAT's writes. -/
def scatWrites (s : State) (c : PorterCmd) : List Xfer :=
  let z := descAt c.d 3
  mergeXfers 1 ((List.range (descAt c.d 4)).filterMap fun i => (rowIndex s c i).map fun idx =>
    (desc64 c.d 0 + idx * descAt c.d 5, ((blockAt s c.block).map fun b => b.readN (descAt c.d 2 + i * z) z).getD []))

/-- Everything a command writes, or what stops its reads. -/
def porterWrites (s : State) (id : Nat) (c : PorterCmd) : Except Halt (List Xfer) × State :=
  let ctl := descAt c.d 5
  let n := descAt c.d 4
  let at_ (j : Nat) (scratch : Bool) : Nat := if scratch then descAt c.d j else desc64 c.d j
  if porterEmpty c.op c.d then (.ok [], s)
  else match c.op with
  | .copy =>
    match sourceBytes s c 0 (bits ctl 0 0 = 1) (at_ 0 (bits ctl 0 0 = 1)) n with
    | (.error h, s) => (.error h, s)
    | (.ok bs, s) => (.ok (splitXfer 1 (bits ctl 1 1 = 1) (at_ 2 (bits ctl 1 1 = 1)) bs), s)
  | .fill =>
    let a := at_ 0 (bits ctl 1 1 = 1)
    (.ok (splitXfer 0 (bits ctl 1 1 = 1) a ((List.range n).map fun j =>
      BitVec.ofNat 8 (descAt c.d 2 / 2 ^ (8 * ((a + j) % 4))))), s)
  | .tile => tileWrites s id c
  | .store => (.ok (storeWrites s c), s)
  | .gath => gathWrites c (List.range n) s
  | .scat => (.ok (scatWrites s c), s)

/-! ## Starting and completing (09 R209, R210) -/

/-- Two registered ranges that conflict (09 R207, R209). -/
def rangesClash (sameBlock : Bool) (a b : Range) : Bool :=
  decide (a.scratch = b.scratch) && (!a.scratch || sameBlock) && (a.write || b.write) && decide (a.lo < b.hi ∧ b.lo < a.hi)

/-- Whether an operation in flight reads or writes bytes of a command's ranges (09 R208). -/
def opClash (s : State) (c : PorterCmd) (o : Op) : Bool :=
  o.core = c.core && o.ctx = c.ctx &&
  ((c.ranges.any fun r => !r.scratch && (pagePieces r.lo (r.hi - r.lo)).any fun pc =>
      let k := (translateCp s c.ctx pc.1).key s c.ctx (coreDie c.core) pc.1
      o.missing.any fun l => decide (k / 128 ≤ l ∧ l ≤ (k + pc.2 - 1) / 128)) ||
    (o.kind = .lcpy && (groupAt s o.gid).any (fun g => g.block = c.block) &&
      c.ranges.any fun r => r.scratch && o.copies.any fun x => decide (x.2.1 < r.hi ∧ r.lo < x.2.1 + 32)))

/-- Whether a write in flight of a command's core and context is of bytes of its ranges (09 R208). -/
def writeClash (s : State) (c : PorterCmd) (w : Write) : Bool :=
  w.wct.isNone && w.core = c.core && w.ctx = c.ctx &&
  c.ranges.any fun r => !r.scratch && (pagePieces r.lo (r.hi - r.lo)).any fun pc =>
    let k := (translateCp s c.ctx pc.1).key s c.ctx (coreDie c.core) pc.1
    decide (k / 128 ≤ w.addr / 128 ∧ w.addr / 128 ≤ (k + pc.2 - 1) / 128)

/-- Whether a command may start: its fibre's earlier writes are applied, accesses checked before it are over, and no
earlier command of its core conflicts (09 R208, R209). -/
def porterMayStart (s : State) (id : Nat) (c : PorterCmd) : Bool :=
  !(s.writes.any fun e => e.1 < id && e.2.wct.isNone && e.2.gid = c.gid && e.2.fibs.contains c.fib) &&
  !(s.writes.any fun e => e.1 < id && writeClash s c e.2) &&
  !(s.ops.any fun e => e.1 < id && opClash s c e.2) &&
  !(s.porter.any fun e => e.1 < id && e.2.core = c.core && e.2.ctx = c.ctx &&
      e.2.ranges.any fun a => c.ranges.any (rangesClash (e.2.block = c.block) a))

/-- What a command does on meeting a page it waits for (R261). -/
def porterWaits (s : State) (id : Nat) (c : PorterCmd) (p : Pg) (va : Nat) (b : Block1) : State :=
  engineWaits s id c.ctx (coreDie c.core) p va b

/-- The status word's line offset within a range (R262), saturating. -/
def rangeLine (c : PorterCmd) (rng va : Nat) : Nat :=
  match (porterRanges c.op c.d)[rng]? with
  | some r => min (va / 128 - r.2.2.1 / 128) 0xFFFFFF
  | none => 0

/-- Some of a command's writes applied, in order, with the latest WCT. -/
def applyXfers (s : State) (c : PorterCmd) (xs : List Xfer) : Nat × State :=
  xs.foldl (fun (acc : Nat × State) x =>
    if x.scratch then (acc.1, updBlock acc.2 c.block fun b => b.writeN x.addr x.bytes)
    else
      let (w, s) := enginePut acc.2 c.core c.gid c.ctx x.addr x.bytes
      (max acc.1 w, s)) (0, s)

/-- PORTER_START: the whole transfer, or its failure, or a wait for a page. After a failure each destination byte holds
its old value or the command's: a free choice of how many of the writes before the failing one were made. -/
def execPorterStart (cmd : Nat) (s : State) : Out :=
  .next (match Table.look s.porter cmd with
    | none => s
    | some c =>
      if c.started ∨ !porterMayStart s cmd c then s
      else
        let over_ (s : State) (st info va w : Nat) : State :=
          { s with porter := Table.ins s.porter cmd
                     { c with started := true, status := st, info := info, failAddr := va, wct := w } }
        let failed (s : State) (st rng va w : Nat) : State :=
          over_ s st (if st = 3 then rng else rng * 2 ^ 24 + rangeLine c rng va) va w
        match porterWrites s cmd c with
        | (.error (.wait p va b), s) => porterWaits s cmd c p va b
        | (.error (.fail st rng va), s) => failed s st rng va 0
        | (.ok xs, s) =>
          let stops := xs.map fun x =>
            if x.scratch then none else meetEngine s c.ctx (coreDie c.core) x.rng x.addr x.bytes.length true
          match stops.findSome? fun h => match h with | some (.wait p va b) => some (p, va, b) | _ => none with
          | some (p, va, b) => porterWaits s cmd c p va b
          | none =>
            match stops.findSome? fun h => match h with | some (.fail st rng va) => some (st, rng, va) | _ => none with
            | none =>
              let (w, s) := applyXfers s c xs
              over_ s 0 0 0 w
            | some (st, rng, va) =>
              let good := (stops.takeWhile (·.isNone)).length
              let (n, s) := choose s (good + 1)
              let (w, s) := applyXfers s c (xs.take n)
              failed s st rng va w)

/-- The cause that a status traps with (R263). -/
def statusCause (st : Nat) : Nat := match st with | 1 => 0x0C | 2 => 0x07 | 3 => 0x01 | _ => 0x03

/-- The issuing core's L1 copies of scopes 2 to 4 of the bytes in a command's write ranges discarded (09 R210). -/
def dropWritten (s : State) (c : PorterCmd) : State :=
  (porterRanges c.op c.d).foldl (fun s r =>
    if r.1 ∨ !r.2.1 then s
    else (pagePieces r.2.2.1 r.2.2.2).foldl (fun s pc =>
      let p := translateCp s c.ctx pc.1
      let k := p.key s c.ctx (coreDie c.core) pc.1
      if inL1 p then s else l1Forget s c.core k pc.2) s) s

/-- PORTER_COMPLETE (09 R210): GT has passed the latest WCT; the L1 copies go, the entries are released, the token is
written and the flag lowered. -/
def execPorterComplete (cmd : Nat) (s : State) : Out :=
  .next (match Table.look s.porter cmd with
    | none => s
    | some c =>
      if !c.started ∨ (c.wct ≠ 0 ∧ gtOf s (coreDie c.core) ≤ c.wct) then s
      else
        let s := if c.status = 3 ∨ c.status = 4 then s else dropWritten s c
        let s := { s with porter := Table.del s.porter cmd }
        let s := match c.token with
          | some k => updGroup s c.gid fun g =>
              { g.writeS k (BitVec.ofNat 32 (c.status * 2 ^ 28 + c.info)) with
                tokens := Table.sel g.tokens fun _ v => v ≠ cmd }
          | none =>
            if c.status = 0 then s
            else owe s c.gid c.fib c.flag (statusCause c.status) (BitVec.ofNat 64 c.failAddr) 0
        flagDown s c.gid c.flag)

end Sys2Proof.Machine
end

