-- ==== Sys2Proof/Machine/Summary.lean ====
section
/-! DEFINITION. Summary objects and the summary unit (13_summary R284 to R300). -/

namespace Sys2Proof.Machine

/-! ## Objects as bytes (R284, R285) -/

/-- `n` bytes of zeros. -/
def zeroBytes (n : Nat) : List Byte := List.replicate n 0

/-- Whether `n` bytes at an offset are all zero. -/
def zeroAt (o : List Byte) (off n : Nat) : Bool := ((o.drop off).take n).all (· = 0)

/-- Whether an object's tag is that of a kind (R284). -/
def tagOk (o : List Byte) (kind : Nat) : Bool := numAt o 0 4 = 0x100 + kind

/-- A sum that saturates at 32 bits. -/
def satAdd (a b : Nat) : Nat := min (a + b) (2 ^ 32 - 1)

/-! ## Quantile summaries (R286, R287) -/

/-- A quantile summary: NANC, COUNT, MIN, MAX, the seven levels, TOPE; `pos` counts the draws made. -/
structure Quant where
  nanc : Nat
  count : Nat
  mn : Nat
  mx : Nat
  levels : List (List Nat)
  tope : Nat
  pos : Nat

/-- A quantile summary as SUMINIT writes it. -/
def Quant.fresh : Quant :=
  { nanc := 0, count := 0, mn := 0x7F800000, mx := 0xFF800000, levels := List.replicate 7 [], tope := 6, pos := 0 }

/-- FP32 encodings other than NaN in ascending value, −0 below +0. -/
def floatKey (x : Nat) : Nat := if 2 ^ 31 ≤ x then 2 ^ 32 - 1 - x else x + 2 ^ 31

/-- Whether an FP32 encoding is NaN. -/
def isNan32 (x : Nat) : Bool := (Fmt.fp32.value x).isNan

/-- A quantile summary read from an object; `none` where its layout is bad. -/
def Quant.read (o : List Byte) : Option Quant :=
  let fill (h : Nat) : Nat := numAt o (0x18 + h) 1
  let slot (h j : Nat) : Nat := numAt o (0x40 + 128 * h + 4 * j) 4
  let tope := numAt o 0x1F 1
  let ok := tagOk o 1 && zeroAt o 0x20 32 && zeroAt o 0x3C0 64 && decide (6 ≤ tope ∧ tope ≤ 63) &&
    (List.range 7).all fun h => decide (fill h ≤ 31) &&
      (List.range 32).all fun j => if j < fill h then !isNan32 (slot h j) else slot h j = 0
  if ok then some
    { nanc := numAt o 4 4, count := numAt o 8 8, mn := numAt o 0x10 4, mx := numAt o 0x14 4
      levels := (List.range 7).map fun h => (List.range (fill h)).map (slot h), tope := tope, pos := 0 }
  else none

/-- A level of a quantile summary. -/
def Quant.level (q : Quant) (h : Nat) : List Nat := q.levels.getD h []

/-- A level replaced. -/
def Quant.put (q : Quant) (h : Nat) (xs : List Nat) : Quant := { q with levels := q.levels.set h xs }

/-- A quantile summary as an object. -/
def Quant.bytes (q : Quant) : List Byte :=
  toBytes 4 0x101 ++ toBytes 4 q.nanc ++ toBytes 8 q.count ++ toBytes 4 q.mn ++ toBytes 4 q.mx ++
  ((List.range 7).map fun h => BitVec.ofNat 8 (q.level h).length) ++ toBytes 1 q.tope ++ zeroBytes 32 ++
  ((List.range 7).flatMap fun h => (q.level h).flatMap (toBytes 4) ++ zeroBytes (128 - 4 * (q.level h).length)) ++
  zeroBytes 64

/-- `thin(d)` and the draws it makes; `u` gives the values drawn. -/
def thin (u : Nat → Nat) (d : Nat) (q : Quant) : Bool × Quant :=
  let n := (d + 15) / 16
  ((List.range d).all fun j => bits (u (q.pos + j / 16)) (15 - j % 16) (15 - j % 16) = 0, { q with pos := q.pos + n })

/-- The 16 items that a compaction of a full level keeps, by its coin. -/
def keepHalf (xs : List Nat) (c : Nat) : List Nat :=
  let ys := sortBy (fun (x y : Nat) => decide (floatKey x < floatKey y)) xs
  (List.range 16).map fun j => ys.getD (c + 2 * j) 0

/-- `append` at level 6 − `n`, with the compactions it triggers. -/
def Quant.append (u : Nat → Nat) : Nat → Quant → Nat → Quant
  | 0, q, v =>
    let xs := q.level 6 ++ [v]
    if xs.length < 32 then q.put 6 xs
    else { q.put 6 (keepHalf xs (bits (u q.pos) 15 15)) with tope := min (q.tope + 1) 63, pos := q.pos + 1 }
  | n + 1, q, v =>
    let h := 5 - n
    let xs := q.level h ++ [v]
    if xs.length < 32 then q.put h xs
    else
      (keepHalf xs (bits (u q.pos) 15 15)).foldl (fun q v =>
        if n = 0 then
          let (yes, q) := thin u (q.tope - 6) q
          if yes then Quant.append u n q v else q
        else Quant.append u n q v) { q.put h [] with pos := q.pos + 1 }

/-- `insert` of R287. -/
def Quant.insert (u : Nat → Nat) (q : Quant) (v : Nat) : Quant :=
  if isNan32 v then { q with nanc := satAdd q.nanc 1 }
  else Quant.append u 6
    { q with count := (q.count + 1) % 2 ^ 64, mn := minMax .fp32 false q.mn v, mx := minMax .fp32 true q.mx v } v

/-- The merge of R294. -/
def Quant.merge (u : Nat → Nat) (q src : Quant) : Quant :=
  let q := { q with
    count := (q.count + src.count) % 2 ^ 64, nanc := satAdd q.nanc src.nanc
    mn := minMax .fp32 false q.mn src.mn, mx := minMax .fp32 true q.mx src.mx }
  let q := if q.tope < src.tope then
      let d := src.tope - q.tope
      let (kept, q) := (q.level 6).foldl (fun (acc : List Nat × Quant) x =>
        let (yes, q) := thin u d acc.2
        (if yes then acc.1 ++ [x] else acc.1, q)) ([], q)
      { q.put 6 kept with tope := src.tope }
    else q
  let q := (List.range 6).foldl (fun q h => (src.level h).foldl (Quant.append u (6 - h)) q) q
  (src.level 6).foldl (fun q x =>
    let (yes, q) := thin u (q.tope - src.tope) q
    if yes then Quant.append u 0 q x else q) q

/-- The first item whose cumulative weight, scaled, is at least a bound (R296). -/
def pickRank (bound scale : Nat) : List (Nat × Nat) → Nat → Nat
  | [], _ => Fmt.fp32.canon
  | x :: xs, c => if bound ≤ (c + x.2) * scale then x.1 else pickRank bound scale xs (c + x.2)

/-- QUANT (R296). -/
def Quant.query (q : Quant) (phi : Nat) : Nat :=
  let items := (List.range 7).flatMap fun h => (q.level h).map fun x => (x, 2 ^ (if h = 6 then q.tope else h))
  match Fmt.fp32.value phi with
  | .fin neg m _ e =>
    if items = [] ∨ (neg ∧ m ≠ 0) ∨ 0x3F800000 < phi % 2 ^ 31 then Fmt.fp32.canon
    else if m = 0 then q.mn
    else if phi = 0x3F800000 then q.mx
    else
      let sorted := sortBy (fun (x y : Nat × Nat) => decide (floatKey x.1 < floatKey y.1)) items
      let total := (items.map (·.2)).sum
      pickRank (m * total) (2 ^ (-e).toNat) sorted 0
  | _ => Fmt.fp32.canon

/-! ## Heavy-hitter summaries (R288) -/

/-- A heavy-hitter summary: COUNT, SLACK and the used entries, each key, count, error. -/
structure Heavy where
  count : Nat
  slack : Nat
  entries : List (Nat × Nat × Nat)

/-- A heavy-hitter summary read from an object; `none` where its layout is bad. -/
def Heavy.read (o : List Byte) : Option Heavy :=
  let used := numAt o 4 4
  let es := (List.range (min used 60)).map fun e => (numAt o (0x40 + 16 * e) 8, numAt o (0x48 + 16 * e) 4, numAt o (0x4C + 16 * e) 4)
  if tagOk o 2 ∧ used ≤ 60 ∧ zeroAt o 0x14 44 ∧ zeroAt o (0x40 + 16 * used) (960 - 16 * used) ∧
      (dedup (es.map (·.1))).length = es.length then
    some { count := numAt o 8 8, slack := numAt o 0x10 4, entries := es }
  else none

/-- A heavy-hitter summary as an object. -/
def Heavy.bytes (h : Heavy) : List Byte :=
  toBytes 4 0x102 ++ toBytes 4 h.entries.length ++ toBytes 8 h.count ++ toBytes 4 h.slack ++ zeroBytes 44 ++
  (h.entries.flatMap fun e => toBytes 8 e.1 ++ toBytes 4 e.2.1 ++ toBytes 4 e.2.2) ++ zeroBytes (960 - 16 * h.entries.length)

/-- The index of the entry with the least count, the lowest of several. -/
def leastEntry (es : List (Nat × Nat × Nat)) : Nat :=
  match minOf (es.map (·.2.1)) with
  | some c => es.findIdx fun e => e.2.1 = c
  | none => 0

/-- `add` of R288. -/
def Heavy.add (h : Heavy) (k w e : Nat) : Heavy :=
  if h.entries.any fun x => x.1 = k then
    { h with entries := h.entries.map fun x => if x.1 = k then (k, satAdd x.2.1 w, satAdd x.2.2 e) else x }
  else if h.entries.length < 60 then { h with entries := h.entries ++ [(k, w, e)] }
  else
    let m := leastEntry h.entries
    let c := (h.entries.getD m (0, 0, 0)).2.1
    { h with entries := h.entries.set m (k, satAdd c w, satAdd c e) }

/-- `insert` of R288. -/
def Heavy.insert (h : Heavy) (k : Nat) : Heavy := Heavy.add { h with count := (h.count + 1) % 2 ^ 64 } k 1 0

/-- The merge of R294. -/
def Heavy.merge (h src : Heavy) : Heavy :=
  let g := src.entries.foldl (fun h e => h.add e.1 e.2.1 e.2.2) { h with count := (h.count + src.count) % 2 ^ 64 }
  let least := if src.entries.length = 60 then (minOf (src.entries.map (·.2.1))).getD 0 else 0
  { g with slack := satAdd (satAdd h.slack src.slack) least }

/-- The entry of a rank: descending count, ties to the lower index (R295). -/
def Heavy.ranked (h : Heavy) (i : Nat) : Nat × Nat × Nat :=
  (sortBy (fun (x y : Nat × Nat × Nat) => decide (y.2.1 < x.2.1)) h.entries).getD i (0, 0, 0)

/-! ## Distinct-count summaries (R289) -/

/-- A distinct-count summary: COUNT and the 1,024 cells. -/
structure Distinct where
  count : Nat
  cells : List Nat

/-- A distinct-count summary read from an object; `none` where its layout is bad. -/
def Distinct.read (o : List Byte) : Option Distinct :=
  let body := numAt o 0x40 768
  let cells := (List.range 1024).map fun j => bits body (6 * j + 5) (6 * j)
  if tagOk o 3 ∧ zeroAt o 4 4 ∧ zeroAt o 0x10 48 ∧ zeroAt o 0x340 192 ∧ cells.all (· ≤ 55) then
    some { count := numAt o 8 8, cells := cells }
  else none

/-- A distinct-count summary as an object. -/
def Distinct.bytes (d : Distinct) : List Byte :=
  toBytes 4 0x103 ++ zeroBytes 4 ++ toBytes 8 d.count ++ zeroBytes 48 ++
  toBytes 768 (d.cells.foldr (fun c n => c + 64 * n) 0) ++ zeroBytes 192

/-- `mix` of R289. -/
def mixKey (k : Nat) : Nat :=
  let x := k ^^^ (k / 2 ^ 29)
  let x := x * 0xB5A361C70F4E2D39 % 2 ^ 64
  let x := x ^^^ (x / 2 ^ 32)
  let x := x * 0x7E19D4A2C85B3F61 % 2 ^ 64
  x ^^^ (x / 2 ^ 29)

/-- `insert` of R289. -/
def Distinct.insert (d : Distinct) (k : Nat) : Distinct :=
  let x := mixKey k
  let j := x / 2 ^ 54
  let low := x % 2 ^ 54
  let rho := if low = 0 then 55 else 54 - Nat.log2 low
  { count := (d.count + 1) % 2 ^ 64, cells := d.cells.set j (max (d.cells.getD j 0) rho) }

/-- The merge of R294. -/
def Distinct.merge (d src : Distinct) : Distinct :=
  { count := (d.count + src.count) % 2 ^ 64, cells := (d.cells.zip src.cells).map fun c => max c.1 c.2 }

/-- DIST (R297); `flog2` is the exact value that R75 gives before rounding. -/
def Distinct.estimate (d : Distinct) : Nat :=
  let v := (d.cells.filter (· = 0)).length
  let sum := (d.cells.map fun c => 2 ^ (55 - c)).sum
  let alpha := 3094699037
  if 0 < v ∧ alpha * 2 ^ 43 ≤ 2560 * sum then
    let p := specialTable .log2 false v 0
    roundTo .fp32 0 false 0 (Ext.mul (.fin false (1024 * c1Const) 1 (-32)) (Ext.add false (Ext.ofInt 10) p.negate))
  else roundTo .fp32 0 false 0 (.fin false alpha (max 1 sum) 43)

/-! ## Steps on an object -/

/-- What a summary instruction does to its object: the bytes it leaves and the draws it makes, or a bad layout. `src`
is SUMMERGE's source. -/
def summaryResult (u : Nat → Nat) (kind : SumKind) (vals : List (Nat × DWord)) (obj src : List Byte) :
    Option (List Byte × Nat) :=
  match kind with
  | .q => (Quant.read obj).map fun q =>
      let q := vals.foldl (fun q v => q.insert u v.2.toNat) q
      (q.bytes, q.pos)
  | .h => (Heavy.read obj).map fun h => ((vals.foldl (fun h v => h.insert v.2.toNat) h).bytes, 0)
  | .d => (Distinct.read obj).map fun d => ((vals.foldl (fun d v => d.insert v.2.toNat) d).bytes, 0)
  | .init k =>
    some (match k with
      | 1 => Quant.fresh.bytes
      | 2 => Heavy.bytes { count := 0, slack := 0, entries := [] }
      | _ => Distinct.bytes { count := 0, cells := List.replicate 1024 0 }, 0)
  | .merge _ =>
    match Quant.read obj, Quant.read src, Heavy.read obj, Heavy.read src, Distinct.read obj, Distinct.read src with
    | some q, some r, _, _, _, _ =>
      let m := q.merge u r
      some (m.bytes, m.pos)
    | _, _, some h, some r, _, _ => some ((h.merge r).bytes, 0)
    | _, _, _, _, some d, some r => some ((d.merge r).bytes, 0)
    | _, _, _, _, _, _ => none
  | .rd .. => none

/-- A SUMRD query's result (R295): its words, or a bad layout or kind. -/
def summaryQuery (fn : Nat) (arg : Word) (o : List Byte) : Option Nat :=
  match fn with
  | 0 => (Quant.read o).map fun q => q.query arg.toNat
  | 1 => match Quant.read o, Heavy.read o, Distinct.read o with
    | some q, _, _ => some q.count
    | _, some h, _ => some h.count
    | _, _, some d => some d.count
    | _, _, _ => none
  | 2 => (Heavy.read o).map fun h => (h.ranked arg.toNat).1
  | 3 => (Heavy.read o).map fun h => (h.ranked arg.toNat).2.1 + 2 ^ 32 * (h.ranked arg.toNat).2.2
  | 4 => (Distinct.read o).map Distinct.estimate
  | 5 => (Quant.read o).map (·.mn)
  | _ => (Quant.read o).map (·.mx)

/-- The registers that a query writes. -/
def queryRegs (fn : Nat) : Nat := if fn = 1 ∨ fn = 2 ∨ fn = 3 then 2 else 1

/-! ## Issue (R291 to R295) -/

/-- The lane form of SUMQ, SUMH and SUMD. -/
def Form.summary (types : List Nat) : Form :=
  { types := types, sat := false, d := fun _ => .imm, a := fun _ => .address
    b := fun t => if t = 12 ∨ t = 13 then .dstPair else .src, c := fun _ => .unused, imm := .none, rep := false
    counting := true, ords := [0] }

/-- A summary operation entered in its group's queue. -/
def enterSummary (s : State) (i : Iss) (kind : SumKind) (va : Nat) (vals : List (Nat × DWord)) (flag : Nat) : Nat × State :=
  let (n, s) := freshId s
  let o : SumOp := { id := n, fib := i.fid, kind := kind, va := va, vals := vals, flag := flag, applied := none,
                     status := none }
  (n, flagUp (updGroup s i.gid fun g => { g with sumOps := g.sumOps ++ [o] }) i.gid flag)

/-- SUMQ, SUMH and SUMD. -/
def laneSummary (kind : SumKind) (types : List Nat) (a : BitVec 4) (v : LReg) (s : State) : Out :=
  withIssuing s fun i =>
    let m := modsOf i.f.chain
    let fm := Form.summary types
    let pair : LReg := .s ⟨2 * a.toNat % 32, by omega⟩
    let fs := fm.fields m .zero pair v
    if !modsOk fm i.f.clause m 0 ∨ m.mz ∨ (repOf i.f.chain).isSome then illegal s i
    else
      let bad := fieldTrap i.k i.g.window true fs
      if bad.any (· ≠ 0x09) then trapHere s i (bad.getD 0) 0 0
      else holdFor s i fs (countFlag i.f.clause m) (
        let va := (i.g.readPair (2 * a.toNat)).toNat
        if va % 1024 ≠ 0 then trapHere s i 0x03 (BitVec.ofNat 64 va) 0
        else if bad.isSome ∧ (bufferConflict s i.ck i.k.ctx i.g.block i.f).isNone then trapHere s i 0x09 0 0
        else committing s i fun s =>
          let n := (fm.bUse m).count
          let vals := (realLanes i m).map fun l => (l, BitVec.ofNat 64 (readWide i.g i.f v l n))
          finish (enterSummary s i kind va vals (countFlag i.f.clause m)).2 i)

/-- SUMQ. -/
def execSumq (a : BitVec 4) (v : LReg) (s : State) : Out := laneSummary .q [0, 1] a v s
/-- SUMH. -/
def execSumh (a : BitVec 4) (v : LReg) (s : State) : Out := laneSummary .h [0, 7, 12, 13] a v s
/-- SUMD. -/
def execSumd (a : BitVec 4) (v : LReg) (s : State) : Out := laneSummary .d [0, 7, 12, 13] a v s

/-- SUMINIT. -/
def execSuminit (k : BitVec 2) (a : BitVec 6) (f : BitVec 4) (s : State) : Out :=
  uniform s (fun _ => k ≠ 0 && evenReg a && flagField f) (pairRegs a) fun i =>
    let va := (i.g.readPair a.toNat).toNat
    if va % 1024 ≠ 0 then trapHere s i 0x03 (BitVec.ofNat 64 va) 0
    else countedOn s i f (committing s i fun s => finish (enterSummary s i (.init k.toNat) va [] f.toNat).2 i)

/-- SUMMERGE. -/
def execSummerge (a b : BitVec 6) (f : BitVec 4) (s : State) : Out :=
  uniform s (fun _ => evenReg a && evenReg b && flagField f) (pairRegs a ++ pairRegs b) fun i =>
    let va := (i.g.readPair a.toNat).toNat
    let src := (i.g.readPair b.toNat).toNat
    if va % 1024 ≠ 0 then trapHere s i 0x03 (BitVec.ofNat 64 va) 0
    else if src % 1024 ≠ 0 then trapHere s i 0x03 (BitVec.ofNat 64 src) 0
    else countedOn s i f (committing s i fun s => finish (enterSummary s i (.merge src) va [] f.toNat).2 i)

/-- SUMRD: the fibre waits for its result. -/
def execSumrd (d a b q : BitVec 6) (s : State) : Out :=
  let fn := q.toNat
  let two : Bool := queryRegs fn = 2
  uniform s (fun _ => decide (fn ≤ 6) && evenReg a && (!two || evenReg d) &&
      (decide (fn = 0 ∨ fn = 2 ∨ fn = 3) || b = 0))
    (pairRegs a ++ [d.toNat] ++ (if two then [d.toNat + 1] else []) ++ if fn = 0 ∨ fn = 2 ∨ fn = 3 then [b.toNat] else [])
    fun i =>
      let va := (i.g.readPair a.toNat).toNat
      if va % 1024 ≠ 0 then trapHere s i 0x03 (BitVec.ofNat 64 va) 0
      else
        let (n, s) := enterSummary s i (.rd fn (i.g.readS b.toNat) d.toNat) va [] 0
        waitOn s i.gid i.fid (.sumrd n)

/-! ## The unit (R290, R298) -/

/-- What the unit finds on its way to an object. -/
inductive Reach where
  | wait (p : Pg) (va : Nat) (b : Block1)
  | status (cause va : Nat)
  | go

/-- How the unit meets an object's page: `read` and `write` say what it does there. -/
def reachObject (s : State) (ctx die va : Nat) (read write : Bool) : Reach :=
  let p := translateCp s ctx va
  let k := p.key s ctx die va
  let m := meetPage s p k 1024 write
  match m with
  | .unmapped => .wait p va m
  | .wait => .wait p va m
  | .collapse => .wait p va m
  | .denied => .status 0x07 va
  | _ =>
    match (linesOf k 1024).find? fun l => read && badLine s l with
    | some l => .status 0x0C (va + (l * 128 - k))
    | none => .go

/-- What stops an instruction on its target and on its source: what denies the target, else a wait, else the lowest poisoned
address read. -/
def Reach.join (target source : Reach) : Reach :=
  match target, source with
  | .status 0x0C a, .status 0x0C b => .status 0x0C (min a b)
  | .status 0x0C _, .wait p va b => .wait p va b
  | .go, r => r
  | r, _ => r

/-- An object's bytes as the unit reads them: in the core's L1 for scopes 0 and 1, else at the home after any recall. -/
def readObject (s : State) (ck ctx va : Nat) : List Byte × State := enginePiece s ck ctx va 1024

/-- An object written by a step, with the WCT of its hold (R290). Under a hold the home serves no fill of its lines. -/
def writeObject (s : State) (ck gid ctx va : Nat) (bs : List Byte) : Nat × State :=
  let p := translateCp s ctx va
  let k := p.key s ctx (coreDie ck) va
  let (w, s) := enginePut s ck gid ctx va bs
  if inL1 p then (w, s)
  else (w, (linesOf k 1024).foldl (fun s l => updHome s l fun h => { h with hold := some ck }) (l1Forget s ck k 1024))

/-- A fibre that is not issuing, with all it belongs to. -/
def issOf (s : State) (gid fid : Nat) : Option Iss := issuing { s with cur := some (gid, fid) }

/-- A waiting fibre made ready again and moved past its word. -/
def resumePast (s : State) (i : Iss) : State :=
  finish (updFibre s i.gid i.fid (readyFibre (gtOf s i.g.die))) i

/-- A summary operation of a group changed. -/
def updSum (s : State) (gid op : Nat) (f : SumOp → SumOp) : State :=
  updGroup s gid fun g => { g with sumOps := g.sumOps.map fun o => if o.id = op then f o else o }

/-- The first summary operation of a group whose step is not applied (R290). -/
def nextSum (g : Group) : Option SumOp := g.sumOps.find? fun o => o.applied.isNone

/-- What the unit does while a page makes it wait (R298). -/
def summaryWaits (s : State) (g : Group) (ctx : Nat) (o : SumOp) (p : Pg) (va : Nat) (b : Block1) : State :=
  engineWaits s o.id ctx g.die p va b

/-- The value that a step's draw number `j` returns. -/
def coinOf (s : State) (k : Kernel) (g : Group) (j : Nat) : Nat := ((drawAny s k g (j + 1)).getD []).getD j 0

/-- A replay's halfwords asked for at their homes one after another (06 R147), as many as a step needs: what a draw gives may decide
how many follow. The first `m` have been asked for; `fuel` bounds them. -/
def openDraws (k : Kernel) (g : Group) (need : State → Nat) : Nat → Nat → State → State
  | 0, _, s => s
  | fuel + 1, m, s =>
    if noiseMode k ≠ 2 ∨ g.logStopped ∨ need s ≤ m ∨ (drawAny s k g m).isNone then s
    else openDraws k g need fuel (m + 1) (openReplay s k g (m + 1))

/-- A summary instruction's step on its object. A replay's halfwords are asked for before they are drawn (06 R147). Where
several conditions hold at once on the target, a page without write permission comes before a poisoned line and that before a
bad layout; an instruction with no contributing lane, which writes nothing, meets its pages as a write all the same: R298 states
neither (DESIGN CHOICE, log entry 46). -/
def stepObject (s : State) (gid : Nat) (g : Group) (k : Kernel) (o : SumOp) : State :=
  let ck := coreKey g.die g.core
  let isInit : Bool := match o.kind with | .init _ => true | _ => false
  let src : Option Nat := match o.kind with | .merge a => some a | _ => none
  let fail (s : State) (cause va : Nat) : State :=
    updSum s gid o.id fun o => { o with applied := some 0, status := some (cause, va) }
  let other : Reach := match src with
    | some a => if a = o.va then .go else reachObject s k.ctx g.die a true false
    | none => .go
  match (reachObject s k.ctx g.die o.va (!isInit) true).join other with
  | .wait p va b => summaryWaits s g k.ctx o p va b
  | .status c va => fail s c va
  | .go =>
    let (from_, s) := match src with | some a => readObject s ck k.ctx a | none => ([], s)
    let (obj, s) := if isInit then ([], s) else readObject s ck k.ctx o.va
    let result (s : State) := summaryResult (coinOf s k g) o.kind o.vals obj from_
    let s := openDraws k g (fun s => ((result s).map (·.2)).getD 0) 16384 0 s
    match result s with
    | none => fail s 0x0D o.va
    | some (bs, n) =>
      if (drawAny s k g n).isNone then s
      else if o.vals = [] ∧ (o.kind = .q ∨ o.kind = .h ∨ o.kind = .d) then
        updSum s gid o.id fun o => { o with applied := some 0 }
      else
        let s := commitDraws s gid n
        let (w, s) := writeObject s ck gid k.ctx o.va bs
        updSum s gid o.id fun o => { o with applied := some w }

/-- SUMMARY_STEP: in the group's issue order, one indivisible step on the object. -/
def execSummaryStep (g op : Nat) (s : State) : Out :=
  .next (match groupAt s g with
    | none => s
    | some gr => match nextSum gr, kernelAt s gr.kernel with
      | some o, some k => match o.kind with
        | .rd .. => s
        | _ => if o.id = op then stepObject s g gr k o else s
      | _, _ => s)

/-- SUMMARY_COMPLETE: GT has passed the WCT of the hold; the flag is lowered and a status is owed. -/
def execSummaryComplete (g op : Nat) (s : State) : Out :=
  .next (match groupAt s g with
    | none => s
    | some gr => match gr.sumOps.find? fun o => o.id = op with
      | none => s
      | some o => match o.applied with
        | none => s
        | some w =>
          if w ≠ 0 ∧ gtOf s gr.die ≤ w then s
          else
            let s := updGroup s g fun x => { x with sumOps := x.sumOps.filter fun y => y.id ≠ op }
            let s := match o.status with
              | some (c, a) => owe s g o.fib o.flag c (BitVec.ofNat 64 a) (Mask.ofLanes (o.vals.map (·.1)))
              | none => s
            flagDown s g o.flag)

/-- SUMRD_RESULT: the object is read once, in the group's order, and the fibre goes on or traps at its word. -/
def execSumrdResult (g f : Nat) (s : State) : Out :=
  .next (match issOf s g f with
    | none => s
    | some i => match i.f.state, nextSum i.g with
      | .waiting (.sumrd op), some o => match o.kind with
        | .rd fn arg reg =>
          if o.id ≠ op then s
          else
            let drop (s : State) : State := updGroup s g fun x => { x with sumOps := x.sumOps.filter fun y => y.id ≠ op }
            match reachObject s i.k.ctx i.g.die o.va true false with
            | .wait p va b => summaryWaits s i.g i.k.ctx o p va b
            | .status c va => trapHere (drop s) i c (BitVec.ofNat 64 va) 0
            | .go =>
              let (bs, s) := readObject s i.ck i.k.ctx o.va
              match summaryQuery fn arg bs with
              | none => trapHere (drop s) i 0x0D (BitVec.ofNat 64 o.va) 0
              | some x =>
                let s := updGroup (drop s) g fun y =>
                  (List.range (queryRegs fn)).foldl (fun y j => y.writeS (reg + j) (BitVec.ofNat 32 (x / 2 ^ (32 * j)))) y
                resumePast s i
        | _ => s
      | _, _ => s)

end Sys2Proof.Machine
end

