-- ==== Sys2Proof/Machine/Caravan.lean ====
section
/-! DEFINITION. The caravan: network records, handles, NEVAL, gathering, TEX (14_caravan R302 to R318). -/

namespace Sys2Proof.Machine

/-! ## Network records (R302, R303) -/

/-- Inputs of a record. -/
def netIn (h : List Byte) : Nat := bits (rec32 h 4) 5 0 + 1
/-- Layers of a record. -/
def netLayers (h : List Byte) : Nat := bits (rec32 h 4) 10 8 + 1
/-- The weights' offset of a layer. -/
def layerW (h : List Byte) (l : Nat) : Nat := rec32 h (0x40 + 16 * l)
/-- The biases' offset of a layer. -/
def layerB (h : List Byte) (l : Nat) : Nat := rec32 h (0x44 + 16 * l)
/-- Outputs of a layer. -/
def layerOut (h : List Byte) (l : Nat) : Nat := bits (rec32 h (0x48 + 16 * l)) 5 0 + 1
/-- The activation of a layer. -/
def layerAct (h : List Byte) (l : Nat) : Nat := bits (rec32 h (0x48 + 16 * l)) 9 8
/-- Inputs of a layer. -/
def layerIn (h : List Byte) (l : Nat) : Nat := if l = 0 then netIn h else layerOut h (l - 1)
/-- Outputs of a record. -/
def netOut (h : List Byte) : Nat := layerOut h (netLayers h - 1)
/-- Bytes of a layer's weights in canonical layout (12 R268). -/
def layerBytes (h : List Byte) (l : Nat) : Nat := up32 (layerOut h l) / 32 * (up32 (layerIn h l) / 32) * 2048

/-- Whether a header is valid (R303). -/
def netValid (h : List Byte) : Bool :=
  rec32 h 0 = 1 && decide (rec32 h 4 < 2 ^ 11 ∧ bits (rec32 h 4) 7 6 = 0 ∧ netIn h ≤ 32) && zeroAt h 8 56 && zeroAt h 0xC0 64 &&
  decide (netOut h ≤ 16) &&
  (List.range 8).all fun l =>
    if l < netLayers h then
      decide (layerW h l % 64 = 0 ∧ layerB h l % 4 = 0 ∧ layerW h l + layerBytes h l ≤ 2 ^ 32 ∧
        layerB h l + 4 * layerOut h l ≤ 2 ^ 32 ∧ rec32 h (0x48 + 16 * l) < 2 ^ 10 ∧ bits (rec32 h (0x48 + 16 * l)) 7 6 = 0) &&
      zeroAt h (0x4C + 16 * l) 4
    else zeroAt h (0x40 + 16 * l) 16

/-! ## Evaluation (R304) -/

/-- An activation. -/
def activate (act a : Nat) : Nat :=
  match act with
  | 0 => a
  | 1 => match Fmt.fp32.value a with
    | .nan => Fmt.fp32.canon
    | v => if v.neg? || (v = .inf true) || a % 2 ^ 31 = 0 then 0 else a
  | 2 => specialResult .tanh 0 false 0 a
  | _ =>
    let half (x : Ext) : Ext := Ext.mul (.fin false 1 1 (-1)) x
    let t := specialResult .tanh 0 false 0 (roundTo .fp32 0 false 0 (half (Fmt.fp32.value a)))
    roundTo .fp32 0 false 0 (Ext.add false (half (Fmt.fp32.value t)) (.fin false 1 1 (-1)))

/-- The outputs of a layer from its inputs in BF16, its weights' bytes and its biases' bytes. -/
def layerRun (h : List Byte) (l : Nat) (w b : List Byte) (xs : List Nat) : List Nat :=
  let kp := up32 (layerIn h l)
  (List.range (layerOut h l)).map fun n =>
    let bias := (canonWord (BitVec.ofNat 32 (numAt b (4 * n) 4))).toNat
    let pairs := (List.range kp).map fun k =>
      (Fmt.bf16.value (xs.getD k 0),
       Fmt.bf16.value (numAt w ((n / 32 * (kp / 32) + k / 32) * 2048 + n % 32 * 64 + 2 * (k % 32)) 2))
    activate (layerAct h l) (macOrder (kp / 32) bias pairs)

/-- A network run on one lane's inputs; `mem` gives each layer's weights and biases. -/
def netRun (h : List Byte) (mem : List (List Byte × List Byte)) (x : List Word) : List Word :=
  let toHalf (v : Nat) : Nat := convert .fp32 .bf16 0 false 0 v
  let out := (List.range (netLayers h)).foldl (fun (ys : List Nat) l =>
    let m := mem.getD l ([], [])
    layerRun h l m.1 m.2 (ys.map toHalf)) (x.map (·.toNat))
  out.map (BitVec.ofNat 32)

/-! ## Handles (R306, R307) -/

/-- A handle's index. -/
def handleIndex (h : Word) : Nat := h.toNat % 1024

/-- The handle of an entry. -/
def handleOf (idx : Nat) (e : NetEntry) : Word := BitVec.ofNat 32 (2 ^ 31 + e.gen % 2 ^ 14 * 2 ^ 10 + idx)

/-- The entry that a live handle names. -/
def liveEntry (s : State) (ctx : Nat) (h : Word) : Option NetEntry :=
  (ctxAt s ctx).bind fun c => (Table.look c.nets (handleIndex h)).bind fun e =>
    if e.bound ∧ h = handleOf (handleIndex h) e then some e else none

/-- Whether an evaluation still uses an entry of a context. -/
def netInUse (s : State) (ctx idx : Nat) : Bool :=
  (s.evals.any fun e => e.2.ctx = ctx && e.2.toPlace.any fun p => handleIndex p.2.1 = idx) ||
  (s.evals.any fun e => e.2.ctx = ctx && decide (e.2.frac ≠ []) && decide (handleIndex e.2.handle = idx)) ||
  (s.tiles.any fun t => t.2.ctx = ctx && decide (handleIndex t.2.handle = idx))

/-- A network table entry changed. -/
def updNet (s : State) (ctx idx : Nat) (f : NetEntry → NetEntry) : State :=
  updCtx s ctx fun c => { c with nets := Table.upd c.nets idx f }

/-- An entry that has stopped being bound freed, once nothing uses it: its generation moves on, wrapping. -/
def settleNet (s : State) (ctx idx : Nat) : State :=
  if netInUse s ctx idx then s
  else updNet s ctx idx fun e => if e.freeing then { e with freeing := false, gen := (e.gen + 1) % 2 ^ 14 } else e

/-- Every context's entries that wait to be freed looked at again, after evaluations were discarded. -/
def settleNets (s : State) : State :=
  s.contexts.foldl (fun s c =>
    (c.2.nets.filter fun e => e.2.freeing).foldl (fun s e => settleNet s c.1 e.1) s) s

/-- The fibre waiting in NBIND gets its result and goes on. -/
def nbindAnswer (s : State) (i : Iss) (reg : Nat) (x : Word) : State :=
  resumePast (updGroup s i.gid fun g => g.writeS reg x) i

/-- NBIND's bind. -/
def bindNet (s : State) (i : Iss) (va reg : Nat) : State :=
  match ctxAt s i.k.ctx with
  | none => s
  | some c =>
    match c.nets.find? fun e => e.2.bound ∧ e.2.addr = va with
    | some (idx, e) =>
      nbindAnswer (updNet s i.k.ctx idx fun e => { e with refs := e.refs + 1 }) i reg (handleOf idx e)
    | none =>
      let p := translateCp s i.k.ctx va
      if va % 256 ≠ 0 ∨ p.st = 0 ∨ p.st = 7 then nbindAnswer s i reg 3
      else match meetEngine s i.k.ctx i.g.die 0 va 256 false with
        | some (.wait p _ b) => engineMeets s i.k.ctx i.g.die p va b
        | some (.fail ..) => nbindAnswer s i reg 3
        | none =>
          let (h, s) := engineRead s i.k.ctx i.g.die (p.key s i.k.ctx i.g.die va) 256
          if !netValid h then nbindAnswer s i reg 2
          else
            let free (j : Nat) : Bool := match Table.look c.nets j with | some e => !e.bound && !e.freeing | none => true
            match (List.range 1024).find? free with
            | none => nbindAnswer s i reg 1
            | some j =>
              let gen := ((Table.look c.nets j).map (·.gen)).getD 0
              let e : NetEntry := { bound := true, addr := va, refs := 1, gen := gen, header := h, freeing := false }
              nbindAnswer (updCtx s i.k.ctx fun c => { c with nets := Table.ins c.nets j e }) i reg (handleOf j e)

/-- NBIND.REL's release. -/
def releaseNet (s : State) (i : Iss) (h : Word) (reg : Nat) : State :=
  match liveEntry s i.k.ctx h with
  | none => nbindAnswer s i reg 1
  | some e =>
    let last : Bool := e.refs ≤ 1
    let s := updNet s i.k.ctx (handleIndex h) fun e =>
      { e with refs := e.refs - 1, bound := !last, freeing := last }
    nbindAnswer (settleNet s i.k.ctx (handleIndex h)) i reg 0

/-- NBIND: the fibre waits until its S register is written. -/
def execNbind (d a : BitVec 6) (s : State) : Out :=
  uniform s (fun _ => evenReg a) (pairRegs a ++ [d.toNat]) fun i =>
    waitOn s i.gid i.fid (.nbind false (i.g.readPair a.toNat).toNat d.toNat)

/-- NBIND.REL. -/
def execNbindRel (d a : BitVec 6) (s : State) : Out :=
  uniform s (fun _ => true) [a.toNat, d.toNat] fun i =>
    waitOn s i.gid i.fid (.nbind true (i.g.readS a.toNat).toNat d.toNat)

/-- NBIND_RESOLVE: one indivisible step on the table. -/
def execNbindResolve (g f : Nat) (s : State) : Out :=
  .next (match issOf s g f with
    | none => s
    | some i => match i.f.state with
      | .waiting (.nbind rel arg reg) => if rel then releaseNet s i (BitVec.ofNat 32 arg) reg else bindNet s i arg reg
      | _ => s)

/-! ## NEVAL (R308, R309) -/

/-- The status predicate that PFX C names: none, P1 to P7, or another value, which is illegal (R308). -/
def statusField (c : LReg) : Option (Option Nat) :=
  match c with
  | .zero => some none
  | .v k => if 1 ≤ k.val ∧ k.val ≤ 7 then some (some k.val) else none
  | _ => none

/-- A V register within the window. -/
def vInWindow (w : Nat) (r : LReg) : Bool := match r with | .v k => k.val < w | _ => false

/-- The form shared by NEVAL and TEX. -/
def Form.caravan : Form :=
  { types := [0], sat := false, d := fun _ => .imm, a := fun _ => .imm, b := fun _ => .imm, c := fun _ => .imm,
    imm := .none, rep := false, counting := true, ords := [0] }

/-- An evaluation with nothing in it. -/
def evalBlank (i : Iss) (m : Mods) (out : Nat) (status : Option Nat) : Eval :=
  { tex := false, gid := i.gid, fib := i.fid, core := i.ck, ctx := i.k.ctx, flag := countFlag i.f.clause m, out := out
    status := status, active := activeLanes i m, toPlace := [], waiting := 0, results := [], faulted := []
    window := bits (i.k.sample 0x021).toNat 15 0, mute := false, frac := [], chans := 0, handle := 0 }

/-- NEVAL. -/
def execNeval (d a h : LReg) (s : State) : Out :=
  withIssuing s fun i =>
    let m := modsOf i.f.chain
    let bad : Bool := (!isQueue d && !vInWindow i.g.window d) || (!isQueue a && !vInWindow i.g.window a) ||
      (!isQueue h && !useOk i.g.window .src h) || (!isQueue m.c && (statusField m.c).isNone)
    if !modsOk .caravan i.f.clause m 0 ∨ m.mz ∨ (repOf i.f.chain).isSome ∨ bad then illegal s i
    else if isQueue d ∨ isQueue a ∨ isQueue h ∨ isQueue m.c then trapHere s i 0x09 0 0
    else
      let out := vNum d
      let inp := vNum a
      let handle (l : Nat) : Word := readReg i.g i.f h l
      let entry (l : Nat) : Option NetEntry := (liveEntry s i.k.ctx (handle l)).bind fun e =>
        if inp + netIn e.header ≤ i.g.window ∧ out + netOut e.header ≤ i.g.window then some e else none
      let lanes := realLanes i m
      let nin := max 1 (maxOf (lanes.map fun l => ((entry l).map fun e => netIn e.header).getD 0))
      let nout := max 1 (maxOf (lanes.map fun l => ((entry l).map fun e => netOut e.header).getD 0))
      holdFor s i [(.vOnly nout, d), (.vOnly nin, a), (.src, h)] (countFlag i.f.clause m) (
        let send := lanes.filterMap fun l => (entry l).map fun e =>
          (l, handle l, (List.range (netIn e.header)).map fun j => i.g.readV (inp + j) l, false)
        let faults := (lanes.filter fun l => (entry l).isNone).map fun l => (l, (handle l).toNat)
        let (n, s) := freshId s
        let ev := { evalBlank i m out ((statusField m.c).getD none) with
          toPlace := send, waiting := send.length, faulted := faults }
        finish (flagUp { s with evals := Table.ins s.evals n ev } i.gid (countFlag i.f.clause m)) i)

/-! ## TEX (R315 to R317) -/

/-- A texture descriptor. -/
structure TexDesc where
  base : Nat
  w : Nat
  h : Nat
  chans : Nat
  neural : Bool
  handle : Word

/-- The descriptor in eight S registers from a first one. -/
def texDesc (g : Group) (r : Nat) : TexDesc :=
  { base := (g.readPair r).toNat, w := bits (g.readS (r + 2)).toNat 15 0 + 1, h := bits (g.readS (r + 2)).toNat 31 16 + 1
    chans := bits (g.readS (r + 3)).toNat 5 1 + 1, neural := bits (g.readS (r + 3)).toNat 0 0 = 1, handle := g.readS (r + 4) }

/-- The first register of a descriptor that breaks R315; `dst` is the first destination register, where
DST is no queue. -/
def texBad (g : Group) (r : Nat) (dst : Option Nat) (t : TexDesc) : Option Nat :=
  if t.base % 64 ≠ 0 then some 0
  else if bits (g.readS (r + 3)).toNat 31 6 ≠ 0 ∨ (!t.neural ∧ dst.any fun d => g.window < d + t.chans) then some 3
  else if !t.neural ∧ t.handle ≠ 0 then some 4
  else (List.range 3).findSome? fun j => if g.readS (r + 5 + j) ≠ 0 then some (5 + j) else none

/-- A coordinate in units of 2^-149, NaN as 0, clamped to [−1, 2] (R316). -/
def texCoord (x : Nat) : Int :=
  let one : Int := (2 ^ 149 : Nat)
  match Fmt.fp32.value x with
  | .nan => 0
  | .inf neg => if neg then -one else 2 * one
  | .fin neg m _ e => clamp (-one) (2 * one) ((if neg then -1 else 1) * ((m * 2 ^ (e + 149).toNat : Nat) : Int))

/-- The texel index of a coordinate in point mode (R316). -/
def pointIndex (x n : Nat) : Nat := (clamp 0 ((n : Int) - 1) (texCoord x * n / (2 ^ 149 : Nat))).toNat

/-- The two texel indices and the fraction, in units of 2^-150, of a coordinate in neural mode (R317). -/
def neuralIndex (x n : Nat) : Nat × Nat × Nat :=
  let v : Int := 2 * texCoord x * n - (2 ^ 149 : Nat)
  let x0 := v / (2 ^ 150 : Nat)
  let cl (z : Int) : Nat := (clamp 0 ((n : Int) - 1) z).toNat
  (cl x0, cl (x0 + 1), (v % (2 ^ 150 : Nat)).toNat)

/-- The addresses of the texels that a lane reads, in order, and the bytes of each. -/
def texelsOf (t : TexDesc) (u v : Nat) : List Nat :=
  let size := if t.neural then 2 * t.chans else 4 * t.chans
  let at_ (i j : Nat) : Nat := (t.base + (j * t.w + i) * size) % 2 ^ 64
  if t.neural then
    let (i0, i1, _) := neuralIndex u t.w
    let (j0, j1, _) := neuralIndex v t.h
    [at_ i0 j0, at_ i1 j0, at_ i0 j1, at_ i1 j1]
  else [at_ (pointIndex u t.w) (pointIndex v t.h)]

/-- The touches of a lane's texels, each in its place in the lane's data. -/
def texTouches (size lane : Nat) (as_ : List Nat) : List Touch :=
  (as_.mapIdx fun j a => (touchesOf lane a size).map fun t => { t with off := t.off + j * size }).flatten

/-- A touch under its texel, lane · 8 + texel, as a TEX's operation holds it. -/
def texMet (size : Nat) (m : Met) : Met :=
  { m with t := { m.t with lane := 8 * m.t.lane + m.t.off / size, off := m.t.off % size } }

/-- TEX. A queue register in a field is reported after what R101 reports at lower codes. -/
def execTex (d c : LReg) (dsc : BitVec 2) (s : State) : Out :=
  withIssuing s fun i =>
    let m := modsOf i.f.chain
    let r := 8 * dsc.toNat
    let coordOk : Bool := match c with | .v k => k.val % 2 = 0 && decide (k.val + 2 ≤ i.g.window) | _ => false
    let t := texDesc i.g r
    let cOk : Bool := isQueue m.c || if t.neural then (statusField m.c).isSome else m.c = .zero
    let bad : Bool := (!isQueue d && !vInWindow i.g.window d) || (!isQueue c && !coordOk) ||
      (!isQueue m.c && (statusField m.c).isNone)
    if !modsOk .caravan i.f.clause m 0 ∨ m.mz ∨ (repOf i.f.chain).isSome ∨ bad then illegal s i
    else match pendingS i.g ((List.range 8).map (r + ·)) with
    | some k => waitOn s i.gid i.fid (.token k)
    | none =>
      if !cOk then illegal s i
      else
        let dst := vNum d
        match texBad i.g r (if isQueue d then none else some dst) t with
        | some n => trapHere s i 0x01 (BitVec.ofNat 64 n) 0
        | none =>
          let misuse := if isQueue d ∨ isQueue m.c then misuseTrap else []
          let live := liveEntry s i.k.ctx t.handle
          let entry := live.bind fun e =>
            if netIn e.header = t.chans ∧ dst + netOut e.header ≤ i.g.window then some e else none
          let nout := if t.neural then (live.map fun e => min (netOut e.header) (i.g.window - dst)).getD 0 else t.chans
          if isQueue c ∨ (misuse ≠ [] ∧ t.neural ∧ entry.isNone) then trapHere s i 0x09 0 0 else
          let flag := countFlag i.f.clause m
          holdFor s i [(.vOnly (max 1 nout), d), (.vOnly 2, c)] flag (
            if t.neural ∧ entry.isNone then
              let faults := (realLanes i m).map fun l => (l, t.handle.toNat)
              let (n, s) := freshId s
              let ev := { evalBlank i m dst ((statusField m.c).getD none) with
                tex := true, faulted := faults, results := (Mask.lanes (activeLanes i m &&& i.g.helpers)).map fun l =>
                  (l, List.replicate nout (0 : Word)) }
              finish (flagUp { s with evals := Table.ins s.evals n ev } i.gid flag) i
            else
              let size := if t.neural then 2 * t.chans else 4 * t.chans
              let coord (j l : Nat) : Nat := (i.g.readV (vNum c + j) l).toNat
              let texels (l : Nat) : List Nat := texelsOf t (coord 0 l) (coord 1 l)
              let real := realLanes i m
              let locks (ls : List Nat) := lockTraps s i false false
                (ls.flatMap fun l => (texels l).map fun a => (l, a, size))
              let helpers := Mask.lanes (activeLanes i m &&& i.g.helpers)
              let fine (l : Nat) : Bool := match (judge s i false false false (locks [l]) [] (texTouches size l (texels l))).1 with
                | .go _ => true
                | _ => false
              let good := helpers.filter fine
              let (v, s1) := judge s i false false false (locks real) misuse (real.flatMap fun l => texTouches size l (texels l))
              onVerdict s1 i true v fun ms =>
                let (hs, s2) := meetTouches s1 i (good.flatMap fun l => texTouches size l (texels l))
                let ws := buffered i.f
                let (ps, base, skip) := piecesOf ws ((ms ++ hs).map (texMet size))
                let o : Op := { opBlank i .tex flag (if t.neural then .scratch else .lane d t.chans) with
                  size := size, lanes := activeLanes i m, pieces := ps, base := base, skip := skip, overlay := ws }
                let (op, s3) := launchOp s2 i o
                if !t.neural then finish s3 i
                else
                  let frac (l : Nat) : Nat × Nat × Nat :=
                    (l, (neuralIndex (coord 0 l) t.w).2.2, (neuralIndex (coord 1 l) t.h).2.2)
                  let lost := (helpers.filter fun l => !good.contains l).map fun l => (l, List.replicate nout (0 : Word))
                  let ev := { evalBlank i m dst ((statusField m.c).getD none) with
                    tex := true, waiting := (real ++ good).length, results := lost, frac := (real ++ good).map frac
                    chans := t.chans, handle := t.handle }
                  finish { s3 with evals := Table.ins s3.evals op ev } i)

/-- A lane's feature vector (R317). -/
def features (o : Op) (ev : Eval) (l fx fy : Nat) : List Word :=
  let one := 2 ^ 150
  let ws := [(one - fx) * (one - fy), fx * (one - fy), (one - fx) * fy, fx * fy]
  (List.range ev.chans).map fun c =>
    let terms := (List.range 4).filterMap fun j =>
      let w := ws.getD j 0
      if w = 0 then none
      else some (Ext.mul (.fin false w 1 (-300)) (Fmt.bf16.value (numAt (o.laneBytes (8 * l + j) o.size) (2 * c) 2)))
    BitVec.ofNat 32 (roundTo .fp32 0 false 0 (terms.foldl (Ext.add false) (.fin false 0 1 0)))

/-! ## Gathering (R310, R312) -/

/-- The open tiles of a core. -/
def openTiles (s : State) (ck : Nat) : List (Nat × CTile) := s.tiles.filter fun t => t.2.core = ck && !t.2.closed

/-- A tile closed. -/
def closeTile (s : State) (t : Nat) : State := { s with tiles := Table.upd s.tiles t fun x => { x with closed := true } }

/-- Whether a group is to be saved: its gang was chosen, or its context saves or has faulted. -/
def saveWanted (s : State) (g : Group) : Bool :=
  (g.state = .resident || g.state = .begun) &&
  (g.preempt || (match kernelAt s g.kernel with
    | some k => (ctxAt s k.ctx).any fun c => c.state = .preempting || c.state = .faulted
    | none => false))

/-- Whether an open tile closes without being full: its window has passed (R310), or it holds lanes of a group being saved
(R318). -/
def tileDue (s : State) (t : CTile) : Bool :=
  decide (t.openedAt + t.window ≤ gtOf s (coreDie t.core)) ||
  t.rows.any fun r => ((Table.look s.evals r.ev).bind fun e => groupAt s e.gid).any (saveWanted s)

/-- The open tiles of a core that are due, closed. -/
def closeDue (s : State) (ck : Nat) : State :=
  (openTiles s ck).foldl (fun s t => if tileDue s t.2 then closeTile s t.1 else s) s

/-- One lane placed into a tile of its handle. -/
def placeLane (s : State) (id : Nat) (ev : Eval) (p : Nat × Word × List Word × Bool) : State :=
  let row : CRow := { ev := id, lane := p.1, x := p.2.2.1, helper := p.2.2.2 }
  match (openTiles s ev.core).find? fun t => t.2.ctx = ev.ctx ∧ t.2.handle = p.2.1 with
  | some (t, _) =>
    { s with tiles := Table.upd s.tiles t fun x =>
        { x with rows := x.rows ++ [row], closed := decide (31 ≤ x.rows.length) } }
  | none =>
    let opened := openTiles s ev.core
    let s := if opened.length < 8 then s
      else match sortBy (fun (x y : Nat × CTile) => decide (x.2.openedAt < y.2.openedAt)) opened with
        | (t, _) :: _ => closeTile s t
        | [] => s
    let (n, s) := freshId s
    { s with tiles := Table.ins s.tiles n
               { core := ev.core, ctx := ev.ctx, handle := p.2.1, openedAt := gtOf s (coreDie ev.core), window := ev.window
                 rows := [row], closed := false } }

/-- The lanes of a neural TEX whose texels have come, with their features. -/
def texLanes (s : State) (o : Op) (ev : Eval) : List (Nat × Word × List Word × Bool) :=
  ev.frac.map fun f => (f.1, ev.handle, features o ev f.1 f.2.1 f.2.2,
    match groupAt s ev.gid with | some g => Mask.has g.helpers f.1 | none => false)

/-- CARAVAN_LANE_PLACE: the core's arbiter admits one instruction, and its lanes are placed in ascending order. Each
is a row that the group's counters count (18 R386 event 6). -/
def execCaravanLanePlace (ev : Nat) (s : State) : Out :=
  .next (match Table.look s.evals ev with
    | none => s
    | some e =>
      let ready : Option (List (Nat × Word × List Word × Bool) × State) :=
        if e.frac = [] then some (e.toPlace, s)
        else match Table.look s.ops ev with
          | some o => if o.complete then some (texLanes s o e, { s with ops := Table.del s.ops ev }) else none
          | none => none
      match ready with
      | none => s
      | some (lanes, s) =>
        let sorted := sortBy (fun (x y : Nat × Word × List Word × Bool) => decide (x.1 < y.1)) lanes
        let s := { s with evals := Table.ins s.evals ev { e with toPlace := [], frac := [] } }
        let s := closeDue (sorted.foldl (fun s p => placeLane s ev e p) (closeDue s e.core)) e.core
        countEvent s e.gid 6 lanes.length)

/-- CARAVAN_WINDOW_EXPIRY: GT has reached the tile's opening GT plus its window, or a group with lanes in it is being saved. -/
def execCaravanWindowExpiry (tile : Nat) (s : State) : Out :=
  .next (match Table.look s.tiles tile with
    | none => s
    | some t => if !t.closed ∧ tileDue s t then closeTile s tile else s)

/-- What stops a tile's reads of weights and biases: the pages it must wait for, and its faulting addresses. -/
def tileHalts (s : State) (t : CTile) (e : NetEntry) : List Halt :=
  (List.range (netLayers e.header)).flatMap fun l =>
    let parts := [(e.addr + layerW e.header l, layerBytes e.header l), (e.addr + layerB e.header l, 4 * layerOut e.header l)]
    parts.flatMap fun p => (pagePieces p.1 p.2).flatMap fun pc =>
      let pg := translateCp s t.ctx pc.1
      let k := pg.key s t.ctx (coreDie t.core) pc.1
      match meetPage s pg k pc.2 false with
      | .go => []
      | .unmapped => [Halt.fail 0 0 pc.1]
      | .poison => ((linesOf k pc.2).filter (badLine s)).map fun ln => Halt.fail 1 0 (pc.1 + (ln * 128 - k))
      | b => [Halt.wait pg pc.1 b]

/-- Whether a tile waits at a page for its weights or biases. -/
def tileHeld (s : State) (t : CTile) : Bool :=
  (((ctxAt s t.ctx).bind fun c => Table.look c.nets (handleIndex t.handle)).map fun e => tileHalts s t e).any fun hs =>
    hs.any fun h => match h with | .wait .. => true | _ => false

/-- A lane of a tile returned to its instruction: outputs, or a fault with its cause address. -/
def returnRow (s : State) (r : CRow) (out : Option (List Word)) (cause nout : Nat) : State :=
  { s with evals := Table.upd s.evals r.ev fun e =>
      match out with
      | some ys => { e with waiting := e.waiting - 1, results := e.results ++ [(r.lane, ys)] }
      | none =>
        if r.helper then { e with waiting := e.waiting - 1, results := e.results ++ [(r.lane, List.replicate nout 0)] }
        else { e with waiting := e.waiting - 1, faulted := e.faulted ++ [(r.lane, cause)] } }

/-- CARAVAN_TILE_DONE (R312, R313): the closed tile's rows are evaluated, or the tile faults. Every weight and bias is read at
one instant, where R309 lets each be read at its own (DESIGN CHOICE, log entry 3). -/
def execCaravanTileDone (tile : Nat) (s : State) : Out :=
  .next (match Table.look s.tiles tile with
    | none => s
    | some t =>
      let entry := (ctxAt s t.ctx).bind fun c => Table.look c.nets (handleIndex t.handle)
      match entry with
      | none => { s with tiles := Table.del s.tiles tile }
      | some e =>
        if !t.closed ∧ !tileDue s t then s
        else
          let halts := tileHalts s t e
          match halts.findSome? fun h => match h with | .wait p va b => some (p, va, b) | _ => none with
          | some (p, va, b) => engineMeets s t.ctx (coreDie t.core) p va b
          | none =>
            let bad := halts.filterMap fun h => match h with | .fail st _ va => some (st, va) | _ => none
            let done (s : State) : State := settleNet { s with tiles := Table.del s.tiles tile } t.ctx (handleIndex t.handle)
            match minOf (bad.map (·.2)) with
            | some cause =>
              let absent := (bad.filter fun b => b.1 = 0).map (·.2)
              let s := (dedup (absent.map (· / 65536))).foldl (fun s pg =>
                pageRequest s t.ctx (coreDie t.core) ((minOf (absent.filter fun va => va / 65536 = pg)).getD 0) 0) s
              done (t.rows.foldl (fun s r => returnRow s r none cause (netOut e.header)) s)
            | none =>
              let (mem, s) := (List.range (netLayers e.header)).foldl
                (fun (acc : List (List Byte × List Byte) × State) l =>
                  let get (s : State) (a n : Nat) : List Byte × State :=
                    (pagePieces a n).foldl (fun (acc : List Byte × State) pc =>
                      let k := (translateCp acc.2 t.ctx pc.1).key acc.2 t.ctx (coreDie t.core) pc.1
                      let (xs, s) := engineRead acc.2 t.ctx (coreDie t.core) k pc.2
                      (acc.1 ++ xs, s)) ([], s)
                  let (w, s) := get acc.2 (e.addr + layerW e.header l) (layerBytes e.header l)
                  let (b, s) := get s (e.addr + layerB e.header l) (4 * layerOut e.header l)
                  (acc.1 ++ [(w, b)], s)) ([], s)
              done (t.rows.foldl (fun s r => returnRow s r (some (netRun e.header mem r.x)) 0 0) s))

/-! ## Completion (R309, R314, R317) -/

/-- The outputs of the lanes that have returned written. -/
def Eval.writeOut (e : Eval) (g : Group) : Group :=
  e.results.foldl (fun g r => (r.2.foldl (fun (acc : Group × Nat) x =>
    (acc.1.writeV (e.out + acc.2) r.1 x, acc.2 + 1)) (g, 0)).1) g

/-- A complete evaluation's registers, predicate, flag and fault. -/
def completeEval (s : State) (id : Nat) (e : Eval) : State :=
  let s := updGroup s e.gid fun g =>
    let g := g.settled id (e.writeOut g)
    match e.status with
    | some p => g.writeP p e.active (Mask.ofLanes (e.faulted.map (·.1)))
    | none => g
  let s := { s with evals := Table.del s.evals id, ops := Table.del s.ops id }
  let s := match sortBy (fun (x y : Nat × Nat) => decide (x.1 < y.1)) e.faulted with
    | (_, cause) :: _ =>
      if e.status.isSome ∨ e.mute then s
      else owe s e.gid e.fib e.flag 0x08 (BitVec.ofNat 64 cause) (Mask.ofLanes (e.faulted.map (·.1)))
    | [] => s
  flagDown s e.gid e.flag

/-- An evaluation completed when every lane it sent has returned. -/
def completeEvalWhen (s : State) (id : Nat) (tex : Bool) : State :=
  match Table.look s.evals id with
  | none => s
  | some e => if e.tex = tex ∧ e.waiting = 0 ∧ e.toPlace = [] ∧ e.frac = [] then completeEval s id e else s

/-- NEVAL_COMPLETE. -/
def execNevalComplete (ev : Nat) (s : State) : Out := .next (completeEvalWhen s ev false)

/-- The channels of a point TEX written. -/
def Op.writeTex (o : Op) (g : Group) : Group :=
  match o.dest with
  | .lane r n => (Mask.lanes o.lanes).foldl (fun g l =>
      writeWide g r l n (if (Table.look o.base (8 * l)).isSome then ofBytes (o.laneBytes (8 * l) o.size) else 0)) g
  | _ => g

/-- TEX_COMPLETE: a point TEX writes its channels, a neural one its network's outputs. Texels for a group that has left its slot are
dropped and counted (07 R173). -/
def execTexComplete (ev : Nat) (s : State) : Out :=
  .next (match Table.look s.evals ev, Table.look s.ops ev with
    | none, some o =>
      if o.kind = .tex ∧ o.complete then
        let s := { s with ops := Table.del s.ops ev }
        if !addressed s o.gid o.ident then dropLate s o.ident
        else flagDown (updGroup s o.gid fun g => g.settled ev (o.writeTex g)) o.gid o.flag
      else s
    | _, _ => completeEvalWhen s ev true)

end Sys2Proof.Machine
end

