-- ==== Sys2Proof/Machine/Splat.lean ====
section
/-! DEFINITION. The splat unit, the waystation, flushes, compositing and SPTILE (15_splat R319 to R335). -/

namespace Sys2Proof.Machine

/-! ## A die's engines at the homes -/

/-- A range read at the homes by an engine of a die. -/
def dieGet (s : State) (ctx die va n : Nat) : Except Halt (List Byte) × State :=
  (pagePieces va n).foldl (fun (acc : Except Halt (List Byte) × State) pc =>
    match acc.1 with
    | .error _ => acc
    | .ok bs => match meetEngine acc.2 ctx die 0 pc.1 pc.2 false with
      | some h => (.error h, acc.2)
      | none =>
        let p := translateCp acc.2 ctx pc.1
        let (xs, s) := engineRead (touchWalk acc.2 ctx die pc.1) ctx die (p.key acc.2 ctx die pc.1) pc.2
        (.ok (bs ++ xs), s)) (.ok [], s)

/-- What stops the write of a range by an engine of a die, if anything. -/
def dieHalt (s : State) (ctx die va n : Nat) : Option Halt :=
  (pagePieces va n).findSome? fun pc => meetEngine s ctx die 0 pc.1 pc.2 true

/-- A range written at the homes by an engine of a die, with the latest WCT. -/
def diePut (s : State) (ctx die va : Nat) (bs : List Byte) : Nat × State :=
  (pagePieces va bs.length).foldl (fun (acc : Nat × State) pc =>
    let p := translateCp acc.2 ctx pc.1
    let k := p.key acc.2 ctx die pc.1
    let (w, s) := engineWrite (touchWalk acc.2 ctx die pc.1) ctx die k ((bs.drop (pc.1 - va)).take pc.2)
    (max acc.1 w, s)) (0, s)

/-! ## Frame descriptors (R320, R321) -/

/-- The frame's width in pixels. -/
def fdW (d : List Byte) : Nat := bits (rec32 d 4) 12 0 + 1
/-- The frame's height in pixels. -/
def fdH (d : List Byte) : Nat := bits (rec32 d 4) 28 16 + 1
/-- Records per bin. -/
def fdCap (d : List Byte) : Nat := bits (rec32 d 0x14) 15 0 + 1
/-- Tiles in a row. -/
def fdTW (d : List Byte) : Nat := (fdW d + 15) / 16
/-- Rows of tiles. -/
def fdTH (d : List Byte) : Nat := (fdH d + 15) / 16
/-- Supertiles in a row. -/
def fdSW (d : List Byte) : Nat := (fdW d + 63) / 64
/-- Supertiles of the frame. -/
def fdSupers (d : List Byte) : Nat := fdSW d * ((fdH d + 63) / 64)
/-- The address of a tile's bin (R322). -/
def binAt (d : List Byte) (t : Nat) : Nat := rec64 d 0x18 + t * (32 + 32 * fdCap d)

/-- The byte offset of the first field that R320 or R321 rejects; `n` is the number of ranks. -/
def fdBad (d omap : List Byte) (n : Nat) : Option Nat :=
  if rec32 d 0 ≠ 1 then some 0
  else if bits (rec32 d 4) 15 13 ≠ 0 ∨ bits (rec32 d 4) 31 29 ≠ 0 then some 4
  else if rec64 d 8 % 64 ≠ 0 then some 8
  else if rec32 d 0x10 < fdW d then some 0x10
  else if bits (rec32 d 0x14) 31 16 ≠ 0 then some 0x14
  else if rec64 d 0x18 % 64 ≠ 0 then some 0x18
  else if omap.any fun b => n ≤ b.toNat then some 0x20
  else if !zeroAt d 0x28 24 then some 0x28
  else none

/-- The rank that owns a tile (R321). -/
def tileOwner (d omap : List Byte) (n t : Nat) : Nat :=
  let super := t / fdTW d / 4 * fdSW d + t % fdTW d / 4
  if rec64 d 0x20 = 0 then super % max 1 n else (omap.getD super 0).toNat

/-- A frame's entry on a die. -/
def frameOn (s : State) (ctx va die : Nat) : Option (Nat × Frame) :=
  s.frames.find? fun e => e.2.ctx = ctx ∧ e.2.va = va ∧ e.2.die = die

/-- A frame's entry changed. -/
def updFrame (s : State) (id : Nat) (f : Frame → Frame) : State := { s with frames := Table.upd s.frames id f }

/-- A frame's entry on a die, a fresh one where there is none. -/
def needFrame (s : State) (ctx va die : Nat) : Nat × State :=
  match frameOn s ctx va die with
  | some e => (e.1, s)
  | none =>
    let (n, s) := freshId s
    (n, { s with frames := Table.ins s.frames n
                   { die := die, ctx := ctx, va := va, isOpen := false, desc := [], omap := [], rejected := none, ctr := 0
                     culled := 0, dropped := 0, flush := none, sentTo := [], filed := [], tokens := [], bad := none
                     ready := [], flushed := false } })

/-- A frame's entry right after opening. -/
def Frame.opened (f : Frame) (desc omap : List Byte) (rejected : Option (Nat × Nat)) : Frame :=
  { f with isOpen := true, desc := desc, omap := omap, rejected := rejected, ctr := 0, culled := 0
           sentTo := [], ready := [], flushed := false }

/-- A frame opened on a die (R325): the descriptor and the map are read once; `none` while a page makes it wait. -/
def openFrame (s : State) (op ctx va die : Nat) : Option Nat × State :=
  let (id, s) := needFrame s ctx va die
  let shut (s : State) (off : Nat) (d : List Byte) : Option Nat × State :=
    (some id, updFrame s id fun f => f.opened d [] (some (0x0C, off)))
  match dieGet s ctx die va 64 with
  | (.error (.wait p a b), s) => (none, engineWaits s op ctx die p a b)
  | (.error (.fail ..), s) => shut s 0 []
  | (.ok d, s) =>
    let n := (ctxRanks s ctx).length
    let map : Except Halt (List Byte) × State :=
      if rec64 d 0x20 = 0 ∨ (fdBad d [] n).any (· < 0x20) then (.ok [], s) else dieGet s ctx die (rec64 d 0x20) (fdSupers d)
    match map with
    | (.error (.wait p a b), s) => (none, engineWaits s op ctx die p a b)
    | (.error (.fail ..), s) => shut s 0x20 d
    | (.ok m, s) => (some id, updFrame s id fun f => f.opened d m ((fdBad d m n).map fun o => (0x01, o)))

/-- Whether naming a frame on a die would open a fifth one for the context there (R325). -/
def framesFull (s : State) (ctx va die : Nat) : Bool :=
  let opened := (s.frames.filter fun e => e.2.ctx = ctx && e.2.die = die && (e.2.isOpen || e.2.flush.isSome)).map (·.2.va)
  let soon := (s.splats.filter fun e => !e.2.taken && (match groupAt s e.2.gid with
      | some g => g.die = die && (match kernelAt s g.kernel with | some k => k.ctx = ctx | none => false)
      | none => false)).map (·.2.va)
  let coord := (s.flushes.filter fun e => e.2.ctx = ctx && e.2.die = die).map (·.2.va)
  let all := dedup (opened ++ soon ++ coord)
  !all.contains va && decide (4 ≤ all.length)

/-! ## Culling and binning (R326), in exact arithmetic -/

/-- Enclosure width in bits. -/
def lnBits : Nat := 256

/-- Terms of the series. -/
def lnTerms : Nat := 100

/-- A lower bound, in units of 2^-256, of artanh(p/q) for 0 ≤ p/q ≤ 1/3; it lies less than 256 units below. -/
def artanhLow (p q : Nat) : Nat :=
  let z := p * 2 ^ lnBits / q
  ((List.range lnTerms).foldl (fun (acc : Nat × Nat) j =>
    (acc.1 + acc.2 / (2 * j + 1), acc.2 * p / q * p / q)) (0, z)).1

/-- Bounds, in units of 2^-256, of the natural logarithm of n / 2^k for n / 2^k at least 1. -/
def lnBounds (n k : Nat) : Nat × Nat :=
  let l := Nat.log2 n
  let e := l - k
  let two := 2 * artanhLow 1 3
  let m := 2 * artanhLow (n - 2 ^ l) (n + 2 ^ l)
  (e * two + m, e * (two + 600) + m + 600)

/-- A finite value in units of 2^-149, for FP32 fields. -/
def fix32 (x : Nat) : Int :=
  match Fmt.fp32.value x with
  | .fin neg m _ e => (if neg then -1 else 1) * ((m * 2 ^ (e + 149).toNat : Nat) : Int)
  | _ => 0

/-- A finite value in units of 2^-24, for FP16 fields. -/
def fix16 (x : Nat) : Int :=
  match Fmt.fp16.value x with
  | .fin neg m _ e => (if neg then -1 else 1) * ((m * 2 ^ (e + 24).toNat : Nat) : Int)
  | _ => 0

/-- Whether the box reaches a distance `d`, in units of 2^-149, from its centre: d ≤ √(K·u/det) + 1, with
K = 2 ln(256 o); `u` is c or a, `det` is ac − b². -/
def boxReaches (d : Int) (o u det : Nat) : Bool :=
  let over_ := d - (2 ^ 149 : Nat)
  if over_ ≤ 0 then true
  else
    let num := over_.toNat * over_.toNat * det * 2 ^ lnBits
    let den := 2 ^ 298 * 2 ^ 24 * u
    let (lo, hi) := lnBounds (256 * o) 24
    if 256 * o = 2 ^ 24 then num = 0
    else if num ≤ 2 * lo * den then true
    else if 2 * hi * den < num then false
    else Config.undecidedTest (BitVec.ofInt 64 (d / (2 ^ 120 : Nat)))

/-- The tiles along one axis whose closed span the box meets; `x` is the centre in units of 2^-149. -/
def spanTiles (x : Int) (o u det n : Nat) : List Nat :=
  (List.range n).filter fun t =>
    let lo : Int := (16 * t * 2 ^ 149 : Nat)
    let hi : Int := ((16 * t + 16) * 2 ^ 149 : Nat)
    boxReaches (lo - x) o u det && boxReaches (x - hi) o u det

/-- Whether an FP32 or FP16 field is finite. -/
def finiteField (f : Fmt) (x : Nat) : Bool := match f.value x with | .fin .. => true | _ => false

/-- The tiles that a record is binned in; none for a culled one. -/
def binTiles (d r : List Byte) : List Nat :=
  let h (off : Nat) : Nat := numAt r off 2
  let ok := finiteField .fp32 (rec32 r 0) && finiteField .fp32 (rec32 r 4) && finiteField .fp32 (rec32 r 0x10) &&
    [0x08, 0x0A, 0x0C, 0x14, 0x16, 0x18, 0x1A].all fun o => finiteField .fp16 (h o)
  let a := fix16 (h 0x08)
  let b := fix16 (h 0x0A)
  let c := fix16 (h 0x0C)
  let o := fix16 (h 0x1A)
  let det := a * c - b * b
  if !ok ∨ a ≤ 0 ∨ det ≤ 0 ∨ o < (2 ^ 16 : Nat) then []
  else
    let xs := spanTiles (fix32 (rec32 r 0)) o.toNat c.toNat det.toNat (fdTW d)
    let ys := spanTiles (fix32 (rec32 r 4)) o.toNat a.toNat det.toNat (fdTH d)
    ys.flatMap fun ty => xs.map fun tx => ty * fdTW d + tx

/-! ## SPLAT (R324, R325, R327) -/

/-- SPLAT. A queue register in a field is reported after the causes of the frame's address and of the commit (04 R101). -/
def execSplat (r : LReg) (f : BitVec 4) (s : State) : Out :=
  withIssuing s fun i =>
    let m := modsOf i.f.chain
    let fm : Form := { Form.caravan with c := fun _ => .unused }
    let bad : Bool := (!isQueue r && !fragOk i.g.window 8 r) || (!isQueue m.c && m.c ≠ .zero)
    if !modsOk fm i.f.clause m 0 ∨ m.mz ∨ (repOf i.f.chain).isSome ∨ bad then illegal s i
    else match pendingS i.g [2 * f.toNat, 2 * f.toNat + 1] with
    | some k => waitOn s i.gid i.fid (.token k)
    | none => if isQueue r ∨ isQueue m.c then
        let va := (i.g.readPair (2 * f.toNat)).toNat
        if va % 64 ≠ 0 then trapHere s i 0x03 (BitVec.ofNat 64 va) 0 else committing s i fun _ => trapHere s i 0x09 0 0
      else holdFor s i [(.vOnly 8, r)] (countFlag i.f.clause m) (
      let va := (i.g.readPair (2 * f.toNat)).toNat
      if va % 64 ≠ 0 then trapHere s i 0x03 (BitVec.ofNat 64 va) 0
      else if framesFull s i.k.ctx va i.g.die then stallFibre s i.gid i.fid (.frame va)
      else committing s i fun s =>
        let (n, s) := freshId s
        let o : SplatOp := { id := n, gid := i.gid, fib := i.fid, rec0 := vNum r, lanes := Mask.ofLanes (realLanes i m)
                             va := va, flag := countFlag i.f.clause m, taken := false, status := none }
        finish (flagUp { s with splats := Table.ins s.splats n o } i.gid (countFlag i.f.clause m)) i)

/-- The record of a lane, in eight V registers (R319). -/
def laneRecord (g : Group) (r l : Nat) : List Byte := (List.range 8).flatMap fun j => toBytes 4 (g.readV (r + j) l).toNat

/-- A count raised in a list of counts under a pair of keys. -/
def bumpCount (xs : List (Nat × Nat × Nat)) (a b : Nat) : List (Nat × Nat × Nat) :=
  if xs.any fun x => x.1 = a ∧ x.2.1 = b then
    xs.map fun x => if x.1 = a ∧ x.2.1 = b then (a, b, x.2.2 + 1) else x
  else xs ++ [(a, b, 1)]

/-- One lane's record culled, or numbered and sent to the owner of each tile it is binned in (R325 to R327). -/
def submitRecord (s : State) (ident id ctx rank : Nat) (rs : List Nat) (r : List Byte) : State :=
  match Table.look s.frames id with
  | none => s
  | some f =>
    match binTiles f.desc r with
    | [] => updFrame s id fun f => { f with culled := f.culled + 1 }
    | tiles =>
      let owner (t : Nat) : Nat := rs.getD (tileOwner f.desc f.omap rs.length t) 0
      let s := updFrame s id fun f =>
        { f with ctr := f.ctr + 1, sentTo := tiles.foldl (fun xs t => bumpCount xs (owner t) t) f.sentTo }
      (dedup (tiles.map owner)).foldl (fun s d =>
        let (n, s) := freshId s
        { s with recs := Table.ins s.recs n
                   { ident := ident, ctx := ctx, va := f.va, fromRank := rank, toDie := d, token := f.ctr * 64 + rank, bytes := r
                     tiles := tiles.filter fun t => owner t = d } }) s

/-- SPLAT_SUBMIT: the die's splat unit takes the group's oldest SPLAT. -/
def execSplatSubmit (op : Nat) (s : State) : Out :=
  .next (match Table.look s.splats op with
    | none => s
    | some o => match groupAt s o.gid with
      | none => s
      | some g => match kernelAt s g.kernel with
        | none => s
        | some k =>
          if o.taken ∨ s.splats.any (fun e => e.1 < op && e.2.gid = o.gid && !e.2.taken) then s
          else
            let cur := frameOn s k.ctx o.va g.die
            if cur.any fun e => e.2.flush.isSome then s
            else
              let (fid, s) := match cur with
                | some e => if e.2.isOpen then (some e.1, s) else openFrame s op k.ctx o.va g.die
                | none => openFrame s op k.ctx o.va g.die
              match fid.bind fun id => (Table.look s.frames id).map fun f => (id, f) with
              | none => s
              | some (id, f) =>
                let s := match f.rejected with
                  | some _ => s
                  | none =>
                    let rs := ctxRanks s k.ctx
                    (Mask.lanes o.lanes).foldl (fun s l =>
                      submitRecord s (groupIdent g) id k.ctx (rs.idxOf g.die) rs (laneRecord g o.rec0 l)) s
                { s with splats := Table.ins s.splats op { o with taken := true, status := f.rejected.map (·.1) } })

/-- SPLAT_COMPLETE: the records have entered the splat network. -/
def execSplatComplete (op : Nat) (s : State) : Out :=
  .next (match Table.look s.splats op with
    | none => s
    | some o =>
      if !o.taken then s
      else
        let s := { s with splats := Table.del s.splats op }
        let s := match o.status with
          | some c => owe s o.gid o.fib o.flag c (BitVec.ofNat 64 o.va) 0
          | none => s
        flagDown s o.gid o.flag)

/-! ## The waystation (R328) -/

/-- A record filed in one bin, or dropped where the bin is full, or lost where the bin cannot be written. -/
def fileIn (s : State) (fid ctx die : Nat) (desc : List Byte) (r : SplatRec) (t : Nat) : State :=
  let bin := binAt desc t
  let s := updFrame s fid fun f => { f with filed := bumpCount f.filed t r.fromRank }
  let lost (s : State) : State := updFrame s fid fun f =>
    { f with bad := some (match f.bad with | some b => min b t | none => t) }
  match dieGet s ctx die bin 4 with
  | (.error _, s) => lost s
  | (.ok c, s) =>
    let n := ofBytes c
    if fdCap desc ≤ n then updFrame s fid fun f => { f with dropped := f.dropped + 1 }
    else if (dieHalt s ctx die (bin + 32 + 32 * n) 32).isSome ∨ (dieHalt s ctx die bin 4).isSome then lost s
    else
      let (_, s) := diePut s ctx die (bin + 32 + 32 * n) r.bytes
      let (_, s) := diePut s ctx die bin (toBytes 4 (n + 1))
      updFrame s fid fun f => { f with tokens := f.tokens ++ [(t, n, r.token)] }

/-- The first page that filing a record would wait for. -/
def fileWait (s : State) (ctx die : Nat) (desc : List Byte) (r : SplatRec) : Option (Pg × Nat × Block1) :=
  r.tiles.findSome? fun t =>
    let bin := binAt desc t
    [dieHalt s ctx die bin 4,
     (match (dieGet s ctx die bin 4).1 with
      | .ok c => if ofBytes c < fdCap desc then dieHalt s ctx die (bin + 32 + 32 * ofBytes c) 32 else none
      | .error h => some h)].findSome? fun h => match h with
        | some (.wait p va b) => some (p, va, b)
        | _ => none

/-- WAYSTATION_FILE: a record whose lower tokens from its die have been filed goes into its tiles' bins, once it has reached the
waystation's die (R328, R335; 19 R397). There it is the waystation's: it keeps nothing back in the mesh (19 R395). -/
def execWaystationFile (recd : Nat) (s : State) : Out :=
  .next (match Table.look s.recs recd with
    | none => s
    | some r =>
      let earlier := s.recs.any fun e => e.2.ctx = r.ctx && e.2.va = r.va && e.2.fromRank = r.fromRank &&
        e.2.toDie = r.toDie && decide (e.2.token < r.token)
      match frameOn s r.ctx r.va ((ctxRanks s r.ctx).getD r.fromRank 0) with
      | none => { s with recs := Table.del s.recs recd }
      | some (_, src) =>
        if earlier ∨ underWay s 2 recd 0 ((ctxRanks s r.ctx).getD r.fromRank 0) r.toDie then s
        else match fileWait s r.ctx r.toDie src.desc r with
          | some (p, va, b) => engineWaits s recd r.ctx r.toDie p va b
          | none =>
            let (fid, s) := needFrame { s with recs := Table.del s.recs recd } r.ctx r.va r.toDie
            r.tiles.foldl (fun s t => fileIn s fid r.ctx r.toDie src.desc r t) s)

/-! ## SPFLUSH (R329, R330) -/

/-- SPFLUSH. -/
def execSpflush (d a : BitVec 6) (f : BitVec 4) (s : State) : Out :=
  uniform s (fun _ => evenReg a && flagField f) (pairRegs a ++ [d.toNat]) fun i =>
    let va := (i.g.readPair a.toNat).toNat
    if va % 64 ≠ 0 then trapHere s i 0x03 (BitVec.ofNat 64 va) 0
    else if framesFull s i.k.ctx va i.g.die then stallFibre s i.gid i.fid (.frame va)
    else countedOn s i f (committing s i fun s =>
      let (n, s) := freshId s
      let fl : Flush := { ctx := i.k.ctx, va := va, die := i.g.die, gid := i.gid, fib := i.fid, token := d.toNat, flag := f.toNat
                          reached := [], lists := [], forwarded := [], tilesDone := [], wct := 0, opaq := i.k.sample 0x020
                          bad := none, rejected := none }
      let s := { s with flushes := Table.ins s.flushes n fl }
      let s := updGroup s i.gid fun g => { g with tokens := Table.ins g.tokens d.toNat n }
      finish (flagUp s i.gid f.toNat) i)

/-- FLUSH_REQUEST: the coordinator opens the frame if it is not open and is the first that the request reaches; each
die sends its lists, and the frame counts as flushing there. A flush waits for an earlier one of its frame. -/
def execFlushRequest (fl die : Nat) (s : State) : Out :=
  .next (match Table.look s.flushes fl with
    | none => s
    | some x =>
      let rs := ctxRanks s x.ctx
      let earlier := s.flushes.any fun e => e.1 < fl && e.2.ctx = x.ctx && e.2.va = x.va
      if earlier ∨ x.reached.contains die ∨ !rs.contains die ∨ underWay s 0 fl die x.die die ∨ (die ≠ x.die ∧ !x.reached.contains x.die) then s
      else
        let cur := frameOn s x.ctx x.va die
        let (fid, s) : Option Nat × State :=
          if die = x.die ∧ !(cur.any fun e => e.2.isOpen) then openFrame s fl x.ctx x.va die
          else
            let (n, s) := needFrame s x.ctx x.va die
            (some n, s)
        match fid.bind fun id => (Table.look s.frames id).map fun f => (id, f) with
        | none => s
        | some (id, f) =>
          let (desc, omap, rejected) := match frameOn s x.ctx x.va x.die with
            | some e => (e.2.desc, e.2.omap, e.2.rejected)
            | none => ([], [], none)
          let sent := if f.isOpen then f.sentTo else []
          let s := updFrame s id fun f =>
            { f with flush := some fl, flushed := true, ready := []
                     desc := if f.isOpen then f.desc else desc, omap := if f.isOpen then f.omap else omap
                     rejected := if f.isOpen then f.rejected else rejected }
          { s with flushes := Table.ins s.flushes fl
                     { x with reached := x.reached ++ [die]
                              lists := x.lists ++ sent.map fun e => (e.1, e.2.1, rs.idxOf die, e.2.2)
                              rejected := if die = x.die then f.rejected.map (·.2) else x.rejected } })

/-- FLUSH_LISTS_FORWARD: every die's list is in, and each owner that no retraining boundary keeps from it gets its own. -/
def execFlushListsForward (fl : Nat) (s : State) : Out :=
  .next (match Table.look s.flushes fl with
    | none => s
    | some x =>
      let rs := ctxRanks s x.ctx
      if rs.all fun d => x.reached.contains d && (x.forwarded.contains d || x.forwarded ≠ [] || !trafficHeld s d x.die) then
        { s with flushes := Table.ins s.flushes fl
                   { x with forwarded := rs.filter fun d => x.forwarded.contains d || !trafficHeld s x.die d } }
      else s)

/-! ## Compositing (R331, R332) -/

/-- The sort key of a depth (R331). -/
def depthKey (x : Nat) : Nat := if x < 2 ^ 31 then x + 2 ^ 31 else 2 ^ 32 - 1 - x

/-- A record with its token comes before another (R331). -/
def recordBefore (x y : Nat × List Byte) : Bool :=
  let a := depthKey (rec32 x.2 0x10)
  let b := depthKey (rec32 y.2 0x10)
  decide (a < b ∨ (a = b ∧ (x.1 < y.1 ∨ (x.1 = y.1 ∧ rec32 x.2 0x1C < rec32 y.2 0x1C))))

/-- A pixel as it is composited. -/
structure Pixel where
  col : List Nat
  t : Nat
  covered : Bool

/-- FP32 rounding under RNE. -/
def rne32 (x : Ext) : Nat := roundTo .fp32 0 false 0 x

/-- One record composited onto a pixel whose centre lies at (x + ½, y + ½); `none` where the pixel stops (R332). -/
def compositeOne (thr x y : Nat) (p : Pixel) (r : List Byte) : Option Pixel :=
  let one : Ext := .fin false 1 1 0
  let t := Fmt.fp32.value p.t
  let stop : Bool := match Ext.cmp (Ext.add false one t.negate) (Fmt.fp32.value thr) with
    | some .lt => false
    | some _ => true
    | none => false
  if stop then none
  else
    let centre (v : Nat) : Ext := .fin false (2 * v + 1) 1 (-1)
    let h (off : Nat) : Ext := Fmt.fp16.value (numAt r off 2)
    let dx := Ext.add false (centre x) (Fmt.fp32.value (rec32 r 0)).negate
    let dy := Ext.add false (centre y) (Fmt.fp32.value (rec32 r 4)).negate
    let q := Ext.add false (Ext.add false (Ext.mul (h 0x08) (Ext.mul dx dx))
      (Ext.mul (.fin false 2 1 0) (Ext.mul (h 0x0A) (Ext.mul dx dy)))) (Ext.mul (h 0x0C) (Ext.mul dy dy))
    let g := specialResult .exp2 0 false 0 (rne32 (Ext.mul q.negate (.fin false klConst 1 (-32))))
    let a0 := rne32 (Ext.mul (h 0x1A) (Fmt.fp32.value g))
    let alpha := if 0x3F7F0000 < a0 then 0x3F7F0000 else a0
    if alpha < 0x3B800000 then some p
    else
      let av := Fmt.fp32.value alpha
      let w := Fmt.fp32.value (rne32 (Ext.mul t av))
      some { col := (List.range 3).map fun k =>
               rne32 (Ext.add false (Fmt.fp32.value (p.col.getD k 0)) (Ext.mul w (h (0x14 + 2 * k))))
             t := rne32 (Ext.mul t (Ext.add false one av.negate)), covered := true }

/-- A pixel composited through sorted records. -/
def compositePixel (thr x y : Nat) : Pixel → List (List Byte) → Pixel
  | p, [] => p
  | p, r :: rs => match compositeOne thr x y p r with
    | none => p
    | some q => compositePixel thr x y q rs

/-- The pixel before any record. -/
def Pixel.clear : Pixel := { col := [0, 0, 0], t := 0x3F800000, covered := false }

/-- The tiles of a frame that a die owns. -/
def ownedTiles (s : State) (ctx : Nat) (f : Frame) : List Nat :=
  let rs := ctxRanks s ctx
  if f.rejected.isSome ∨ f.desc = [] then []
  else (List.range (fdTW f.desc * fdTH f.desc)).filter fun t =>
    rs.getD (tileOwner f.desc f.omap rs.length t) 0 = f.die

/-- Whether a tile's bin has filed or dropped, from each die, as many records as that die listed (R329). -/
def tileFed (x : Flush) (f : Frame) (t : Nat) : Bool :=
  x.lists.all fun e => !(e.1 = f.die ∧ e.2.1 = t) ||
    decide (e.2.2.2 ≤ ((f.filed.find? fun c => c.1 = t ∧ c.2.1 = e.2.2.1).map (·.2.2)).getD 0)

/-- The rows of a tile's pixels within the frame: address and pixels. -/
def tileRows (d : List Byte) (thr t : Nat) (rs : List (List Byte)) : List (Nat × Nat × List (Nat × Pixel)) :=
  let x0 := t % fdTW d * 16
  let y0 := t / fdTW d * 16
  ((List.range 16).filter fun dy => y0 + dy < fdH d).map fun dy =>
    (rec64 d 8 + ((y0 + dy) * rec32 d 0x10 + x0) * 16, dy,
     ((List.range 16).filter fun dx => x0 + dx < fdW d).map fun dx =>
       (dx, compositePixel thr (x0 + dx) (y0 + dy) .clear rs))

/-- A pixel's 16 bytes (R322). -/
def pixelBytes (p : Pixel) : List Byte := p.col.flatMap (toBytes 4) ++ toBytes 4 p.t

/-- TILE_COMPOSITE: the owning die sorts, composites and writes a tile, empties its bin and marks it ready. -/
def execTileComposite (fl tile : Nat) (s : State) : Out :=
  .next (match Table.look s.flushes fl with
    | none => s
    | some x =>
      match s.frames.find? fun e => e.2.ctx = x.ctx ∧ e.2.va = x.va ∧ e.2.flush = some fl ∧
          (ownedTiles s x.ctx e.2).contains tile with
      | none => s
      | some (fid, f) =>
        if !x.forwarded.contains f.die ∨ x.tilesDone.contains tile ∨ !tileFed x f tile then s
        else
          let bin := binAt f.desc tile
          let (head, s) := dieGet s x.ctx f.die bin 4
          let count := match head with | .ok c => min (ofBytes c) (fdCap f.desc) | .error _ => 0
          let (body, s) := dieGet s x.ctx f.die (bin + 32) (32 * count)
          let recs := match body with
            | .ok bs => (List.range count).map fun j =>
                (((f.tokens.find? fun e => e.1 = tile ∧ e.2.1 = j).map (·.2.2)).getD 0, (bs.drop (32 * j)).take 32)
            | .error _ => []
          let rows := tileRows f.desc x.opaq.toNat tile ((sortBy recordBefore recs).map (·.2))
          let outs := rows.map fun r => (r.1, r.2.2.flatMap fun p => pixelBytes p.2)
          let readHalts := [head, body].filterMap fun h => match h with | .error h => some h | .ok _ => none
          let halts := readHalts ++ (outs.map fun r => dieHalt s x.ctx f.die r.1 r.2.length).filterMap id ++
            (dieHalt s x.ctx f.die bin 4).toList
          match halts.findSome? fun h => match h with | .wait p va b => some (p, va, b) | _ => none with
          | some (p, va, b) => engineWaits s fl x.ctx f.die p va b
          | none =>
            let good := if readHalts = [] then outs.filter fun r => (dieHalt s x.ctx f.die r.1 r.2.length).isNone else []
            let (n, s) := if halts = [] then (good.length, s) else choose s (good.length + 1)
            let (w, s) := (good.take n).foldl (fun (acc : Nat × State) r =>
              let (w, s) := diePut acc.2 x.ctx f.die r.1 r.2
              (max acc.1 w, s)) (0, s)
            let (w, s) := if (dieHalt s x.ctx f.die bin 4).isSome then (w, s)
              else
                let (w', s) := diePut s x.ctx f.die bin (toBytes 4 0)
                (max w w', s)
            let px := rows.flatMap fun r => (r.2.2.filter fun p => p.2.covered).map fun p => (p.1, r.2.1)
            let quads := px.foldl (fun (m : DWord) p => m ||| BitVec.ofNat 64 (2 ^ (p.2 / 2 * 8 + p.1 / 2))) 0
            let s := updFrame s fid fun f =>
              { f with ready := f.ready ++ [{ tile := tile, pixels := px, quads := quads, claimed := false, wct := w }]
                       filed := f.filed.filter fun c => c.1 ≠ tile, tokens := f.tokens.filter fun c => c.1 ≠ tile }
            { s with flushes := Table.ins s.flushes fl
                       { x with tilesDone := x.tilesDone ++ [tile], wct := max x.wct w
                                bad := if halts = [] then x.bad else some (match x.bad with | some b => min b tile | none => tile) } })

/-- The status word of a flush that is done (R330); `fs` are its frame's entries. -/
def flushStatus (x : Flush) (fs : List Frame) : Nat :=
  let sat (n : Nat) : Nat := min n (2 ^ 28 - 1)
  let dropped := (fs.map (·.dropped)).sum
  let culled := (fs.map (·.culled)).sum
  let bad := minOf (x.bad.toList ++ fs.filterMap (·.bad))
  match x.rejected, bad with
  | some off, _ => 3 * 2 ^ 28 + off
  | none, some t => 2 * 2 ^ 28 + t
  | none, none => if dropped ≠ 0 then 2 ^ 28 + sat dropped else sat culled

/-- SPFLUSH_COMPLETE: every tile is written and GT has passed the latest WCT; the frame closes on every die. -/
def execSpflushComplete (fl : Nat) (s : State) : Out :=
  .next (match Table.look s.flushes fl with
    | none => s
    | some x =>
      let fs := s.frames.filter fun e => e.2.ctx = x.ctx && e.2.va = x.va && e.2.flush = some fl
      let owned := fs.flatMap fun e => ownedTiles s x.ctx e.2
      if !(ctxRanks s x.ctx).all x.forwarded.contains ∨ (x.rejected.isNone ∧ !owned.all x.tilesDone.contains) ∨ (x.wct ≠ 0 ∧ gtOf s x.die ≤ x.wct) then s
      else
        let status := flushStatus x (fs.map (·.2))
        let s := fs.foldl (fun s e => updFrame s e.1 fun f =>
          { f with isOpen := false, flush := none, ctr := 0, culled := 0, dropped := 0, sentTo := [], bad := none }) s
        let s := { s with flushes := Table.del s.flushes fl }
        let s := updGroup s x.gid fun g =>
          { g.writeS x.token (BitVec.ofNat 32 status) with tokens := Table.sel g.tokens fun _ v => v ≠ fl }
        flagDown s x.gid x.flag)

/-! ## SPTILE (R334) -/

/-- What SPTILE finds on a die: a tile to claim, tiles that are not ready, or none. -/
inductive TileClaim where
  | tile (fid : Nat) (r : ReadyTile) (desc : List Byte)
  | wait
  | none
  deriving DecidableEq, Repr

/-- The claim of a frame's lowest ready tile on a die. -/
def tileClaim (s : State) (ctx va die : Nat) : TileClaim :=
  match frameOn s ctx va die with
  | none => .none
  | some (fid, f) =>
    if !f.flushed then .none
    else
      let free := f.ready.filter fun r => !r.claimed && decide (r.wct = 0 ∨ r.wct < gtOf s die)
      match sortBy (fun (x y : ReadyTile) => decide (x.tile < y.tile)) free with
      | r :: _ => .tile fid r f.desc
      | [] =>
        if (ownedTiles s ctx f).all fun t => f.ready.any fun r => r.tile = t && r.claimed then .none else .wait

/-- A tile-mode kernel for which SPTILE would answer none on every die of its partition places no further blocks (16
R341). -/
def latchTiles (s : State) : State :=
  let over_ (k : Kernel) : Bool := k.tileMode && !k.tilesOver &&
    (k.state = .staged || k.state = .launched || k.state = .running) &&
    (ctxRanks s k.ctx).all fun d => match tileClaim s k.ctx k.frame d with | .none => true | _ => false
  if s.kernels.any fun e => over_ e.2 then
    { s with kernels := s.kernels.map fun e => if over_ e.2 then (e.1, { e.2 with tilesOver := true }) else e }
  else s

/-- SPTILE. -/
def execSptile (d a : BitVec 6) (s : State) : Out :=
  let regs := (List.range 4).map (d.toNat + ·)
  uniform s (fun _ => decide (d.toNat % 4 = 0) && evenReg a) (pairRegs a ++ regs) fun i =>
    committing s i fun s =>
      let va := (i.g.readPair a.toNat).toNat
      let put (s : State) (x0 x1 : Word) (q : DWord) : State :=
        finish (acquire (updGroup s i.gid fun g =>
          ((g.writeS d.toNat x0).writeS (d.toNat + 1) x1).writePair (d.toNat + 2) q) i.ck 4) i
      match tileClaim s i.k.ctx va i.g.die with
      | .wait => waitOn s i.gid i.fid (.sptile va)
      | .none => put s 0xFFFFFFFF 0 0
      | .tile fid r desc =>
        let s := updFrame s fid fun f =>
          { f with ready := f.ready.map fun x => if x.tile = r.tile then { x with claimed := true } else x }
        let s := latchTiles s
        put s (BitVec.ofNat 32 (r.tile / fdTW desc * 2 ^ 16 + r.tile % fdTW desc)) (BitVec.ofNat 32 r.pixels.length) r.quads

end Sys2Proof.Machine
end

