-- ==== Sys2Proof/Machine/FibreEvents.lean ====
section
/-! DEFINITION. What happens to a fibre between its words: waits met, the fairness timer, trap delivery, the scoreboard,
SPINH and LAUNCH (04 R85; 06 R148; 07 R153, R163, R166; 17 R359, R360; 18 R367). -/

namespace Sys2Proof.Machine

/-! ## Waits met (07 R153, R166) -/

/-- The waiting fibre made ready; its word issues again. -/
def readyAgain (s : State) (i : Iss) : State := updFibre s i.gid i.fid (readyFibre (gtOf s i.g.die))

/-- The waiting fibre made ready past its word. -/
def readyPast (s : State) (i : Iss) : State := finish (readyAgain s i) i

/-- What becomes of a fibre whose wait is met; `none` where it is not, or where another event meets it. -/
def waitMet (s : State) (i : Iss) (w : Wait) : Option State :=
  let retry (b : Bool) : Option State := if b then some (readyAgain s i) else none
  match w with
  | .flags m => retry (flagsClear i.g m)
  | .release sc => retry (!releasePending s i.gid i.fid sc)
  | .queue pops push => retry (queuesReady i.k i.b pops push)
  | .token k => retry (Table.look i.g.tokens k).isNone
  | .fetch va =>
    let st := (translateCp s i.k.ctx va).st
    retry (decide (st = 3 ∨ st = 4 ∨ st = 6 ∨ st = 7))
  | .noise n => retry (drawValues s i.k i.g n).isSome
  | .sptile va => retry (match tileClaim s i.k.ctx va i.g.die with | .wait => false | _ => true)
  | .barrier bar gen =>
    match Table.look s.barriers bar with
    | some b => if b.gen ≠ gen then some (acquire (readyPast s i) i.ck 3) else none
    | none => none
  | .held bar gen reg =>
    match Table.look s.barriers bar with
    | some b =>
      if Table.rd b.held 0 i.gid &&& i.f.p0 ≠ 0 then none
      else match reg with
        | some k => some (readyPast (updGroup s i.gid fun g => g.writeS k (if gen then 0 else 1)) i)
        | none => some (waitOn s i.gid i.fid (.barrier bar (!gen)))
    | none => none
  | .icinv => some (readyPast s i)
  | .writeback wct => if wct < gtOf s i.g.die then some (stepTrap (readyAgain s i) i) else none
  | .spin _ _ hit => if hit then some (readyPast s i) else none
  | _ => none

/-- The fibre named, with all it belongs to, while its group is resident. -/
def fibreIss (s : State) (g f : Nat) : Option Iss :=
  (issuing { s with cur := some (g, f) }).filter fun i => i.g.state = .begun || i.g.state = .resident

/-- How many commands stand before one in its die's command queue. -/
def queuePlace (s : State) (die n : Nat) : Nat := (s.cqueue.filter fun e => e.2.die = die && decide (e.1 < n)).length

/-- Whether what holds a stalled fibre's word still stands (R153). -/
def holdStands (s : State) (i : Iss) (h : Hold) : Bool :=
  match h with
  | .board codes => codes.any i.g.board.contains
  | .flag k => decide (127 ≤ i.g.flag k)
  | .locks n => decide (256 < lockEntries s i.ck + n)
  | .loops => decide (4 ≤ (loopsOf i.g).length)
  | .frame va => framesFull s i.k.ctx va i.g.die
  | .command => match s.cqueue.find? fun e => e.2.gid = i.gid && e.2.fib = i.fid && e.2.held with
    | some e => decide (64 ≤ queuePlace s e.2.die e.1)
    | none => false
  | .way => false

/-- FIBRE_WAIT_MET: a wait whose condition holds ends (R166); a stalled fibre whose hold has cleared may try its word again (R153),
and one that found its way through the mesh closed tries whether it has opened (log entry 65). -/
def execFibreWaitMet (g f : Nat) (s : State) : Out :=
  .next (match fibreIss s g f with
    | none => s
    | some i => match i.f.state with
      | .waiting w => (waitMet s i w).getD s
      | .stalled h => if holdStands s i h then s else updFibre s g f fun x => { x with state := .ready }
      | _ => s)

/-- Whether it is a write in flight to a register that holds a stalled fibre's word. -/
def FState.onBoard (x : FState) : Bool := match x with | .stalled (.board _) => true | _ => false

/-- SCOREBOARD_WRITE_COMPLETE (04 R85): the writes in flight are done, and the fibres that they held are ready. -/
def execScoreboardWriteComplete (g : Nat) (s : State) : Out :=
  .next (updGroup s g fun x =>
    { x with board := []
             fibres := x.fibres.map fun e => if e.2.state.onBoard then (e.1, { e.2 with state := .ready }) else e })

/-- FIBRE_DUE (R163, R164): GT has passed the stamp of a ready or stalled fibre by FAIRT, under `.progress on`. -/
def execFibreDue (g f : Nat) (s : State) : Out :=
  .next (match fibreIss s g f with
    | none => s
    | some i =>
      match i.f.readySince with
      | some t =>
        if (i.f.state = .ready ∨ i.f.state.isStalled) ∧ i.k.prog ∧ t + fairOf i.k ≤ gtOf s i.g.die then
          updFibre s g f fun x => { x with due := true }
        else s
      | none => s)

/-- TRAP_DELIVERY (18 R367). -/
def execTrapDelivery (g f : Nat) (s : State) : Out :=
  .next (match fibreIss s g f with
    | none => s
    | some i => if i.f.state = .waiting .trap then
        let t := deliverTrap s g f
        match fibreAt t g f with
        | some x => if x.state = .ended then resettle t g else t
        | none => t
      else s)

/-! ## Starvation (17 R359) -/

/-- STARV_ISSUE: a begun group that has had a ready fibre for STARV without issuing takes the next slot of its room. -/
def execStarvIssue (g : Nat) (s : State) : Out :=
  .next (match groupAt s g with
    | none => s
    | some x =>
      if (starvesAt s x).any fun t => decide (t ≤ gtOf s x.die) then updGroup s g fun x => { x with starved := true } else s)

/-! ## SPINH (17 R360) -/

/-- SPINH. -/
def execSpinh (a : BitVec 6) (s : State) : Out :=
  uniform s (fun _ => evenReg a) (pairRegs a) fun i =>
    let va := (i.g.readPair a.toNat).toNat
    if va % 4 ≠ 0 then trapHere s i 0x03 (BitVec.ofNat 64 va) 0
    else
      let (p, s) := translate s i.ck i.k.ctx va
      if p.st = 3 ∨ p.st = 4 ∨ p.st = 6 then
        waitOn s i.gid i.fid (.spin (p.key s i.k.ctx i.g.die va / 128) (gtOf s i.g.die + fairOf i.k) false)
      else finish s i

/-- SPINH_TIMEOUT: FAIRT has passed with no write; from now on the group helps the saved groups of its context. -/
def execSpinhTimeout (g f : Nat) (s : State) : Out :=
  .next (match fibreIss s g f with
    | none => s
    | some i => match i.f.state with
      | .waiting (.spin line until_ hit) =>
        if hit then readyPast s i
        else if until_ ≤ gtOf s i.g.die then
          readyPast { s with helps := if s.helps.contains (g, line) then s.helps else (g, line) :: s.helps } i
        else s
      | _ => s)

/-- Whether a timed-out SPINH of a context helps its saved groups. -/
def helpedCtx (s : State) (ctx : Nat) : Bool :=
  s.helps.any fun h => (groupAt s h.1).any fun y => (kernelAt s y.kernel).any fun k => k.ctx = ctx

/-! ## LAUNCH (06 R148) -/

/-- LAUNCH: the release, then the packet is handed to the command processor. No rule gives TADDR and TMASK of its trap 0x03;
they are the packet's address and 0 (log entry 61). -/
def execLaunch (d a b : BitVec 6) (f : BitVec 4) (s : State) : Out :=
  uniform s (fun _ => decide (f.toNat ≤ 12) && evenReg a) (pairRegs a ++ [b.toNat, d.toNat]) fun i =>
    let va := (i.g.readPair a.toNat).toNat
    if va % 64 ≠ 0 then trapHere s i 0x03 (BitVec.ofNat 64 va) 0
    else if f ≠ 0 ∧ 127 ≤ i.g.flag f.toNat then stallFibre s i.gid i.fid (.flag f.toNat)
    else releasing s i 4 fun s =>
      let (n, s) := freshId s
      let la : LaunchOp :=
        { ident := groupIdent i.g, gid := i.gid, fib := i.fid, ctx := i.k.ctx, va := va, queue := (i.g.readS b.toNat).toNat, reg := d.toNat,
          flag := f.toNat }
      let s := updGroup { s with launches := Table.ins s.launches n la } i.gid fun g =>
        { g with tokens := Table.ins g.tokens d.toNat n }
      finish (flagUp s i.gid f.toNat) i

end Sys2Proof.Machine
end

