-- ==== Sys2Proof/Machine/PageJobs.lean ====
section
/-! DEFINITION. Staging, eviction, collapse, migration, poison, and the resumption of aborted fibres (10 R218 to R227;
07 R159). -/

namespace Sys2Proof.Machine

/-! ## Resuming -/

/-- Whether a page that aborted a fibre lets it go on (R218): STATE 3, 4 or 7, or for a read STATE 6. -/
def pageReady (s : State) (ctx va : Nat) (isRead : Bool) : Bool :=
  let st := (translateCp s ctx va).st
  decide (st = 3 ∨ st = 4 ∨ st = 7) || (isRead && decide (st = 6))

/-- ABORTED_FIBRE_RESUME: ready at the region start once every page that aborted the fibre is resident, and an INVALIDATE
has ended over each that was in STATE 0 (R218). -/
def execAbortedFibreResume (g f : Nat) (s : State) : Out :=
  .next (match groupAt s g with
    | none => s
    | some gr => match Table.look gr.fibres f, kernelAt s gr.kernel with
      | some x, some k => match x.state with
        | .aborted pages =>
          if pages.all fun p => pageReady s k.ctx p.1 p.2.1 && !p.2.2 then updFibre s g f (readyFibre (gtOf s gr.die)) else s
        | _ => s
      | _, _ => s)

/-! ## Moving frames -/

/-- The cells of `n` bytes from one key moved to another place; what the place held goes. -/
def copyCells (m : List Host.Cell) (src dst n : Nat) : List Host.Cell :=
  let moved := (m.filter fun c => src ≤ c.1 ∧ c.1 < src + n).map fun c => (c.1 - src + dst, c.2)
  moved.foldl (fun m c => Memory.write m c.1 c.2) (m.filter fun c => !(dst ≤ c.1 ∧ c.1 < dst + n))

/-- The lines of a frame that anything still holds away from its home: update-only partials, summary holds. -/
def settleFrame (s : State) (key n : Nat) : State :=
  let lines := dedup ((s.homes.filter fun e => key ≤ e.1 * 128 ∧ e.1 * 128 < key + n).map (·.1) ++
    (s.partials.filter fun e => key ≤ e.2.addr ∧ e.2.addr < key + n).map fun e => e.2.addr / 128)
  lines.foldl recallLine s

/-- Every L1's dirty bytes of a frame written home, and every L1's bytes of it dropped (R226). -/
def flushFrame (s : State) (key n : Nat) : State :=
  let cores := dedup ((s.l1.filter fun e => key ≤ e.1 % 2 ^ 48 ∧ e.1 % 2 ^ 48 < key + n).map fun e => e.1 / 2 ^ 48)
  cores.foldl (fun s ck =>
    let (_, s) := l1WriteBack s ck fun k _ => decide (key ≤ k ∧ k < key + n)
    l1Drop s ck fun a _ => decide (key ≤ a ∧ a < key + n)) (settleFrame s key n)

/-- Whether nothing is on its way to a frame: no write unapplied, no fill, no load that waits for its lines, and no
buffered write of a fibre (log entry 12). -/
def frameQuiet (s : State) (key n : Nat) : Bool :=
  !(s.writes.any fun e => e.2.wct.isNone && decide (key ≤ e.2.addr ∧ e.2.addr < key + n)) &&
  !(s.fills.any fun e => decide (key ≤ e.2.line * 128 ∧ e.2.line * 128 < key + n)) &&
  !(s.ops.any fun e => e.2.missing.any fun l => decide (key ≤ l * 128 ∧ l * 128 < key + n)) &&
  !(s.groups.any fun e => match kernelAt s e.2.kernel with
      | none => false
      | some k => e.2.fibres.any fun f => (buffered f.2).any fun w =>
          let a := (translateCp s k.ctx w.span.1).key s k.ctx e.2.die w.span.1
          decide (key ≤ a ∧ a < key + n))

/-- Whether `n` bytes from a key may lie in a failed memory. -/
def nearDead (s : State) (key n : Nat) : Bool :=
  s.deadMem.any fun e => decide (e.1 * 2 ^ 36 < key + n ∧ key < (e.1 + 1) * 2 ^ 36)

/-- The poisoned lines among `n` bytes from a key. -/
def badLines (s : State) (key n : Nat) : List Nat :=
  if nearDead s key n then (linesOf key n).filter (badLine s)
  else s.poison.filter fun l => decide (key ≤ l * 128 ∧ l * 128 < key + n)

/-- The requests that a copy of `n` bytes makes of the memory controllers, for the die whose command processor copies
(R228): one for each line, counted by blocks of 64 KiB. -/
def copyTouch (s : State) (ctx die key n : Nat) : State :=
  if keyTier key ≠ 0 then s
  else (List.range ((n + 65535) / 65536)).foldl (fun s b =>
    countHot s ctx (key + 65536 * b) die ((min 65536 (n - 65536 * b) + 127) / 128)) s

/-- A frame copied from one key to another through the home slices: `none` where a line of the source is poisoned. -/
def copyFrame (s : State) (src dst n : Nat) : Option State :=
  let s := settleFrame (settleFrame s src n) dst n
  if badLines s src n ≠ [] then none
  else
    let s := clearPoison { s with mem := copyCells s.mem src dst n } (badLines s dst n)
    some ((dedup (s.groups.flatMap fun e => e.2.fibres.filterMap fun f => match f.2.state with
        | .waiting (.spin l _ _) => if dst ≤ l * 128 ∧ l * 128 < dst + n then some l else none
        | _ => none)).foldl wakeSpin s)

/-! ## The staging pool (18 R363) -/

/-- The SIZE code of a pool entry as the logarithm of a page size. -/
def poolSize (e : Nat) : Nat := match bits e 1 0 with | 0 => 16 | 1 => 21 | 2 => 30 | _ => 0

/-- The pool entries of a context: index, first doubleword, second doubleword. -/
def poolEntries (s : State) (ctx : Nat) : List (Nat × Nat × Nat) :=
  match ctxAt s ctx with
  | none => []
  | some c =>
    let pool := rec64 c.desc 0x028
    (List.range (rec32 c.desc 0x030)).map fun j =>
      (j, ofBytes (Memory.readN s.mem (pool + 16 * j) 8), ofBytes (Memory.readN s.mem (pool + 16 * j + 8) 8))

/-- The requests with which a command processor reads a context's pool (R228). -/
def touchPool (s : State) (ctx die : Nat) : State :=
  match ctxAt s ctx with
  | none => s
  | some c => (linesOf (rec64 c.desc 0x028) (16 * rec32 c.desc 0x030)).foldl (fun s l => homeTouch s ctx die l false) s

/-- A pool entry's doublewords written. -/
def writePool (s : State) (ctx j d0 d1 : Nat) : State :=
  match ctxAt s ctx with
  | none => s
  | some c =>
    let pool := rec64 c.desc 0x028
    let s := homeTouch s ctx (ctxDie s ctx) ((pool + 16 * j) / 128) true
    { s with mem := Memory.writeN s.mem (pool + 16 * j) (toBytes 8 d0 ++ toBytes 8 d1) }

/-- A leaf's FRAME and TIER alone. -/
def backingBits (leaf : Nat) : Nat := bits leaf 45 16 * 2 ^ 16 + bits leaf 51 50 * 2 ^ 50

/-- A leaf with FRAME and TIER replaced by those of another word. -/
def withBacking (leaf b : Nat) : Nat := leaf - backingBits leaf + backingBits b

/-- The used entries of a kernel's working set (16 R342): index, offset of the base in the argument block, intent,
length. -/
def worksetEntries (k : Kernel) : List (Nat × Nat × Nat × Nat) :=
  (List.range 16).filterMap fun j =>
    let e := 0x100 + 16 * j
    if rec64 k.record (e + 8) = 0 then none
    else some (j, rec32 k.record e, rec32 k.record (e + 4), rec64 k.record (e + 8))

/-- The hotness total of a frame on its die (R228). -/
def frameHeat (s : State) (key n : Nat) : Nat :=
  match dieAt s (key / 2 ^ 36 % 64) with
  | none => 0
  | some d => ((d.hot.filter fun h => key % 2 ^ 36 / 65536 ≤ h.block ∧ h.block * 65536 < key % 2 ^ 36 + n).map HotEntry.total).sum

/-- The ranges that a kernel's working set names (16 R343): as its staging read them, from staging until the kernel ends. -/
def workset (k : Kernel) : List (Nat × Nat) := if k.state = .described ∨ k.isEnded then [] else k.named

/-- The page that an empty pool evicts (R226): none whose frame is pinned (18 R374). -/
def evictionVictim (s : State) (ctx : Nat) : Option (Pg × Nat) :=
  let pool := (poolEntries s ctx).filter fun e => bits e.2.1 2 2 = 1
  let named := s.kernels.flatMap fun k => if k.2.ctx = ctx then workset k.2 else []
  let cand := (pagesOf s ctx).filterMap fun p =>
    if p.st = 3 ∧ p.tier = 0 ∧ !pinned s p.frame (2 ^ p.sz) ∧
        !named.any (fun r => r.1 < p.va + 2 ^ p.sz ∧ p.va < r.1 + r.2) then
      (pool.find? fun e => bits e.2.1 45 16 = bits p.leaf 45 16).map fun e => (p, e.1)
    else none
  (sortBy (fun (x y : Pg × Nat) =>
    let hx := frameHeat s x.1.frame (2 ^ x.1.sz)
    let hy := frameHeat s y.1.frame (2 ^ y.1.sz)
    decide (hx < hy ∨ (hx = hy ∧ x.1.va < y.1.va))) cand).head?

/-! ## The jobs of the command processor -/

/-- A job's page as its leaf stands now. -/
def jobPage (s : State) (j : Job) : Pg := walk s j.ctx j.va

/-- The state without a job. -/
def dropJob (s : State) (id : Nat) : State := { s with jobs := Table.del s.jobs id }

/-- A job's leaf rewritten and its translations invalidated. -/
def setLeaf (s : State) (j : Job) (leaf : Nat) : State := dropTlb (writeLeaf s j.ctx j.leafAddr leaf) j.ctx j.va j.size

/-- A page that cannot be staged (R226): STATE 0 or 7, and a page request. -/
def stageFails (s : State) (id : Nat) (j : Job) (leaf st : Nat) : State :=
  pageRequest (dropJob (setLeaf s j (withState leaf st)) id) j.ctx j.die j.va 0

/-- Where a page is staged to in a pool frame (R222, R226): the frame, and for a replicated page the same place on every
other die of the partition. -/
def stageTargets (s : State) (ctx : Nat) (p : Pg) (frame : Nat) : List Nat :=
  frame :: ((if p.repl then ctxRanks s ctx else []).filter fun d => d ≠ frame / 2 ^ 36).map fun d =>
    d * 2 ^ 36 + frame % 2 ^ 36

/-! ## What staging and eviction never write (00 R8) -/

/-- Whether two runs of bytes meet. -/
def meetRuns (a n b m : Nat) : Bool := decide (a < b + m ∧ b < a + n)

/-- Whether a page's frame, or one of its copies or chunks, meets a run of bytes. -/
def Pg.meets (s : State) (ctx : Nat) (p : Pg) (k n : Nat) : Bool :=
  let size := 2 ^ p.sz
  let rs := ctxRanks s ctx
  let on (span : Nat) : Bool := rs.any fun d => meetRuns (d * 2 ^ 36 + p.frame % 2 ^ 36) span k n
  if p.tier ≠ 0 then meetRuns (physKey p.tier p.frame) size k n
  else if p.ilv then on ((size / 4096 + rs.length - 1) / max 1 rs.length * 4096)
  else if p.repl ∧ (p.st = 4 ∨ p.st = 5 ∨ p.st = 7) then on size
  else meetRuns p.frame size k n

/-- The tables of a context's tree, each with its size (R211). -/
def treeTables (s : State) (ctx : Nat) : List (Nat × Nat) :=
  let root := match ctxAt s ctx with | some c => rec64 c.mapped 0x008 | none => 0
  let next (t n align : Nat) : List Nat := (entriesAt s t n).filterMap fun j =>
    let e := readEntry s t j
    if bits e 0 0 = 0 ∨ !tableEntryOk e align then none else some (bits e 45 8 * 256)
  let t2 := next root 8192 65536
  let t1 := t2.flatMap fun t => next t 8192 4096
  let t0 := t1.flatMap fun t => next t 512 256
  (root, 65536) :: (t2.map fun t => (t, 65536)) ++ (t1.map fun t => (t, 4096)) ++ t0.map fun t => (t, 256)

/-- Whether a run of bytes holds anything of another context: a page, a range, a table of its tree, its pool. -/
def foreign (s : State) (ctx k n : Nat) : Bool :=
  s.contexts.any fun c => decide (c.1 ≠ ctx) && c.2.state ≠ .destroyed &&
    ((pagesOf s c.1).any (fun p => p.meets s c.1 k n) ||
     (treeTables s c.1).any (fun t => meetRuns t.1 t.2 k n) ||
     meetRuns (rec64 c.2.desc 0x028) (16 * rec32 c.2.desc 0x030) k n ||
     (liveRanges s c.1).any fun r => rangeLive s c.1 r &&
       meetRuns (physKey (bits r.attr.toNat 51 50) (r.base.toNat + r.offset.toNat)) (r.limit.toNat - r.base.toNat) k n)

/-- Whether a run of bytes is one that a context may reach: in the stacks of its partition, or in one of its tier windows, and in
no save copy (10 R213; 18 R374). -/
def ownRun (s : State) (ctx k n : Nat) : Bool :=
  !pinned s k n &&
  (if keyTier k = 0 then stackHere s ctx k && stackHere s ctx (k + n - 1)
   else (ctxAt s ctx).any fun c => (windowOf c (k % 2 ^ 46)).isSome && windowOf c (k % 2 ^ 46) = windowOf c ((k + n - 1) % 2 ^ 46))

/-- Whether the command processor may write a run of bytes for a context: one that it may reach, and not where another context's
memory lies (00 R8). -/
def mayWriteRun (s : State) (ctx k n : Nat) : Bool := ownRun s ctx k n && !foreign s ctx k n

/-- The same of a backing copy: a run in a tier window is the context's to write, also where another context is granted it. -/
def mayWriteBack (s : State) (ctx k n : Nat) : Bool := if keyTier k = 0 then mayWriteRun s ctx k n else ownRun s ctx k n

/-- The free entry of a context's pool that a page takes: of its size, with a frame that may be written. -/
def freeFrame (s : State) (ctx : Nat) (p : Pg) : Option (Nat × Nat × Nat) :=
  (poolEntries s ctx).find? fun e => decide (bits e.2.1 2 2 = 0 ∧ poolSize e.2.1 = p.sz) &&
    (stageTargets s ctx p (bits e.2.1 45 16 * 2 ^ 16)).all fun k => mayWriteRun s ctx k (2 ^ p.sz)

/-- A frame's lines as not written since their page was staged. -/
def freshFrame (s : State) (key n : Nat) : State :=
  { s with written := s.written.filter fun l => !decide (key ≤ l * 128 ∧ l * 128 < key + n) }

/-- STAGING_DONE: the page is copied into a free frame of the pool, or an eviction begins where there is none. -/
def execStagingDone (job : Nat) (s : State) : Out :=
  .next (match Table.look s.jobs job with
    | none => s
    | some j =>
      if j.kind ≠ .stage then s
      else
        let leaf := ofBytes (Memory.readN s.mem j.leafAddr 8)
        let p := jobPage s j
        if p.leafAddr ≠ some j.leafAddr ∨ bits leaf 63 61 ≠ 2 then dropJob s job
        else if !leafSound s j.ctx leaf p.sz false then stageFails s job j leaf 0
        else if pinned s (physKey p.tier p.frame) j.size then s
        else
        let s := touchPool s j.ctx j.die
        match freeFrame s j.ctx p with
        | none =>
          if s.jobs.any fun e => e.2.kind = .evict ∧ e.2.ctx = j.ctx then s
          else match evictionVictim s j.ctx with
          | none => s
          | some (v, pool) => match v.leafAddr with
            | none => s
            | some la =>
              if !frameQuiet s v.frame (2 ^ v.sz) then s
              else
                let s := dropTlb (writeLeaf s j.ctx la (withState v.leaf 2)) j.ctx v.va (2 ^ v.sz)
                addJob s { kind := .evict, ctx := j.ctx, va := v.va, size := 2 ^ v.sz, leafAddr := la, pool := pool
                           frame := v.frame, wct := 0, die := v.master s j.ctx, bad := 0 }
        | some (pool, d0, _) =>
          let frame := bits d0 45 16 * 2 ^ 16
          let src := physKey p.tier p.frame
          let targets := stageTargets s j.ctx p frame
          let expiry := maxOf (targets.map fun k => latestExpiry s k j.size)
          if expiry ≠ 0 ∧ gtOf s j.die ≤ expiry + 4 then s
          else match copyFrame (copyTouch s j.ctx j.die src j.size) src frame j.size with
          | none => stageFails s job j leaf 7
          | some s =>
            let s := targets.foldl (fun s k => freshFrame (copyTouch s j.ctx j.die k j.size) k j.size) s
            let s := (targets.drop 1).foldl (fun s k => (copyFrame s frame k j.size).getD s) s
            let s := writePool s j.ctx pool (d0 + 4) (backingBits leaf)
            dropJob (setLeaf s j (withState (withBacking leaf frame) (if p.repl then 4 else 3))) job)

/-- Lines of a frame written back to the backing copy at `dst`; `none` where one is poisoned. -/
def writeBackLines (s : State) (ctx die src dst : Nat) (lines : List Nat) : Option State :=
  lines.foldl (fun (acc : Option State) l => acc.bind fun s =>
    let k := dst + (l * 128 - src)
    copyFrame (copyTouch (copyTouch s ctx die (l * 128) 128) ctx die k 128) (l * 128) k 128) (some s)

/-- EVICTION_DONE: the page's dirty lines are in its backing copy again, and the pool entry is free. Nothing is written where
software has put a backing copy into the entry that its context may not write (00 R8). -/
def execEvictionDone (job : Nat) (s : State) : Out :=
  .next (match Table.look s.jobs job with
    | none => s
    | some j =>
      if j.kind ≠ .evict then s
      else
        let leaf := ofBytes (Memory.readN s.mem j.leafAddr 8)
        match (poolEntries s j.ctx).find? fun e => e.1 = j.pool with
        | none => dropJob s job
        | some (_, d0, d1) =>
          let s := flushFrame s j.frame j.size
          let dirty := s.written.filter fun l => decide (j.frame ≤ l * 128 ∧ l * 128 < j.frame + j.size)
          let back := physKey (bits d1 51 50) (bits d1 45 16 * 2 ^ 16)
          let dirty := if mayWriteBack s j.ctx back j.size then dirty else []
          match writeBackLines s j.ctx j.die j.frame back dirty with
          | none => dropJob (setLeaf s j (withState leaf 7)) job
          | some s =>
            let s := writePool (freshFrame s j.frame j.size) j.ctx j.pool (d0 - bits d0 2 2 * 4) d1
            dropJob (setLeaf s j (withState (withBacking leaf d1) 1)) job)

/-- The keys of a replicated page's copies. -/
def copyKeys (s : State) (ctx frame : Nat) : List Nat := (ctxRanks s ctx).map fun d => d * 2 ^ 36 + frame % 2 ^ 36

/-- COLLAPSE_DONE (R222): once no fill of any copy is outstanding and GT has passed every lease that a copy granted, the
master's frame is the page's only one. -/
def execCollapseDone (job : Nat) (s : State) : Out :=
  .next (match Table.look s.jobs job with
    | none => s
    | some j =>
      if j.kind ≠ .collapse then s
      else
        let leaf := ofBytes (Memory.readN s.mem j.leafAddr 8)
        if bits leaf 63 61 ≠ 5 then dropJob s job
        else
          let ks := copyKeys s j.ctx j.frame
          let e := maxOf (ks.map fun k => latestExpiry s k j.size)
          if !ks.all (fun k => frameQuiet s k j.size) ∨ gtOf s j.die ≤ max j.wct (e + 4) then s
          else
            let leaf := leaf - bits leaf 52 52 * 2 ^ 52
            let leaf := if bits leaf 57 57 = 1 then leaf else leaf + 2 ^ 57
            dropJob (setLeaf s j (withState leaf 3)) job)

/-- Whether a die has posted a hotness notification for a frame (R227). -/
def notified (s : State) (key n die : Nat) : Bool :=
  match dieAt s (key / 2 ^ 36 % 64) with
  | none => false
  | some d => d.hot.any fun h => decide (key % 2 ^ 36 / 65536 ≤ h.block ∧ h.block * 65536 < key % 2 ^ 36 + n) &&
      h.posted.any fun p => p.1 = die

/-- MIGRATION_BEGIN (R227): a die-local resident page with MIG = 1 is copied to a frame of a die that has posted a notification
for it. The command processor begins where nothing is on its way to the page. R227 does not say which frame of the die it takes:
any aligned one that its context may be given (00 R8) and in which no page of the context lies, which the event names, is the
model's choice (log entry 12). -/
def execMigrationBegin (ctx va die frame : Nat) (s : State) : Out :=
  .next (
    let p := translateCp s ctx va
    match p.leafAddr with
    | none => s
    | some la =>
      let n := 2 ^ p.sz
      let ok := p.st = 3 ∧ p.tier = 0 ∧ !p.ilv ∧ bits p.leaf 15 15 = 1 ∧ notified s p.frame n die ∧
        (ctxRanks s ctx).contains die ∧ frame / 2 ^ 36 = die ∧ frame % n = 0 ∧ frame ≠ p.frame ∧
        !pinned s p.frame n ∧ mayWriteRun s ctx frame n ∧ !((pagesOf s ctx).any fun q => q.meets s ctx frame n) ∧ frameQuiet s p.frame n
      if !decide ok then s
      else
        let s := flushFrame s p.frame n
        let e := latestExpiry s frame n
        match copyFrame (copyTouch (copyTouch s ctx (p.master s ctx) p.frame n) ctx (p.master s ctx) frame n) p.frame frame n with
        | none => s
        | some s =>
          let w := max (gtOf s die) (e + 4)
          let s := dropTlb (writeLeaf s ctx la (withState p.leaf 6)) ctx p.va n
          addJob s { kind := .migrate, ctx := ctx, va := p.va, size := n, leafAddr := la, pool := 0, frame := frame
                     wct := w, die := p.master s ctx, bad := 0 })

/-- MIGRATION_DONE: GT has passed the copy's latest WCT, and the leaf names the new frame. -/
def execMigrationDone (job : Nat) (s : State) : Out :=
  .next (match Table.look s.jobs job with
    | none => s
    | some j =>
      if j.kind ≠ .migrate then s
      else
        let leaf := ofBytes (Memory.readN s.mem j.leafAddr 8)
        if bits leaf 63 61 ≠ 6 then dropJob s job
        else if gtOf s j.die ≤ j.wct then s
        else
          let leaf := leaf - bits leaf 45 16 * 2 ^ 16 + j.frame
          dropJob (setLeaf s j (withState leaf 3)) job)

/-! ## Poison -/

/-- The group concerned in an error of a line (07 R150; 26 R441): the first with an access to it on its way, or none. -/
def groupOfLine (s : State) (line : Nat) : Word :=
  let gid := ((s.ops.find? fun e => e.2.missing.contains line).map fun e => e.2.gid).or
    ((s.writes.find? fun e => e.2.addr / 128 = line ∧ e.2.wct.isNone).map fun e => e.2.gid)
  BitVec.ofNat 32 (((gid.bind (groupAt s)).map groupIdent).getD 0)

/-- An error log entry about a line (26 R441): its pseudo-channel is the line's (log entry 13). -/
def logLine (s : State) (cls line : Nat) : State :=
  let die := lineDie s line
  logError s die cls 1 (channelOf (line * 128)) (line * 128 % 2 ^ 46) (groupOfLine s line) (BitVec.ofNat 32 ((partOfDie s die).getD 0xFFFFFFFF))

/-- A line poisoned (R225): logged, and every page in STATE 3, 4 or 6 that holds it goes to STATE 7; a migration of one
is abandoned. -/
def poisonLine (s : State) (line : Nat) : State :=
  let s := logLine { s with poison := if s.poison.contains line then s.poison else line :: s.poison } 3 line
  ((allPages s).filter fun x => (x.2.st = 3 || x.2.st = 4 || x.2.st = 6) && x.2.covers s x.1 line).foldl (fun s x =>
    match x.2.leafAddr with
    | none => s
    | some la =>
      let s := dropTlb (writeLeaf s x.1 la (withState x.2.leaf 7)) x.1 x.2.va (2 ^ x.2.sz)
      { s with jobs := Table.sel s.jobs fun _ j => !(j.kind = .migrate && j.leafAddr = la) }) s

/-- UNCORRECTABLE_ERROR: a replicated page's line is refilled from a copy that is sound; any other line is poisoned. -/
def execUncorrectableError (line : Nat) (s : State) : Out :=
  .next (
    let off := line * 128 % 2 ^ 36
    let sources := (allPages s).flatMap fun x =>
      if x.2.repl ∧ (x.2.st = 4 ∨ x.2.st = 7) ∧ x.2.covers s x.1 line then
        (ctxRanks s x.1).filter fun d => d ≠ line * 128 / 2 ^ 36 && !badLine s ((d * 2 ^ 36 + off) / 128)
      else []
    match sources with
    | d :: _ =>
      logLine { s with mem := Memory.writeN s.mem (line * 128) (Memory.readN s.mem (d * 2 ^ 36 + off) 128) } 1 line
    | [] => poisonLine s line)

end Sys2Proof.Machine
end

