-- ==== Sys2Proof/Machine/PartLog.lean ====
section
/-! DEFINITION. Error log entries about parts, and the save copies of contexts (18 R373 to R375, R378; 26 R441). -/

namespace Sys2Proof.Machine

/-! ## Logging (18 R378; 26 R441) -/

/-- The partition number of a die in a log entry. -/
def partWord (s : State) (die : Nat) : Word := BitVec.ofNat 32 ((partOfDie s die).getD 0xFFFFFFFF)

/-- The end of a boundary that logs and times it: its west or north end if that die is active, else the other. -/
def boundaryDie (s : State) (b : Nat) : Nat :=
  let e := boundaryEnds b
  if dieActive s e.1 then e.1 else e.2

/-- The die of a part and its KIND, INDEX and ADDR in a log entry; `none` for a core, which is no part of R378. -/
def partEntry (s : State) (p : Part) : Option (Nat × Nat × Nat × Nat) :=
  match p with
  | .die d => some (d, 0, d, 0)
  | .pseudoChannel d c => some (d, 1, c, 0)
  | .boundary b => some (boundaryDie s b, 2, b, 0)
  | .hostLink k => some (linkDie k, 3, k, 0)
  | .ethPort e => some (ethDie e, 4, e, 0)
  | .saveCopy ctx isB =>
    let a := ((ctxAt s ctx).map fun c => rec64 c.desc (if isB then 0x018 else 0x010)).getD 0
    some (a / 2 ^ 36, 5, a / 2 ^ 36, a)
  | .core _ _ => none

/-- A die that logs for another: the die itself if it works, else the first of its partition that does, else the root. -/
def loggingDie (s : State) (die : Nat) : Nat :=
  if dieActive s die then die
  else match partOfDie s die with
    | some p => (((partAt s p).map (ranks s)).getD []).headD s.root
    | none => s.root

/-- An entry about a part, with the group concerned. -/
def logPartFor (s : State) (group : Word) (p : Part) (cls : Nat) : State :=
  match partEntry s p with
  | some (die, kind, index, addr) => logError s (loggingDie s die) cls kind index addr group (partWord s die)
  | none => s

/-- An entry about a part that concerns no group. -/
def logPart (s : State) (p : Part) (cls : Nat) : State := logPartFor s 0 p cls

/-! ## Save copies (18 R373 to R375) -/

/-- The address of a context's save copy A or B. -/
def copyAt (c : Context) (isB : Bool) : Nat := rec64 c.desc (if isB then 0x018 else 0x010)

/-- The lines of a record in copy A or B: records lie above the context part of 512 KiB, in units of 4 KiB (R373). -/
def recordLines (c : Context) (isB : Bool) (r : SaveRec) : List Nat :=
  linesOf (copyAt c isB + 2 ^ 19 + 4096 * r.off) (4096 * r.units)

/-- The bytes of a record's place in copy A or B, by offset. -/
def copyText (s : State) (c : Context) (isB : Bool) (r : SaveRec) : List Host.Cell :=
  let a := copyAt c isB + 2 ^ 19 + 4096 * r.off
  (s.mem.filter fun x => decide (a ≤ x.1 ∧ x.1 < a + 4096 * r.units)).map fun x => (x.1 - a, x.2)

/-- The CRC-32C over a record's bytes (R375). -/
def recordCrc (r : SaveRec) (text : List Host.Cell) : Nat :=
  crc32c ((List.range (4096 * r.units)).map (Memory.read text))

/-- Whether the bytes of a record in copy A or B no longer agree with the CRC-32C written with it (R375). -/
def crcBad (s : State) (c : Context) (isB : Bool) (r : SaveRec) : Bool :=
  let was := if isB then r.textB else r.textA
  let text := copyText s c isB r
  decide (text ≠ was) && decide (recordCrc r text ≠ recordCrc r was)

/-- Whether a record cannot be read from copy A or B (R375): the copy has failed, its record has, one of its lines is
poisoned, its CRC does not agree, or it was encrypted under another key than the partition's slot 0 (R374). -/
def recordBad (s : State) (c : Context) (isB : Bool) (r : SaveRec) : Bool :=
  (if isB then c.saveBBad || r.badB else c.saveABad || r.badA) ||
  ((recordLines c isB r).any (badLine s)) || crcBad s c isB r ||
  (partAt s c.part).any fun p => (Table.look p.keys 0).any (· ≠ r.slot)

/-- A save copy marked failed, with its entry in the provider's log and the group whose record shows it (R375). -/
def failCopy (s : State) (ctx : Nat) (isB : Bool) (group : Word) : State :=
  match ctxAt s ctx with
  | none => s
  | some c =>
    if (if isB then c.saveBBad else c.saveABad) then s
    else updCtx (logPartFor s group (.saveCopy ctx isB) 6) ctx fun c =>
      { c with saveABad := c.saveABad || !isB, saveBBad := c.saveBBad || isB }

/-- The save copies that meet a test marked failed. -/
def failCopiesIf (s : State) (p : Context → Bool → Bool) : State :=
  s.contexts.foldl (fun s c => [false, true].foldl (fun s isB => if p c.2 isB then failCopy s c.1 isB 0 else s) s) s

/-- The first place with room for `units` units between some records, sorted by place, in an area of `size` units. -/
def freeUnits (size units : Nat) : List (Nat × Nat) → Nat → Option Nat
  | [], a => if a + units ≤ size then some a else none
  | r :: rs, a => if a + units ≤ min size r.1 then some a else freeUnits size units rs (max a (r.1 + r.2))

/-- Whether what a record's place is reserved for is still in being. -/
def recordStands (s : State) (r : SaveRec) : Bool :=
  match r.kind with
  | .group => (groupAt s r.key).isSome
  | .block => (blockAt s r.key).isSome
  | .kernel => (kernelAt s r.key).any fun k => !k.isEnded

/-- The units of a save copy that a context's records have (R373). -/
def saveUnits (s : State) (ctx : Nat) : Nat :=
  match ctxAt s ctx with | some c => (rec64 c.desc 0x020 - 524288) / 4096 | none => 0

/-- The place of one record reserved in a context's save area, if there is one (R373); what is no longer in being gives its
place back. -/
def reserveRecord (s : State) (ctx : Nat) (kind : RecKind) (key units : Nat) : Option State :=
  let kept := s.saves.filter (recordStands s)
  let taken := sortBy (fun (x y : Nat × Nat) => decide (x.1 < y.1))
    ((kept.filter fun r => r.ctx = ctx).map fun r => (r.off, r.units))
  (freeUnits (saveUnits s ctx) units taken 0).map fun off =>
    { s with saves := { kind := kind, key := key, ctx := ctx, off := off, units := units, filled := false, slot := 0
                        badA := false, badB := false, textA := [], textB := [] } :: kept }

/-- The places of some records reserved, or none of them. -/
def reserveRecords (s : State) (ctx : Nat) (rs : List (RecKind × Nat × Nat)) : Option State :=
  rs.foldl (fun o r => o.bind fun s => reserveRecord s ctx r.1 r.2.1 r.2.2) (some s)

/-- A record as a context's two copies, their keys and their marks stand. -/
def SaveRec.filledIn (r : SaveRec) (s : State) (c : Context) : SaveRec :=
  { r with filled := true, badA := c.saveABad, badB := c.saveBBad
           slot := ((partAt s c.part).bind fun p => Table.look p.keys 0).getD 0
           textA := copyText s c false r, textB := copyText s c true r }

/-- A record written to a context's two copies; the lines of a copy that works are written whole, and the context part with
them (R371, R373, R375). -/
def writeRecord (s : State) (ctx : Nat) (kind : RecKind) (key : Nat) (regs : Table Word) : State :=
  match ctxAt s ctx with
  | none => s
  | some c =>
    let hit (r : SaveRec) : Bool := r.kind = kind && r.key = key
    let lines := (s.saves.filter hit).flatMap fun r =>
      (if c.saveABad then [] else recordLines c false r) ++ if c.saveBBad then [] else recordLines c true r
    let s := clearPoison s lines
    let s := { s with saves := s.saves.map fun r => if hit r then r.filledIn s c else r }
    let dir := (s.saves.filter fun r => r.ctx = ctx && r.filled && r.kind = .group).map (·.key)
    updCtx s ctx fun c => { c with saved := some { regs := regs, nets := c.nets, dir := dir } }

end Sys2Proof.Machine
end

