-- ==== Sys2Proof/Machine/Kernel.lean ====
section
/-! DEFINITION. Launch records, gangs and their seats, saving and retiring (07 R152, R173; 16 R336 to R342; 17 R358;
18 R371 to R376). -/

namespace Sys2Proof.Machine

/-! ## Packets of a kernel -/

/-- A queue's journal entry of a sequence number. -/
def packetAt (s : State) (ctx q sn : Nat) : Option Packet :=
  ((ctxAt s ctx).bind fun c => Table.look c.queues q).bind fun u => u.journal.find? fun p => p.seq = sn

/-- The state with a queue changed. -/
def updQueue (s : State) (ctx q : Nat) (f : Queue → Queue) : State :=
  updCtx s ctx fun c => { c with queues := Table.upd c.queues q f }

/-- The state with a journal entry changed. -/
def updPacket (s : State) (ctx q sn : Nat) (f : Packet → Packet) : State :=
  updQueue s ctx q fun u => { u with journal := u.journal.map fun p => if p.seq = sn then f p else p }

/-- Bytes with some replaced from an offset. -/
def putBytes (bs : List Byte) (off : Nat) (xs : List Byte) : List Byte :=
  bs.take off ++ xs ++ bs.drop (off + xs.length)

/-- The record in memory merged with its LAUNCH packet (R336, R337; 17 R353). -/
def mergeRecord (rec_ pkt : List Byte) : List Byte :=
  let w := rec32 pkt 0x30
  let shape := rec32 rec_ 4
  let kept := shape - bits shape 19 18 * 2 ^ 18 - bits shape 15 15 * 2 ^ 15
  let shape := kept + bits w 28 27 * 2 ^ 18 + bits w 26 26 * 2 ^ 15
  let r := putBytes rec_ 0x004 (toBytes 4 (bits shape 31 20 * 2 ^ 20 + bits w 28 28 * 2 ^ 19 + bits w 27 27 * 2 ^ 18 +
    bits shape 17 0))
  let r := putBytes r 0x014 (toBytes 4 (bits w 25 16) ++ toBytes 4 (bits w 15 0) ++ toBytes 4 (rec32 pkt 0x34) ++
    toBytes 4 (rec32 pkt 0x38))
  putBytes r 0x060 (toBytes 8 (rec64 pkt 0x28))

/-! ## Shape (R337, R339) -/

/-- The bytes of one block's scratchpad and queue storage (02 R50, 07 R170). -/
def Kernel.storage (k : Kernel) : Nat :=
  k.scratch + 4 * k.width * ((List.range 8).map k.qdepth).sum

/-- The three kinds of gang (R340): 2 the grid, 1 a cluster, 0 a block. -/
def Kernel.gang (k : Kernel) : Nat :=
  if bits k.bars 15 12 ≠ 0 then 2 else if bits k.bars 11 4 ≠ 0 then 1 else 0

/-- The gang that a block belongs to. -/
def Kernel.gangOf (k : Kernel) (s3 s2 : Nat) : Nat × Nat :=
  match k.gang with | 2 => (0, 0) | 1 => (s3, 0) | _ => (s3, s2)

/-- The given lanes of a group of a grid (R339). -/
def Kernel.givenLanes (k : Kernel) (s3 s2 s1 : Nat) : Mask :=
  let g := (s3 * k.bpc + s2) * k.gpb + s1
  if k.lanes = 0 then Mask.low k.width
  else Mask.low (min k.width (k.lanes - g * k.width))

/-- The helper lanes that complete the quads of given lanes (07 R168). -/
def Kernel.helperLanes (k : Kernel) (given : Mask) : Mask :=
  if k.help then Mask.quads given &&& ~~~given else 0

/-- Every group of a grid that has a given lane, in ascending cluster, block and group. -/
def Kernel.gridGroups (k : Kernel) : List (Nat × Nat × Nat) :=
  (List.range k.cpg).flatMap fun s3 => (List.range k.bpc).flatMap fun s2 =>
    (List.range k.gpb).filterMap fun s1 => if k.givenLanes s3 s2 s1 = 0 then none else some (s3, s2, s1)

/-- The die that receives a block (R339, R341). -/
def blockDie (s : State) (k : Kernel) (s3 : Nat) : Nat :=
  let rs := ctxRanks s k.ctx
  if k.tileMode then rs.getD (s3 / 256) 0 else rs.getD (s3 % max 1 rs.length) 0

/-! ## The resources of a room (02 R32, R36, R42) -/

/-- The groups that hold a room's resources. -/
def roomGroups (s : State) (die core room : Nat) : List (Nat × Group) :=
  s.groups.filter fun e => e.2.die = die && e.2.core = core && e.2.room = room &&
    (e.2.state = .resident || e.2.state = .begun)

/-- The tiles that a room's groups hold, a shared set counted once for its block (12 R265). -/
def roomTiles (s : State) (gs : List (Nat × Group)) : Nat :=
  let isShared (g : Group) : Bool := (kernelAt s g.kernel).any (·.accShare)
  let own := (gs.filter fun e => !isShared e.2).map fun e => e.2.tiles
  let sets := dedup ((gs.filter fun e => isShared e.2).map fun e => (e.2.block, e.2.tiles))
  own.sum + (sets.map (·.2)).sum

/-- The lowest free group slot of a room; one that waits for a drain token is not given out (07 R173). -/
def freeSlot (s : State) (die core room : Nat) : Option Nat :=
  let used := (roomGroups s die core room).map fun e => e.2.slot
  let held := (((dieAt s die).map (·.draining)).getD []).map (·.1)
  (List.range 32).find? fun j => !used.contains j && !held.contains ((4 * core + room) * 32 + j)

/-- The quad-rows of a group (02 R36). -/
def Group.rows (g : Group) : Nat := g.window * (g.width / 4)

/-- The lowest window base at which a room has some contiguous quad-rows free (02 R32, R36; log entry 50). -/
def freeBase (gs : List (Nat × Group)) (rows : Nat) : Option Nat :=
  let fits (a : Nat) : Bool := decide (a + rows ≤ 16384) &&
    gs.all fun e => decide (e.2.base + e.2.rows ≤ a ∨ a + rows ≤ e.2.base)
  minOf ((0 :: gs.map fun e => e.2.base + e.2.rows).filter fits)

/-- Whether a room has what one more group of a kernel's block needs (02 R32). -/
def roomFits (s : State) (k : Kernel) (block die core room : Nat) : Bool :=
  let gs := roomGroups s die core room
  let tiles := if k.accShare ∧ gs.any (fun e => e.2.block = block) then 0 else k.acc
  (freeSlot s die core room).isSome &&
  decide ((gs.map fun e => e.2.width / 4).sum + k.width / 4 ≤ 256) &&
  (freeBase gs (k.window * (k.width / 4))).isSome &&
  decide (roomTiles s gs + tiles ≤ 16)

/-- The scratchpad and queue bytes that the blocks on a core hold (02 R50). -/
def coreStorage (s : State) (die core : Nat) : Nat :=
  ((s.blocks.filter fun b => b.2.placed && b.2.die = die && b.2.core = core).map fun b =>
    ((kernelAt s b.2.kernel).map Kernel.storage).getD 0).sum

/-- The groups of a group's block that are seated on a core. -/
def seatedKin (s : State) (g : Group) (die core : Nat) : List (Nat × Group) :=
  s.groups.filter fun e => e.2.block = g.block && e.2.die = die && e.2.core = core &&
    (e.2.state = .resident || e.2.state = .begun)

/-- The number, within its block, of the set of shared tiles that a group names in a room (12 R265): that of its block's groups
in the room; for the first of them its own saved set, or one that no other group of the block names (log entry 68). -/
def setFor (s : State) (g : Group) (die core room : Nat) : Nat :=
  match (seatedKin s g die core).find? fun e => e.2.room = room with
  | some e => e.2.accSet
  | none =>
    if g.state ≠ .pending then g.accSet
    else
      let used := (s.groups.filter fun e => e.2.block = g.block && e.2.state ≠ .pending).map fun e => e.2.accSet
      ((room :: List.range 4).find? fun n => !used.contains n).getD room

/-- A group given a seat in a room: its slot with the slot's generation, a new identifier, its window base (02 R36; 07
R150, R173). -/
def takeSeat (s : State) (gid die core room : Nat) : State :=
  let slot := (freeSlot s die core room).getD 0
  let gs := roomGroups s die core room
  let gen := Table.rd (((dieAt s die).map (·.gens)).getD []) 0 ((4 * core + room) * 32 + slot)
  let acc := ((groupAt s gid).map fun g => setFor s g die core room).getD 0
  let (n, s) := freshId s
  updGroup s gid fun g =>
    { g with state := .resident, die := die, core := core, room := room, slot := slot, gen := gen
             base := (freeBase gs g.rows).getD 0, accSet := acc
             placedSeq := n, preempt := false }

/-- A group's seat given up: the slot's generation advances, and where it wraps a drain token is launched and the slot is
held back for it (07 R173). -/
def leaveSeat (s : State) (g : Group) : State :=
  let key := (4 * g.core + g.room) * 32 + g.slot
  let token := s.nextId
  updDie s g.die fun d =>
    { d with gens := Table.wr d.gens 0 key ((g.gen + 1) % 16)
             draining := if g.gen = 15 then (key, token) :: d.draining else d.draining }

/-- Whether a packet that entered the mesh before a drain token is still on its way (07 R173): a write, a load, a fill, a
partial, a splat record or a collective delivery under an earlier key. -/
def aheadOf (s : State) (token : Nat) : Bool :=
  let early (ks : List Nat) : Bool := ks.any fun n => decide (n < token)
  early (s.writes.map (·.1)) || early (s.ops.map (·.1)) || early (s.fills.map (·.1)) ||
  early ((s.partials.filter fun e => e.2.sent).map (·.1)) || early (s.recs.map (·.1)) || early (s.deliveries.map (·.1))

/-- DRAIN_TOKEN_RETURN (07 R173): the token has followed every earlier packet, and the slot may be given out again. -/
def execDrainTokenReturn (die room slot : Nat) (s : State) : Out :=
  .next (match dieAt s die with
    | none => s
    | some d => match d.draining.find? fun x => x.1 = room * 32 + slot with
      | none => s
      | some x => if aheadOf s x.2 then s else updDie s die fun d => { d with draining := d.draining.filter (· ≠ x) })

/-- The rooms that a group may take on a core (17 R358; 07 R152; 12 R265, R278): from room S1 mod 4 upwards; a quartet's
member in the room of its number; a group restored with shared tiles where the others of its set are, or where no other
set of its block is. -/
def roomsFor (s : State) (k : Kernel) (die core : Nat) (g : Group) : List Nat :=
  let rooms := if k.quart then [g.s1 % 4] else (List.range 4).map fun j => (g.s1 + j) % 4
  if !k.accShare ∨ g.state ≠ .saved then rooms
  else
    let here := seatedKin s g die core
    match here.find? fun e => e.2.accSet = g.accSet with
    | some e => rooms.filter (· = e.2.room)
    | none => rooms.filter fun r => !here.any fun e => e.2.room = r

/-- A group seated on a core in the first of its rooms that fits it. -/
def seatGroup (s : State) (k : Kernel) (block die core gid : Nat) : Option State :=
  match groupAt s gid with
  | none => none
  | some g => ((roomsFor s k die core g).find? (roomFits s k block die core)).map fun r => takeSeat s gid die core r

/-- The order in which a block's groups take their seats: by number, those with a set of shared tiles to come back to before those
without (log entry 68). -/
def seatBefore (k : Kernel) (x y : Nat × Group) : Bool :=
  let late (g : Group) : Nat := if k.accShare ∧ g.state = .pending then 1 else 0
  decide (late x.2 < late y.2 ∨ (late x.2 = late y.2 ∧ x.2.s1 < y.2.s1))

/-- A block seated on a core with its groups, if all of them fit; the core has the context's range entries in its range TLB
(10 R215). -/
def seatBlock (s : State) (k : Kernel) (block die core : Nat) : Option State :=
  if 2 ^ 20 < coreStorage s die core + k.storage then none
  else
    let s := updBlock s block fun b => { b with placed := true, die := die, core := core }
    let gids := (sortBy (seatBefore k) (s.groups.filter fun e => e.2.block = block)).map (·.1)
    (gids.foldl (fun o gid => o.bind fun s => seatGroup s k block die core gid) (some s)).map fun s =>
      withRanges s (coreKey die core) k.ctx

/-- Blocks seated, each on the lowest-numbered core of its die where it fits, or none of them. -/
def seatBlocks (s : State) (k : Kernel) (blocks : List (Nat × Nat)) : Option State :=
  blocks.foldl (fun o b => o.bind fun s => (List.range 96).findSome? fun core => seatBlock s k b.1 b.2 core) (some s)

/-! ## Save-area reservations (18 R373) -/

/-- The 4 KiB units of a number of bytes. -/
def units (n : Nat) : Nat := (n + 4095) / 4096

/-- The units of a group's maximal record. -/
def Kernel.groupUnits (k : Kernel) : Nat :=
  let t := if k.accShare then 0 else k.acc
  units (1024 + 4 * k.width * k.window + 64 * k.width + 8192 * t + 7168 * k.width)

/-- The units of a block's maximal record. -/
def Kernel.blockUnits (k : Kernel) : Nat :=
  units (4096 + k.storage + if k.accShare then 32768 * k.acc else 0)

/-- The records that a new gang's placing reserves (R373): its kernel's on the first, its blocks', its groups'. -/
def gangRecords (s : State) (kid : Nat) (k : Kernel) (blocks : List Nat) : List (RecKind × Nat × Nat) :=
  (if s.saves.any fun r => r.kind = .kernel && r.key = kid then [] else [(.kernel, kid, 1)]) ++
  (blocks.map fun b => (.block, b, k.blockUnits)) ++
  (s.groups.filter fun e => blocks.contains e.2.block).map fun e => (.group, e.1, k.groupUnits)

/-- New blocks seated with their save records reserved (R340; 18 R373). -/
def seatNew (s : State) (kid : Nat) (k : Kernel) (blocks : List (Nat × Nat)) : Option State :=
  (reserveRecords s k.ctx (gangRecords s kid k (blocks.map (·.1)))).bind fun s => seatBlocks s k blocks

/-! ## New gangs -/

/-- The uniform registers of a new group (02 R46). -/
def startS (k : Kernel) (s1 s2 s3 die core room : Nat) : Table Word :=
  [k.width, s1, s2, s3, k.arg.toNat % 2 ^ 32, k.arg.toNat / 2 ^ 32, die, 4 * core + room].mapIdx
    (fun j x => (j, BitVec.ofNat 32 x)) |>.filter fun e => e.2 ≠ 0

/-- A fibre at a kernel's entry (02 R46, R47). -/
def startFibre (k : Kernel) (p0 : Mask) : Fibre :=
  { pc := BitVec.ofNat 64 (rec64 k.record 0x008), p0 := p0, state := .ready, clause := none, chain := none
    branch := none, last := [], stack := [], wct := [], buffer := [], regionStart := 0, regionClause := none
    fresh := true, handler := none, trapClause := none, traps := [], owed := [], yieldMark := none
    readySince := none, due := false, doomed := false }

/-- A group not yet placed (02 R46, R47). -/
def newGroup (k : Kernel) (kid block s3 s2 s1 : Nat) (given : Mask) : Group :=
  let helpers := k.helperLanes given
  { kernel := kid, block := block, width := k.width, window := k.window, tiles := k.acc, s1 := s1, s2 := s2, s3 := s3
    given := given, helpers := helpers, state := .pending, clearing := true, die := 0, core := 0, room := 0, slot := 0
    gen := 0, base := 0, accSet := 0, owed := [], v := [], o := [], s := [], p := [], acc := [], flags := [], fibres := [(0, startFibre k (given ||| helpers))]
    nextFibre := 1, tcause := 0, tepc := 0, taddr := 0, tmask := 0, gtime := 0, pcsel := [], pcnt := [], dbgctl := 0
    brk := 0, segPos := 0, logStopped := false, logQueue := [], tokens := [], board := [], landed := [], tileOps := [], mloopSeq := 0
    links := [], sumOps := [], wctMax := 0, ahead := [], beganAt := 0, savedAt := 0, starved := false, lastIssue := 0
    watchdogTrap := false, placedSeq := 0, starvRestored := 0, lentBy := [], preempt := false }

/-- A block not yet placed, with its groups: (S1, given lanes). Its key. -/
def bornBlock (s : State) (kid : Nat) (k : Kernel) (s3 s2 : Nat) (gs : List (Nat × Mask)) : Nat × State :=
  let (n, s) := freshId s
  let b : Block :=
    { kernel := kid, s2 := s2, s3 := s3, die := 0, core := 0, placed := false, size := k.scratch, scratch := []
      queues := [], shared := [], retired := 0 }
  let s := { s with blocks := Table.ins s.blocks n b }
  (n, gs.foldl (fun s g =>
    let (gid, s) := freshId s
    setGroup s gid (newGroup k kid n s3 s2 g.1 g.2)) s)

/-- A new gang's blocks, each with its die. -/
def bornBlocks (s : State) (kid : Nat) (k : Kernel) (gang : List (Nat × Nat × Nat)) : List (Nat × Nat) × State :=
  (dedup (gang.map fun g => (g.1, g.2.1))).foldl (fun (acc : List (Nat × Nat) × State) b =>
    let gs := (gang.filter fun g => g.1 = b.1 ∧ g.2.1 = b.2).map fun g => (g.2.2, k.givenLanes g.1 g.2.1 g.2.2)
    let (n, s) := bornBlock acc.2 kid k b.1 b.2 gs
    (acc.1 ++ [(n, blockDie s k b.1)], s)) ([], s)

/-- A placed new group's last touches: its uniform registers, and its stamp (02 R46, 07 R163). -/
def startGroup (s : State) (k : Kernel) (g : Group) : Group :=
  { g with
    s := startS k g.s1 g.s2 g.s3 g.die g.core g.room
    fibres := g.fibres.map fun f => (f.1, { f.2 with readySince := some (gtOf s g.die) }) }

/-- The groups of some blocks newly placed. -/
def startGroups (s : State) (k : Kernel) (blocks : List Nat) : State :=
  { s with groups := s.groups.map fun e => if blocks.contains e.2.block then (e.1, startGroup s k e.2) else e }

/-- A new gang placed, if its seats and its save reservation can be had (R340; 18 R373). -/
def placeNew (s : State) (kid : Nat) (k : Kernel) (gang : List (Nat × Nat × Nat)) : Option State :=
  let (bs, s) := bornBlocks s kid k gang
  (seatNew s kid k bs).map fun s => startGroups s k (bs.map (·.1))

/-- Whether a gang of a kernel fits the panel with nothing else resident, and an empty save area (R338, R340;
18 R373). The size of a tile-mode gang is known only once its tiles are ready; one block stands for it. Block storage beyond a
core's is a fault of its own field, and left out here. -/
def gangCanFit (s : State) (kid : Nat) (k : Kernel) : Bool :=
  let k := if k.storage ≤ 2 ^ 20 then k
    else { k with record := putBytes (putBytes k.record 0x010 (toBytes 4 0)) 0x028 (List.replicate 16 0) }
  let alone := { k with placedAny := false }
  let empty : State :=
    { s with groups := [], blocks := [], saves := [], kernels := [(kid, alone)], dies := s.dies.map fun d => { d with draining := [] } }
  if k.tileMode then (placeNew empty kid alone ((List.range k.gpb).map fun j => (0, 0, j))).isSome
  else
    let all := k.gridGroups
    match all.head? with
    | none => true
    | some g =>
      let gang := all.filter fun x => k.gangOf x.1 x.2.1 = k.gangOf g.1 g.2.1
      decide (gang.length ≤ 36 * 96 * 128) && (placeNew empty kid alone gang).isSome

/-! ## The checks of a record (R338) -/

/-- The offsets of a merged record's failing fields. -/
def recordFaults (k : Kernel) : List Nat :=
  let r := k.record
  let no (off : Nat) (bad : Bool) : List Nat := if bad then [off] else []
  let shape := k.shape
  let tile := k.tileMode
  no 0x000 (decide (rec32 r 0 ≠ 1)) ++
  no 0x004 (decide (bits shape 31 20 ≠ 0 ∨ 5 < bits shape 4 2 ∨ 16 < k.acc)) ++
  no 0x004 (k.quart && decide (k.width ≠ 64 ∨ k.gpb % 4 ≠ 0)) ++
  no 0x004 (tile && decide (k.width = 8 ∨ k.gpb * k.width ≠ 256)) ++
  no 0x008 (decide (rec64 r 0x008 % 4 ≠ 0)) ++
  no 0x010 (decide (256 < rec32 r 0x010)) ++ no 0x010 (tile && decide (rec32 r 0x010 = 0)) ++
  no 0x010 (decide (2 ^ 20 < k.storage)) ++
  no 0x014 (tile && decide (rec32 r 0x014 ≠ 0)) ++ no 0x018 (tile && decide (rec32 r 0x018 ≠ 0)) ++
  no 0x01C (tile && decide (rec32 r 0x01C ≠ 0)) ++
  no 0x020 (decide (k.wdog = 0)) ++ no 0x024 (decide (rec32 r 0x024 ≠ 0)) ++
  ((List.range 8).flatMap fun q => no (0x028 + 2 * q) (decide (256 < k.qdepth q))) ++
  no 0x038 (decide (bits k.bars 31 16 ≠ 0)) ++ no 0x03C (decide (rec32 r 0x03C ≠ 0)) ++
  ((List.range 16).flatMap fun n => no (0x040 + 2 * n) (decide (2 ^ k.gpb ≤ k.bmask n))) ++
  no 0x060 (if tile then decide (k.frame % 64 ≠ 0) else decide (k.frame ≠ 0)) ++
  no 0x068 ((List.range 152).any fun j => decide (numAt r (0x068 + j) 1 ≠ 0)) ++
  ((worksetEntries k).flatMap fun e =>
    let o := 0x100 + 16 * e.1
    no o (decide (e.2.1 % 8 ≠ 0)) ++ no (o + 4) (decide (e.2.2.1 = 0 ∨ 3 < e.2.2.1)) ++
    no (o + 8) (decide (2 ^ 40 < e.2.2.2)))

/-- The offset that a rejected record reports: the first failing field; a gang that cannot fit is reported at SHAPE, before
any field after it. A SHAPE or a version out of range is no shape to fit. -/
def recordFault (s : State) (kid : Nat) (k : Kernel) : Option Nat :=
  let bad := recordFaults k
  if bad.any (fun o => o ≤ 4) then minOf bad
  else if gangCanFit s kid k then minOf bad else some 4

/-! ## Retiring, saving, discarding -/

/-- Whether a kernel has a group in being. -/
def hasGroups (s : State) (kid : Nat) : Bool := s.groups.any fun e => e.2.kernel = kid

/-- Whether a kernel has a group still to place. -/
def toPlace (k : Kernel) : Bool :=
  if k.tileMode then k.expired.isNone && !k.tilesOver else k.pendingGroups ≠ []

/-- What follows for a kernel when its set of groups changes (R344, R348): with none left it drains, or ends by its
watchdog. -/
def settleKernel (s : State) (kid : Nat) : State :=
  match kernelAt s kid with
  | none => s
  | some k =>
    if hasGroups s kid ∨ toPlace k then s
    else if k.state = .staged ∨ k.state = .launched ∨ k.state = .running then
      updKernel s kid fun k =>
        if k.expired.isSome then { k with state := .interrupted, code := 1 } else { k with state := .draining }
    else s

/-- The groups of a context that are resident or saved. -/
def ctxGroups (s : State) (ctx : Nat) : List (Nat × Group) :=
  s.groups.filter fun e => e.2.state ≠ .pending && (kernelAt s e.2.kernel).any fun k => k.ctx = ctx

/-- What follows for a context when its set of groups changes (18 R366). -/
def settleCtx (s : State) (ctx : Nat) : State :=
  match ctxAt s ctx with
  | none => s
  | some c =>
    let mine := ctxGroups s ctx
    if c.state = .running ∧ mine = [] then updCtx s ctx fun c => { c with state := .ready }
    else if c.state = .preempting ∧ mine.all (fun e => e.2.state = .saved || e.2.state = .pending) then
      answerMail (updCtx s ctx fun c => { c with state := .saved }) (csaveKey ctx) 0
    else s

/-- A group that is no more: its seat given up, its block with its last group, its waits and helps, and what follows. -/
def dropGroup (s : State) (gid : Nat) (g : Group) : State :=
  let s := if g.state = .resident ∨ g.state = .begun then leaveSeat s g else s
  let s := keepHelps { s with groups := Table.del s.groups gid } (s.helps.filter fun h => h.1 ≠ gid)
  let s := if s.groups.any fun e => e.2.block = g.block then updBlock s g.block fun b => { b with retired := b.retired + 1 }
    else { s with blocks := Table.del s.blocks g.block }
  let s := updKernel s g.kernel fun k => { k with wct := max k.wct g.wctMax }
  let s := match kernelAt s g.kernel with
    | some k => updCtx s k.ctx fun c => { c with wct := max c.wct g.wctMax }
    | none => s
  let s := settleKernel (settleBarriers s g.kernel) g.kernel
  match kernelAt s g.kernel with
  | some k => settleCtx s k.ctx
  | none => s

/-- Whether a group's stores are all acknowledged and past their completion times, and its flags read 0 (06 R140, R147). -/
def groupQuiet (s : State) (gid : Nat) (g : Group) : Bool :=
  g.flags.all (fun e => e.2 = 0) && !(s.writes.any fun e => e.2.gid = gid) && decide (g.logQueue = []) &&
  (g.wctMax = 0 || decide (g.wctMax < gtOf s g.die))

/-- The lines that a departing group leaves dirty written back: those tagged with it (09 R191), and all of its context's
when it is the last of its block on the core (18 R371). The latest WCT. -/
def writeBackFor (s : State) (gid : Nat) (g : Group) (ctx : Nat) (whole : Bool) : Nat × State :=
  l1WriteBack s (coreKey g.die g.core) fun _ b => (whole && b.ctx = ctx) || b.owner = some gid

/-- GROUP_RETIRE (06 R140; 07 R152, R156): the lines still tagged with the group go home first (09 R191). -/
def execGroupRetire (g : Nat) (s : State) : Out :=
  .next (match groupAt s g with
    | none => s
    | some x =>
      if (x.state = .begun ∨ x.state = .resident ∨ x.state = .saved) ∧ allEnded x ∧ groupQuiet s g x then
        let (w, s) := if x.state = .saved then (0, s) else writeBackFor s g x 0 false
        if w = 0 then dropGroup s g x else updGroup s g fun x => { x with wctMax := max x.wctMax w }
      else s)

/-- Everything of a group dropped where it stands: its fibres end, its region buffers are discarded, its engine commands and
tokens go (16 R345; 18 R366). Stores already sent still reach their homes, and what a command wrote counts for the kernel
(R346); data on their way to the group will find its slot given up (07 R173). -/
def discardGroup (s : State) (gid : Nat) : State :=
  match groupAt s gid with
  | none => s
  | some g =>
    let written := maxOf (((s.porter.filter fun e => e.2.gid = gid).map fun e => e.2.wct) ++
      ((s.flushes.filter fun e => e.2.gid = gid).map fun e => e.2.wct) ++ g.sumOps.map fun o => o.applied.getD 0)
    let s := { s with
      porter := Table.sel s.porter fun _ c => c.gid ≠ gid
      launches := Table.sel s.launches fun _ l => l.gid ≠ gid
      evals := Table.sel s.evals fun _ e => e.gid ≠ gid
      splats := Table.sel s.splats fun _ x => x.gid ≠ gid }
    settleNets (dropGroup s gid { g with fibres := [], wctMax := max g.wctMax written })

/-- CLEARING_COMPLETE (02 R52): a placed group's structures are clear. -/
def execClearingComplete (g : Nat) (s : State) : Out :=
  .next (updGroup s g fun x => if x.state = .resident then { x with clearing := false } else x)

/-! ### Saving (18 R371, R372) -/

/-- Whether nothing delays a group's save any more: its fibres stand at instruction boundaries (04 R96), and its loads, atomics,
network, texture, splat, matrix and summary work is done. An MLOOP that has not started is saved as issued, and a fibre in SUMRD
issues it again (12 R283, 13 R300). -/
def saveReady (s : State) (gid : Nat) (g : Group) : Bool :=
  !(g.fibres.any fun e => (e.2.state = .ready && e.2.chain.isSome) || e.2.midChain) &&
  !(s.ops.any fun e => e.2.gid = gid) && !(s.evals.any fun e => e.2.gid = gid) &&
  !(s.splats.any fun e => e.2.gid = gid) && decide (g.logQueue = []) &&
  (g.tileOps.all fun o => match o.kind with | .mloop _ _ _ _ none => true | _ => false) &&
  (g.sumOps.all fun o => match o.kind with | .rd .. => true | _ => false)

/-- A fibre as its group's record holds it: an instruction that had not taken effect issues again (18 R371). -/
def savedFibre (f : Fibre) : Fibre :=
  let again : Fibre := { f with state := .ready, readySince := none, due := false }
  match f.state with
  | .ready => again
  | .stalled _ => again
  | .waiting w => match w with
    | .nbind .. => again
    | .sumrd _ => again
    | .sptile _ => again
    | _ => f
  | _ => f

/-- Whether no group of a gang has issued, so that pre-emption evicts it (07 R152). A block formed over a tile, whose
claim stands, keeps its place and is evicted group by group. -/
def gangFresh (s : State) (k : Kernel) (g : Group) : Bool :=
  !k.tileMode && (s.groups.filter fun e => e.2.kernel = g.kernel && k.gangOf e.2.s3 e.2.s2 = k.gangOf g.s3 g.s2).all fun e =>
    e.2.state = .resident

/-- The order of groups by cluster, block and group number (17 R358). -/
def groupBefore (x y : Nat × Nat × Nat) : Bool :=
  decide (x.1 < y.1 ∨ (x.1 = y.1 ∧ (x.2.1 < y.2.1 ∨ (x.2.1 = y.2.1 ∧ x.2.2 < y.2.2))))

/-- A watchdog trap that ends with its group counts the group (16 R348). -/
def countEnded (s : State) (g : Group) : State :=
  if g.watchdogTrap then updKernel s g.kernel fun k => { k with wdEnded := k.wdEnded + 1 } else s

/-- A gang of groups none of which has begun goes back among those to be placed; after the watchdog's expiry, when no
gang is placed any more, it is no more (16 R348). -/
def evictGang (s : State) (kid : Nat) (k : Kernel) (g : Group) : State :=
  let gs := s.groups.filter fun e => e.2.kernel = kid && k.gangOf e.2.s3 e.2.s2 = k.gangOf g.s3 g.s2
  if k.expired.isSome then gs.foldl (fun s e => dropGroup (countEnded s e.2) e.1 e.2) s
  else
    let s := gs.foldl (fun s e => leaveSeat s e.2) s
    let blocks := dedup (gs.map fun e => e.2.block)
    let s := { s with groups := Table.sel s.groups fun n _ => !(gs.any fun e => e.1 = n)
                      blocks := Table.sel s.blocks fun n _ => !blocks.contains n }
    let back := gs.map fun e => (e.2.s3, e.2.s2, e.2.s1)
    settleCtx (updKernel s kid fun k => { k with pendingGroups := sortBy groupBefore (k.pendingGroups ++ back) }) k.ctx

/-- The context registers that a kernel samples (06 R143). -/
def sampleRegs (c : Context) : Table Word :=
  let half (x : DWord) (n : Nat) : Word := x.extractLsb' (32 * n) 32
  [(0x000, half c.tvec 0), (0x001, half c.tvec 1), (0x012, c.lease), (0x013, c.fairt), (0x018, c.rngctl),
   (0x019, half c.rngbase 0), (0x01A, half c.rngbase 1), (0x01B, c.rngseg), (0x020, c.opaq), (0x021, c.gwin),
   (0x022, c.dens), (0x023, c.outl), (0x024, c.hotthr)].filter fun e => e.2 ≠ 0

/-- A seat left by a group that is to come back: with the last of its block the block's record is written, with the last of its
kernel the kernel's (18 R371). -/
def leaveBlock (s : State) (g : Group) (k : Kernel) : State :=
  let still (p : Group → Bool) : Bool := s.groups.any fun e => p e.2 && (e.2.state = .resident || e.2.state = .begun)
  let regs := ((ctxAt s k.ctx).map sampleRegs).getD []
  let s := if still fun x => x.block = g.block then s
    else writeRecord (updBlock s g.block fun b => { b with placed := false }) k.ctx .block g.block regs
  if still fun x => x.kernel = g.kernel then s else writeRecord s k.ctx .kernel g.kernel regs

/-- A group that has not begun, of a gang that has, evicted: nothing of it is saved, and it starts from its launch state
when its gang is restored (07 R152). -/
def evictGroup (s : State) (gid : Nat) (g : Group) (k : Kernel) : State :=
  if k.expired.isSome then dropGroup (countEnded s g) gid g
  else
    let s := leaveSeat s g
    let s := setGroup s gid { newGroup k g.kernel g.block g.s3 g.s2 g.s1 g.given with die := g.die }
    settleCtx (leaveBlock s g k) k.ctx

/-- The engines and Courier instances of a context stopped, with no token or flag written (18 R366, R377; 20 R419). -/
def stopEngines (s : State) (ctx : Nat) : State :=
  let mine := (s.slots.filter fun e => e.2.ctx = ctx).map (·.1)
  { s with
    porter := Table.sel s.porter fun _ c => c.ctx ≠ ctx
    flushes := Table.sel s.flushes fun _ f => f.ctx ≠ ctx
    frames := Table.sel s.frames fun _ f => f.ctx ≠ ctx
    recs := Table.sel s.recs fun _ r => r.ctx ≠ ctx
    tiles := Table.sel s.tiles fun _ t => t.ctx ≠ ctx
    launches := Table.sel s.launches fun _ l => l.ctx ≠ ctx
    cqueue := Table.sel s.cqueue fun _ c => c.ctx ≠ ctx
    slots := Table.sel s.slots fun _ x => x.ctx ≠ ctx
    insts := s.insts.filter fun i => !mine.contains i.slotKey
    deliveries := Table.sel s.deliveries fun _ d => !mine.contains d.slotKey }

/-- A context lost (18 R375, R377; 17 R357): it runs nothing more; its packets not yet ended go into the PF mailbox log, which
the command processor of a die of the partition writes, or else that of the die with the second journal copy; its kernels
are interrupted with CODE 2 and the die of copy B. -/
def loseContext (s : State) (ctx : Nat) : State :=
  match ctxAt s ctx with
  | none => s
  | some c =>
    let s := updCtx s ctx fun c => { c with state := .lost, tdi := if c.tdi = .unlocked then .unlocked else .error }
    let told : Bool := ctxRanks s ctx ≠ [] || (partAt s c.part).any fun p => p.reserve.any (dieActive s)
    let pairs := if !told then [] else c.queues.flatMap fun q =>
      (q.2.journal.filter fun p => !p.ended).map fun p => (ctx, q.1, p.seq, (p.bytes.headD 0).toNat)
    let info := rec64 c.desc 0x018 / 2 ^ 36 % 64
    let lost (k : Kernel) : Kernel :=
      if k.ctx = ctx ∧ !k.isEnded then { k with state := .interrupted, code := 2, info := info, pendingGroups := [] } else k
    let s : State := { s with mailLog := s.mailLog ++ pairs, kernels := s.kernels.map fun e => (e.1, lost e.2) }
    let mine := s.groups.filter fun g => (kernelAt s g.2.kernel).any fun k => k.ctx = ctx
    answerMail (stopEngines (mine.foldl (fun s g => discardGroup s g.1) s) ctx) (csaveKey ctx) 2

/-- A group's record written to both copies (18 R371, R375), and its seat given up. -/
def saveGroup (s : State) (gid : Nat) (g : Group) (k : Kernel) : State :=
  match ctxAt s k.ctx with
  | none => s
  | some c =>
    if c.saveABad ∧ c.saveBBad then loseContext s k.ctx
    else
      let s := leaveSeat s g
      let s := updGroup s gid fun g =>
        { g with
          state := .saved, savedAt := gtOf s g.die, preempt := false, starved := false, lentBy := [], ahead := [], board := []
          sumOps := g.sumOps.filter fun o => match o.kind with | .rd .. => false | _ => true
          fibres := g.fibres.map fun e => (e.1, savedFibre e.2) }
      settleCtx (leaveBlock (writeRecord s k.ctx .group gid (sampleRegs c)) g k) k.ctx

/-- GROUP_SAVE (18 R371). The group's own lines, and with a block's last group its context's, go home first. -/
def execGroupSave (g : Nat) (s : State) : Out :=
  .next (match groupAt s g with
    | none => s
    | some x => match kernelAt s x.kernel with
      | none => s
      | some k =>
        if !saveWanted s x then s
        else if gangFresh s k x then evictGang s x.kernel k x
        else if x.state = .resident then evictGroup s g x k
        else if !saveReady s g x then s
        else
          let last := !(s.groups.any fun e => e.1 ≠ g && e.2.block = x.block && (e.2.state = .resident || e.2.state = .begun))
          let (w, s) := writeBackFor s g x k.ctx last
          let since := max w x.savedAt
          if gtOf s x.die ≤ since ∧ since ≠ 0 then updGroup s g fun x => { x with savedAt := since }
          else saveGroup s g x k)

/-- The groups of a gang. -/
def gangGroups (s : State) (kid : Nat) (k : Kernel) (key : Nat × Nat) : List (Nat × Group) :=
  s.groups.filter fun e => e.2.kernel = kid && k.gangOf e.2.s3 e.2.s2 = key

/-- Whether an operation of a group that outlives its save is still outstanding (18 R372). -/
def engineBusy (s : State) (gid : Nat) : Bool :=
  (s.porter.any fun e => e.2.gid = gid) || (s.flushes.any fun e => e.2.gid = gid) || s.launches.any fun e => e.2.gid = gid

/-- The trap of a watchdog's expiry, for every fibre of a group that runs, waits, is parked in JOIN or is aborted (R348):
done-parked lanes go into the mask of the fibre that owns the lowest lane. -/
def watchdogTraps (s : State) (gid : Nat) : State :=
  match groupAt s gid with
  | none => s
  | some g =>
    let live := g.fibres.filter fun e => e.2.state ≠ .ended ∧ e.2.state ≠ .doneParked ∧
      e.2.traps.all (fun t => t.cause ≠ 0x0A) ∧ !e.2.doomed
    let done : Mask := g.fibres.foldl (fun m e => if e.2.state = .doneParked then m ||| e.2.p0 else m) 0
    let order := sortBy (fun (x y : Nat × Fibre) => decide (Mask.first x.2.p0 < Mask.first y.2.p0)) live
    let s := updGroup s gid fun g =>
      { g with
        watchdogTrap := g.watchdogTrap || !order.isEmpty
        sumOps := g.sumOps.filter fun o => match o.kind with
          | .rd .. => !(order.any fun e => e.1 = o.fib)
          | _ => true }
    let raised := s.nextId
    let s := { s with nextId := s.nextId + 1, evals := s.evals.map fun e =>
      if e.2.gid = gid ∧ !order.isEmpty then (e.1, { e.2 with mute := true }) else e }
    let s := (order.mapIdx fun j e => (j, e)).foldl (fun s x =>
      let t : Trap :=
        { cause := 0x0A, epc := x.2.2.epc, addr := 0, mask := x.2.2.p0 ||| (if x.1 = 0 then done else 0)
          raised := raised, clause := x.2.2.clause }
      updFibre s gid x.2.1 fun f =>
        if f.midChain then { f with traps := f.traps ++ [t] }
        else { f with traps := f.traps ++ [t], state := .waiting .trap, chain := none, readySince := none, due := false }) s
    (order.filter fun e => !e.2.midChain).foldl (fun s e =>
      let t := deliverTrap s gid e.1
      match fibreAt t gid e.1 with
      | some x => if x.state = .ended then resettle t gid else t
      | none => t) s

/-- A restored group's last touches (18 R376; 07 R152, R163): one that had not begun starts from its launch state, in the
room it has now; the ready fibres of another take a new stamp, and it issues for those whose SPINH helped it (17 R360). -/
def restoredGroup (s : State) (k : Kernel) (was g : Group) : Group :=
  if was.state = .pending then startGroup s k g
  else
    { g with
      state := .begun, clearing := false, lastIssue := gtOf s g.die
      lentBy := dedup ((s.helps.filter fun h => (groupAt s h.1).any fun y =>
        (kernelAt s y.kernel).any fun j => j.ctx = k.ctx).map (·.1))
      fibres := g.fibres.map fun f =>
        if f.2.state = .ready then (f.1, { f.2 with readySince := some (gtOf s g.die), due := false }) else f }

/-- Whether a record is of a gang, of one of its blocks or of its kernel. -/
def recordOfGang (gs : List (Nat × Group)) (r : SaveRec) : Bool :=
  gs.any fun e => match r.kind with
    | .group => e.1 = r.key
    | .block => e.2.block = r.key
    | .kernel => e.2.kernel = r.key

/-- A saved gang restored on its die, if it fits (18 R376; 07 R152). Each group acquires for its new core. -/
def restoreGang (s : State) (kid : Nat) (k : Kernel) (key : Nat × Nat) : Option State :=
  let gs := gangGroups s kid k key
  let blocks := dedup (gs.map fun e => (e.2.block, e.2.die))
  (seatBlocks s k blocks).map fun s =>
    let s := { s with saves := s.saves.map fun r => if recordOfGang gs r then { r with filled := false } else r }
    gs.foldl (fun s e =>
      match groupAt s e.1 with
      | none => s
      | some g =>
        let s := acquireL1 s (coreKey g.die g.core) 4
        let s := updGroup s e.1 fun g => restoredGroup s k e.2 g
        if k.expired.isSome ∧ e.2.watchdogTrap then watchdogTraps s e.1 else s) s

/-- Whether a gang's records can be read, and its operations are over: nothing holds its restore but seats and order
(18 R372, R375). -/
def restorable (s : State) (kid : Nat) (k : Kernel) (key : Nat × Nat) : Bool :=
  let gs := gangGroups s kid k key
  (gs.any fun e => e.2.state = .saved || k.tileMode) &&
    gs.all fun e => (e.2.state = .saved || e.2.state = .pending) && !engineBusy s e.1

/-- The records that the restore of a gang reads. -/
def recordsOf (s : State) (gs : List (Nat × Group)) : List SaveRec := s.saves.filter fun r => r.filled && recordOfGang gs r

/-- Whether neither copy of a gang's records can be read (18 R375). -/
def recordsLost (s : State) (c : Context) (gs : List (Nat × Group)) : Bool :=
  (recordsOf s gs).any fun r => recordBad s c false r && recordBad s c true r

/-- The reading of a gang's records (18 R375): a copy A that does not give one, read twice, is marked failed. -/
def readRecords (s : State) (ctx : Nat) (c : Context) (gs : List (Nat × Group)) : State :=
  match (recordsOf s gs).find? fun r => recordBad s c false r && !c.saveABad with
  | some r => failCopy s ctx false (BitVec.ofNat 32 (if r.kind = .group then ((groupAt s r.key).map groupIdent).getD 0 else 0))
  | none => s

end Sys2Proof.Machine
end

