-- ==== Sys2Proof/Machine/KernelEvents.lean ====
section
/-! DEFINITION. The life of a kernel: its record, staging, placement and restore, the watchdog, completion, restart
(16 R338 to R348; 17 R358, R359; 18 R369, R376). -/

namespace Sys2Proof.Machine

/-- GT at the die that serves a kernel. -/
def kernelGt (s : State) (k : Kernel) : Nat := gtOf s (ctxDie s k.ctx)

/-- A packet-error event (17 R362, R443). -/
def packetError (s : State) (ctx q sn cause : Nat) : State :=
  if ctxRanks s ctx = [] then s else postEvent s ctx (ctxDie s ctx) 4 (toBytes 4 q ++ toBytes 4 sn ++ toBytes 4 cause)

/-- Whether the command processor works for a context: one that is not created, faulted, lost or destroyed. -/
def ctxServed (s : State) (ctx : Nat) : Bool :=
  (ctxAt s ctx).any fun c => c.state = .ready || c.state = .running || c.state = .preempting || c.state = .saved

/-- What the command processor does on meeting a page that its operation `id` waits for. -/
def cpWaits (s : State) (id ctx : Nat) (p : Pg) (va : Nat) (b : Block1) : State :=
  engineWaits s id ctx (ctxDie s ctx) p va b

/-- A kernel interrupted with a code (R344, R347). -/
def interrupt (s : State) (kid code info : Nat) : State :=
  updKernel s kid fun k => { k with state := .interrupted, code := code, info := info }

/-- KERNEL_RECORD_READ (R338): the record is read, merged and checked. -/
def execKernelRecordRead (k : Nat) (s : State) : Out :=
  .next (match kernelAt s k with
    | none => s
    | some x =>
      if x.state ≠ .described ∨ x.readDone ∨ !ctxServed s x.ctx then s
      else if x.recordAt % 512 ≠ 0 then interrupt s k 3 0xFFFFFF
      else match dieGet s x.ctx (ctxDie s x.ctx) x.recordAt 512 with
        | (.error (.wait p va b), s) => cpWaits s k x.ctx p va b
        | (.error (.fail ..), s) => interrupt s k 3 0xFFFFFF
        | (.ok bs, s) =>
          let pkt := ((packetAt s x.ctx x.queue x.seq).map (·.bytes)).getD []
          let y := { x with record := mergeRecord bs pkt, readDone := true }
          let s := { s with kernels := Table.ins s.kernels k y }
          match recordFault s k y with
          | some off => interrupt s k 3 off
          | none => s)

/-- A kernel's staging begun, from its effective record (R343, R345). -/
def beginStaging (s : State) (kid : Nat) : State :=
  updKernel s kid fun k =>
    { k with state := .staging, stageStart := kernelGt s k, count := 0, expired := none, wdEnded := 0, placedAny := false
             tileCount := [], tilesOver := false, named := [], pendingGroups := if k.tileMode then [] else k.gridGroups }

/-- KERNEL_RELEASE (R344; 17 R356). -/
def execKernelRelease (k : Nat) (s : State) : Out :=
  .next (match kernelAt s k with
    | none => s
    | some x =>
      if x.state = .described ∧ x.readDone ∧ (packetAt s x.ctx x.queue x.seq).any (fun p => p.begun) then beginStaging s k
      else s)

/-! ## Staging (R343) -/

/-- The pages of a range, from its first address. -/
def rangePages (s : State) (ctx last : Nat) : Nat → Nat → List Pg
  | 0, _ => []
  | fuel + 1, a => if last ≤ a then [] else
      let p := translateCp s ctx a
      p :: rangePages s ctx last fuel (p.va + 2 ^ p.sz)

/-- The pages that a range of bytes touches. -/
def pagesOfRange (s : State) (ctx base len : Nat) : List Pg :=
  rangePages s ctx (base + len) (len / 65536 + 2) base

/-- Whether a page does not hold a working set up (R343): STATE 3, 4 or 7, and no collapse is due. -/
def pageStaged (intent : Nat) (p : Pg) : Bool :=
  p.st = 3 || p.st = 7 || (p.st = 4 && !(p.cow && decide (2 ≤ intent)))

/-- Whether a page takes an entry of the staging pool: it is backed, on its way, or in a frame of the pool. -/
def pagePooled (s : State) (ctx : Nat) (p : Pg) : Bool :=
  p.st = 1 || p.st = 2 || (p.tier = 0 && decide (p.st ≠ 0) &&
    (poolEntries s ctx).any fun e => bits e.2.1 2 2 = 1 && bits e.2.1 45 16 = bits p.leaf 45 16)

/-- Whether some pages exceed a context's staging pool, in entries of each size. -/
def poolExceeded (s : State) (ctx : Nat) (ps : List Pg) : Bool :=
  let held := dedup ((ps.filter (pagePooled s ctx)).map fun p => (p.sz, p.va))
  [16, 21, 30].any fun sz =>
    decide (((poolEntries s ctx).filter fun e => poolSize e.2.1 = sz).length < (held.filter fun h => h.1 = sz).length)

/-- What staging does about one page (R343): the page request, staging, the collapse, or nothing. -/
def stagePage (s : State) (id ctx intent : Nat) (p : Pg) : State :=
  match p.st with
  | 0 => cpWaits s id ctx p p.va .unmapped
  | 1 => startStaging s ctx p
  | 4 => if p.cow ∧ 2 ≤ intent then startCollapse s ctx p else s
  | _ => s

/-- What one pass over a working set finds: every page staged, a wait, or a failure with its entry. -/
inductive StageRes where
  | staged
  | wait
  | fail (entry : Nat)
  deriving DecidableEq, Repr

/-- One pass over the entries of a working set: index, offset of the base, intent, length; `seen` holds the pages of
the entries before. -/
def stagePass (kid : Nat) (k : Kernel) : List (Nat × Nat × Nat × Nat) → List Pg → State → StageRes × State
  | [], _, s => (.staged, s)
  | e :: es, seen, s =>
    match dieGet s k.ctx (ctxDie s k.ctx) (k.arg.toNat + e.2.1) 8 with
    | (.error (.fail ..), s) => (.fail e.1, s)
    | (.error (.wait p va b), s) => (.wait, cpWaits s kid k.ctx p va b)
    | (.ok bs, s) =>
      let range := (ofBytes bs, e.2.2.2)
      let s := updKernel s kid fun k => if k.named.contains range then k else { k with named := k.named ++ [range] }
      let ps := pagesOfRange s k.ctx range.1 range.2
      if poolExceeded s k.ctx (seen ++ ps) then (.fail e.1, s)
      else
        let t := ps.foldl (fun s p => stagePage s kid k.ctx e.2.2.1 p) s
        match stagePass kid k es (seen ++ ps) t with
        | (.staged, u) => (if ps.all (pageStaged e.2.2.1) then .staged else .wait, u)
        | r => r

/-- KERNEL_STAGED (R343, R344). -/
def execKernelStaged (k : Nat) (s : State) : Out :=
  .next (match kernelAt s k with
    | none => s
    | some x =>
      if x.state ≠ .staging ∨ !ctxServed s x.ctx then s
      else match stagePass k x (worksetEntries x) [] s with
        | (.staged, s) => updKernel s k fun x => { x with state := .staged }
        | (.wait, s) => s
        | (.fail j, s) => interrupt s k 4 j)

/-- The first entry of a working set that is not staged. -/
def unstagedEntry (s : State) (k : Kernel) : Nat :=
  (((worksetEntries k).find? fun e =>
    match (dieGet s k.ctx (ctxDie s k.ctx) (k.arg.toNat + e.2.1) 8).1 with
    | .ok bs => !(pagesOfRange s k.ctx (ofBytes bs) e.2.2.2).all (pageStaged e.2.2.1)
    | .error _ => true).map (·.1)).getD 0

/-- STAGING_TIMEOUT (R343): staging has waited WDOG µs. -/
def execStagingTimeout (k : Nat) (s : State) : Out :=
  .next (match kernelAt s k with
    | none => s
    | some x =>
      if x.state = .staging ∧ x.stageStart + 1000 * x.wdog ≤ kernelGt s x then interrupt s k 4 (unstagedEntry s x) else s)

/-! ## The order of placement (17 R358) -/

/-- A gang that waits to be placed or restored: its kernel, its key, the dies it needs, and whether it is new. -/
abbrev Waiter := Nat × (Nat × Nat) × List Nat × Bool

/-- The key that a die's next claimed tile gives its block's gang (16 R341). -/
def tileGang (k : Kernel) (r d : Nat) : Nat × Nat :=
  let j := Table.rd k.tileCount 0 d
  k.gangOf (256 * r + j / 1024) (j % 1024)

/-- The new gangs of a kernel in ascending cluster and block number. In tile mode each die's next ready tile makes
one (16 R341), with the others of its gang. -/
def newGangs (s : State) (kid : Nat) (k : Kernel) : List Waiter :=
  let rs := ctxRanks s k.ctx
  if k.expired.isSome then []
  else if k.tileMode then
    let ready := (List.range rs.length).filterMap fun r =>
      let d := rs.getD r 0
      match tileClaim s k.ctx k.frame d with
      | .tile .. => some (kid, tileGang k r d, if k.gang = 2 then rs else [d], true)
      | _ => none
    if k.tilesOver then [] else if k.gang = 2 then ready.take 1 else ready
  else (dedup (k.pendingGroups.map fun g => k.gangOf g.1 g.2.1)).map fun key =>
    (kid, key, if k.gang = 2 then rs else [blockDie s k key.1], true)

/-- The saved gangs of a kernel. -/
def savedGangs (s : State) (kid : Nat) (k : Kernel) : List Waiter :=
  let gs := s.groups.filter fun e => e.2.kernel = kid && (e.2.state = .saved || e.2.state = .pending)
  (dedup (gs.map fun e => k.gangOf e.2.s3 e.2.s2)).map fun key =>
    (kid, key, dedup ((gs.filter fun e => k.gangOf e.2.s3 e.2.s2 = key).map fun e => e.2.die), false)

/-- Whether a kernel's gangs may be placed. -/
def placing (s : State) (k : Kernel) : Bool :=
  (k.state = .staged || k.state = .launched || k.state = .running) &&
  (ctxAt s k.ctx).any fun c => c.state = .ready || c.state = .running

/-- The queue of a kernel. -/
def kernelQueue (s : State) (k : Kernel) : Option Queue := (ctxAt s k.ctx).bind fun c => Table.look c.queues k.queue

/-- What orders two kernels: priority, then weighted round robin among queues, then SEQ. -/
def kernelBefore (s : State) (x y : Nat × Kernel) : Bool :=
  let prio (k : Kernel) : Nat := ((kernelQueue s k).map (·.prio)).getD 0
  let spent (k : Kernel) : Nat := if (kernelQueue s k).any (fun q => q.weight ≤ q.served) then 1 else 0
  let key (x : Nat × Kernel) : List Nat := [7 - prio x.2, spent x.2, x.2.ctx, x.2.queue, x.1]
  decide (key x < key y)

/-- Every gang of a partition that waits, in the order of R358. -/
def waiters (s : State) (part : Nat) : List Waiter :=
  let ks := s.kernels.filter fun e => placing s e.2 && (ctxAt s e.2.ctx).any fun c => c.part = part
  (sortBy (kernelBefore s) ks).flatMap fun e =>
    sortBy (fun (x y : Waiter) => decide (x.2.1.1 < y.2.1.1 ∨ (x.2.1.1 = y.2.1.1 ∧ x.2.1.2 ≤ y.2.1.2)))
      (newGangs s e.1 e.2 ++ savedGangs s e.1 e.2)

/-- The gangs that no earlier gang holds back: none that waits before them needs one of their dies (R358). -/
def unheld : List Waiter → List Nat → List Waiter
  | [], _ => []
  | w :: ws, taken =>
    if w.2.2.1.any taken.contains then unheld ws (taken ++ w.2.2.1) else w :: unheld ws (taken ++ w.2.2.1)

/-- The partition of a kernel. -/
def kernelPart (s : State) (k : Kernel) : Nat := ((ctxAt s k.ctx).map (·.part)).getD 0

/-- A queue's turn taken (17 R358): when every queue of its priority in the partition has had its weight, the turns begin
anew. -/
def takeTurn (s : State) (k : Kernel) : State :=
  match kernelQueue s k with
  | none => s
  | some q =>
    let part := kernelPart s k
    let s := if q.served < q.weight then s
      else { s with contexts := s.contexts.map fun c =>
        if c.2.part = part then
          (c.1, { c.2 with queues := c.2.queues.map fun u => if u.2.prio = q.prio then (u.1, { u.2 with served := 0 }) else u })
        else c }
    updQueue s k.ctx k.queue fun q => { q with served := q.served + 1 }

/-- What the placing of a gang does for its kernel and its context (16 R344; 18 R366). -/
def gangPlaced (s : State) (kid : Nat) (k : Kernel) : State :=
  let s := updCtx s k.ctx fun c => if c.state = .ready then { c with state := .running } else c
  let regs := ((ctxAt s k.ctx).map sampleRegs).getD []
  updKernel (takeTurn s k) kid fun k =>
    let k := { k with placedAny := true }
    if k.state = .staged then { k with state := .launched, gtStart := kernelGt s k, sampled := regs } else k

/-! ## Pre-emption (17 R358, R359) -/

/-- The groups that hold seats on some dies. -/
def seated (s : State) (dies : List Nat) : List (Nat × Group) :=
  s.groups.filter fun e => (e.2.state = .resident || e.2.state = .begun) && dies.contains e.2.die

/-- A group's whole gang chosen for pre-emption. -/
def chooseVictim (s : State) (v : Nat × Group) : State :=
  match kernelAt s v.2.kernel with
  | none => s
  | some k =>
    { s with groups := s.groups.map fun e =>
        if e.2.kernel = v.2.kernel ∧ k.gangOf e.2.s3 e.2.s2 = k.gangOf v.2.s3 v.2.s2 ∧
            (e.2.state = .resident ∨ e.2.state = .begun) then
          (e.1, { e.2 with preempt := true })
        else e }

/-- Pre-emption for a gang that does not fit (R358): one gang of a lower priority at a time, the lowest first and within
it the most recently placed group's. -/
def preemptFor (s : State) (prio : Nat) (dies : List Nat) : State :=
  let gs := seated s dies
  if gs.any fun e => e.2.preempt then s
  else
    let low := gs.filter fun e => groupPrio s e.2 < prio
    match sortBy (fun (x y : Nat × Group) =>
        decide (groupPrio s x.2 < groupPrio s y.2 ∨ (groupPrio s x.2 = groupPrio s y.2 ∧ y.2.placedSeq < x.2.placedSeq))) low with
    | v :: _ => chooseVictim s v
    | [] => s

/-! ## Placing (16 R341; 17 R358) -/

/-- The covered lanes of a group over a tile (16 R341, 15 R323). -/
def tileLanes (w s1 : Nat) (pixels : List (Nat × Nat)) : Mask :=
  Mask.ofLanes ((List.range w).filter fun l =>
    let q := s1 * (w / 4) + l / 4
    pixels.contains (2 * (q % 8) + l % 2, 2 * (q / 8) + l / 2 % 2))

/-- The ready tiles that a die's next gang takes (R340, R341): the next one; with a cluster or grid barrier every tile of
the die that is left, up to the end of the cluster, once none of them is unready. -/
def gangTiles (s : State) (k : Kernel) (die : Nat) : Option (List ReadyTile) :=
  match frameOn s k.ctx k.frame die with
  | none => some []
  | some (_, f) =>
    let free := sortBy (fun (x y : ReadyTile) => decide (x.tile < y.tile))
      (f.ready.filter fun r => !r.claimed && decide (r.wct = 0 ∨ r.wct < gtOf s die))
    if !f.flushed then some []
    else if k.gang = 0 then some (free.take 1)
    else
      let left := (ownedTiles s k.ctx f).filter fun t => !f.ready.any fun r => r.tile = t && r.claimed
      let room := 1024 - Table.rd k.tileCount 0 die % 1024
      let quota := if k.gang = 1 then room else left.length
      if free.length < min quota left.length then none else some (free.take quota)

/-- A tile of a die claimed and formed into a block with its words (16 R341); the block's key, none where no pixel is
covered. -/
def bornTile (s : State) (kid : Nat) (k : Kernel) (r die : Nat) (tile : ReadyTile) : Option Nat × State :=
  match frameOn s k.ctx k.frame die with
  | none => (none, s)
  | some (fid, f) =>
    let s := updFrame s fid fun f =>
      { f with ready := f.ready.map fun x => if x.tile = tile.tile then { x with claimed := true } else x }
    let j := ((kernelAt s kid).map fun k => Table.rd k.tileCount 0 die).getD 0
    let s := updKernel s kid fun k => { k with tileCount := Table.ins k.tileCount die (j + 1) }
    let gs := (List.range k.gpb).filterMap fun i =>
      let m := tileLanes k.width i tile.pixels
      if m = 0 then none else some (i, m)
    if gs = [] then (none, s)
    else
      let (n, s) := bornBlock s kid k (256 * r + j / 1024) (j % 1024) gs
      let words := toBytes 4 (tile.tile / fdTW f.desc * 2 ^ 16 + tile.tile % fdTW f.desc) ++
        toBytes 4 tile.pixels.length ++ toBytes 8 tile.quads.toNat
      (some n, updBlock s n fun b => b.writeN 0 words)

/-- The tiles of some dies claimed and formed into blocks, each with its die. -/
def bornTiles (kid : Nat) (k : Kernel) : List (Nat × Nat × ReadyTile) → State → List (Nat × Nat) × State
  | [], s => ([], s)
  | (r, die, tile) :: ts, s =>
    let (n, s) := bornTile s kid k r die tile
    let (bs, s) := bornTiles kid k ts s
    ((n.map fun n => (n, die)).toList ++ bs, s)

/-- A tile-mode gang placed whole on its dies (16 R340, R341), if it fits. -/
def placeTiles (s : State) (kid : Nat) (k : Kernel) (dies : List Nat) : Option State :=
  let rs := ctxRanks s k.ctx
  let found := dies.map fun d => (gangTiles s k d).map fun ts => ts.map fun t => (rs.idxOf d, d, t)
  if found.any Option.isNone then none
  else
    let (bs, t) := bornTiles kid k (found.flatMap fun o => o.getD []) s
    (seatNew t kid k bs).map fun s => latchTiles (startGroups s k (bs.map (·.1)))

/-- A waiting new gang placed, if it fits. -/
def placeGang (s : State) (kid : Nat) (k : Kernel) (w : Waiter) : Option State :=
  if k.tileMode then placeTiles s kid k w.2.2.1
  else
    let gang := k.pendingGroups.filter fun g => k.gangOf g.1 g.2.1 = w.2.1
    (placeNew s kid k gang).map fun s =>
      updKernel s kid fun k => { k with pendingGroups := k.pendingGroups.filter fun g => k.gangOf g.1 g.2.1 ≠ w.2.1 }

/-- The first of some waiting gangs that fits, placed. -/
def placeFirst (s : State) (kid : Nat) (k : Kernel) : List Waiter → Option State
  | [] => none
  | w :: ws => match placeGang s kid k w with
    | some t => some t
    | none => placeFirst s kid k ws

/-- GANG_PLACE (17 R358): the first of the kernel's new gangs that is not held back and fits is placed; where none fits,
groups of lower priority are pre-empted for them in their order. -/
def execGangPlace (k : Nat) (s : State) : Out :=
  .next (
    let s := latchTiles s
    match kernelAt s k with
    | none => s
    | some x =>
      match (unheld (waiters s (kernelPart s x)) []).filter fun w => w.1 = k && w.2.2.2 with
      | [] => if placing s x then settleKernel s k else s
      | w :: ws =>
        match placeFirst s k x (w :: ws) with
        | some s => settleKernel (gangPlaced s k x) k
        | none => (w :: ws).foldl (fun s w => preemptFor s (((kernelQueue s x).map (·.prio)).getD 0) w.2.2.1) s)

/-- A gang's restore (18 R375, R376): from copy A, else B; with neither the context is lost. -/
def restoreOr (s : State) (kid : Nat) (k : Kernel) (key : Nat × Nat) (full : State → State) : State :=
  match ctxAt s k.ctx with
  | none => s
  | some c =>
    if recordsLost s c (gangGroups s kid k key) then loseContext s k.ctx
    else match restoreGang (readRecords s k.ctx c (gangGroups s kid k key)) kid k key with
      | some s => gangPlaced s kid k
      | none => full s

/-- GROUP_RESTORE (18 R376): the group's gang is restored in its turn. -/
def execGroupRestore (g : Nat) (s : State) : Out :=
  .next (match groupAt s g with
    | none => s
    | some x => match kernelAt s x.kernel with
      | none => s
      | some k =>
        let key := k.gangOf x.s3 x.s2
        if (x.state ≠ .saved ∧ x.state ≠ .pending) ∨ !restorable s x.kernel k key then s
        else match (unheld (waiters s (kernelPart s k)) []).find? fun w => w.1 = x.kernel && w.2.1 = key && !w.2.2.2 with
          | some w => restoreOr s x.kernel k key fun s => preemptFor s (groupPrio s x) w.2.2.1
          | none => s)

/-- STARV_RESTORE (17 R359, R360): a begun group saved for STARV, or helped by a SPINH of its context, is restored at
once, and groups of any priority give way to it. -/
def execStarvRestore (g : Nat) (s : State) : Out :=
  .next (match groupAt s g with
    | none => s
    | some x => match kernelAt s x.kernel with
      | none => s
      | some k =>
        let key := k.gangOf x.s3 x.s2
        let helped := helpedCtx s k.ctx
        if x.state ≠ .saved ∨ !placing s k ∨ !restorable s x.kernel k key then s
        else if gtOf s x.die < x.savedAt + starvOf s k.ctx ∧ !helped then s
        else
          let dies := dedup ((gangGroups s x.kernel k key).map fun e => e.2.die)
          let t := restoreOr s x.kernel k key fun s =>
            let gs := seated s dies
            if gs.any fun e => e.2.preempt then s
            else match sortBy (fun (a b : Nat × Group) => decide (b.2.starvRestored < a.2.starvRestored ∨
                (a.2.starvRestored = b.2.starvRestored ∧ b.2.placedSeq < a.2.placedSeq))) gs with
              | v :: _ => chooseVictim s v
              | [] => s
          { t with groups := t.groups.map fun e =>
              if e.2.kernel = x.kernel ∧ k.gangOf e.2.s3 e.2.s2 = key ∧ e.2.state ≠ .saved then
                (e.1, { e.2 with starvRestored := gtOf t e.2.die })
              else e })

/-! ## The watchdog (16 R348; 18 R369) -/

/-- WATCHDOG_EXPIRY: no further gang is placed, and every resident group's fibres trap; a group that has gone back to its
launch state is not placed again. -/
def execWatchdogExpiry (k : Nat) (s : State) : Out :=
  .next (match kernelAt s k with
    | none => s
    | some x =>
      if watchdogRuns s x ∧ 1000 * x.wdog ≤ x.count then
        let s := updKernel s k fun x => { x with expired := some (kernelGt s x), pendingGroups := [] }
        let mine := s.groups.filter fun e => e.2.kernel = k
        let s := mine.foldl (fun s e => match e.2.state with
          | .pending => dropGroup s e.1 e.2
          | .saved => updGroup s e.1 fun g => { g with watchdogTrap := true }
          | _ => watchdogTraps s e.1) s
        settleKernel s k
      else s)

/-- Whether an evaluation of a group is in flight that no page holds up. -/
def evaluating (s : State) (gid : Nat) : Bool :=
  s.evals.any fun e => e.2.gid = gid && !(s.tiles.any fun t => t.2.rows.any (fun r => r.ev = e.1) && tileHeld s t.2)

/-- A group all of whose fibres end without a trap; its evaluations in flight complete, and report no fault (14 R318; 18 R369). -/
def endFibres (s : State) (gid : Nat) : State :=
  let s := { s with evals := s.evals.map fun e => if e.2.gid = gid then (e.1, { e.2 with mute := true }) else e }
  match groupAt s gid with
  | none => s
  | some g => settleBarriers (updGroup s gid fun g => { g with fibres := g.fibres.map fun f => (f.1, f.2.gone) }) g.kernel

/-- WATCHDOG_FINAL: WDOG more has passed, and every fibre still alive ends without a trap. Evaluations in flight complete (14 R318).
Whatever else of its groups is still outstanding goes with them, so that the kernel ends (00 R8; log entry 51). -/
def execWatchdogFinal (k : Nat) (s : State) : Out :=
  .next (match kernelAt s k with
    | none => s
    | some x => match x.expired with
      | none => s
      | some t =>
        if t + 1000 * x.wdog ≤ kernelGt s x ∧ (x.state = .launched ∨ x.state = .running) then
          let mine := s.groups.filter fun e => e.2.kernel = k
          let counted := (mine.filter fun e => e.2.watchdogTrap && e.2.fibres.any fun f => f.2.state ≠ .ended).length
          let s := updKernel s k fun x => { x with wdEnded := x.wdEnded + counted }
          mine.foldl (fun s e => if evaluating s e.1 then endFibres s e.1 else discardGroup s e.1) s
        else s)

/-! ## Completion (16 R346, R347) -/

/-- The dirty lines of a context written back from every L1 (R346 step 1). The latest WCT. -/
def writeBackCtx (s : State) (ctx : Nat) : Nat × State :=
  let cores := dedup ((s.l1.filter fun e => e.2.dirty && e.2.ctx = ctx).map fun e => e.1 / 2 ^ 48)
  cores.foldl (fun (acc : Nat × State) ck =>
    let (w, s) := l1WriteBack acc.2 ck fun _ b => b.ctx = ctx
    (max acc.1 w, s)) (0, s)

/-- The completion record of a kernel written at a GT (R347). -/
def completionRecord (k : Kernel) (gt : Nat) : List Byte :=
  let info := if k.code = 1 then min k.wdEnded 0xFFFFFF else k.info
  toBytes 4 (2 ^ 31 + info % 2 ^ 24 * 16 + k.code % 16) ++ toBytes 4 k.restarts ++ toBytes 4 k.seq ++ toBytes 4 0 ++
    toBytes 8 k.gtStart ++ toBytes 8 gt

/-- The kernel's packet has done its work, and its blocks and barriers are gone. -/
def endKernel (s : State) (kid : Nat) (k : Kernel) (w : Nat) : State :=
  let s := updKernel s kid fun k =>
    { k with isEnded := true, state := if k.state = .draining then .complete else k.state }
  let s := { s with blocks := Table.sel s.blocks fun _ b => b.kernel ≠ kid
                    barriers := Table.sel s.barriers fun _ b => b.kernel ≠ kid }
  updPacket s k.ctx k.queue k.seq fun p => { p with begun := true, worked := true, wct := max p.wct w }

/-- The kernel's last act: its completion record, or the event that says it could not be written (R347). -/
def writeCompletion (s : State) (kid : Nat) (k : Kernel) : State :=
  let a := k.crec.toNat
  let die := ctxDie s k.ctx
  let lost (s : State) : State := endKernel (packetError s k.ctx k.queue k.seq 11) kid k 0
  if a = 0 ∨ ctxRanks s k.ctx = [] then endKernel s kid k 0
  else if a % 32 ≠ 0 then lost s
  else match dieHalt s k.ctx die a 32 with
    | some (.wait p va b) => if b = .unmapped then lost s else cpWaits s kid k.ctx p va b
    | some (.fail ..) => lost s
    | none =>
      let (w, s) := diePut s k.ctx die a (completionRecord k (gtOf s die))
      endKernel s kid k w

/-! ## Faults of a part (16 R345) -/

/-- Whether a copy of a packet in the journal survives (17 R357). -/
def journalled (s : State) (p : Packet) : Bool := p.copies = [] || p.copies.any (dieActive s)

/-- Whether a kernel's packet runs again after a fault of a part (16 R345; 17 R357): it says RESTART, and a journal copy of it
survives. -/
def kernelReruns (s : State) (k : Kernel) : Bool :=
  let pkt := packetAt s k.ctx k.queue k.seq
  (if k.readDone then k.restart else pkt.any fun p => bits (rec32 p.bytes 0x30) 27 27 = 1) && pkt.all (journalled s)

/-- Whether a fault of a part meets a kernel: from staging to draining, and before that where its packet does not run again,
which 17 R357 has reported as interrupted (log entry 38). -/
def faultable (s : State) (k : Kernel) : Bool :=
  (k.state = .described && !kernelReruns s k) || k.state = .staging || k.state = .staged || k.state = .launched || k.state = .running || k.state = .draining

/-- A fault of a part on a kernel (R344, R345): its groups are discarded; it is staged again or interrupted. -/
def faultKernel (s : State) (kid die : Nat) : State :=
  match kernelAt s kid with
  | none => s
  | some k =>
    if !faultable s k then s
    else
      let s := updKernel s kid fun k => { k with state := .staging, pendingGroups := [] }
      let s := (s.groups.filter fun e => e.2.kernel = kid).foldl (fun s e => discardGroup s e.1) s
      let s := { s with blocks := Table.sel s.blocks fun _ b => b.kernel ≠ kid
                        barriers := Table.sel s.barriers fun _ b => b.kernel ≠ kid }
      if kernelReruns s k then updKernel (beginStaging s kid) kid fun k => { k with restarts := k.restarts + 1 }
      else interrupt s kid 2 die

/-- A context fault of a partition (R345; 19 R393): every kernel of its contexts meets it. -/
def faultPartition (s : State) (part die : Nat) : State :=
  (s.kernels.filter fun e => (ctxAt s e.2.ctx).any fun c => c.part = part).foldl (fun s e => faultKernel s e.1 die) s

end Sys2Proof.Machine
end

