-- ==== Sys2Proof/Machine/Queue.lean ====
section
/-! DEFINITION. Queues: doorbells, acceptance, the journal, packets and their ends (17 R349 to R357, R443; 06 R148,
R149; 10 R217). -/

namespace Sys2Proof.Machine

/-! ## Sequence numbers and checks (R349, R352) -/

/-- Whether sequence number `b` is newer than `a` (R349). -/
def newer (a b : Nat) : Bool := decide (1 ≤ (b + 2 ^ 32 - a) % 2 ^ 32 ∧ (b + 2 ^ 32 - a) % 2 ^ 32 ≤ 2 ^ 31 - 1)

/-- A packet's CHECK (R352): its own bytes taken as zero. -/
def packetCheck (bs : List Byte) : Nat := crc32c (putBytes bs 8 (toBytes 4 0))

/-- A packet's TYPE. -/
def pkType (bs : List Byte) : Nat := bits (rec32 bs 0) 7 0
/-- A packet's FENCE. -/
def pkFence (bs : List Byte) : Bool := bits (rec32 bs 0) 8 8 = 1
/-- A packet's NOTIFY. -/
def pkNotify (bs : List Byte) : Bool := bits (rec32 bs 0) 9 9 = 1

/-- Whether bytes from an offset to the end of a packet are zero. -/
def zeroFrom (bs : List Byte) (off : Nat) : Bool := (bs.drop off).all fun b => b = 0

/-- Whether a packet's reserved fields are zero and its body fields are in range and aligned (R352, R353, R355). A field
that LAUNCH supplies to the record is checked there (16 R338). -/
def bodyOk (bs : List Byte) : Bool :=
  let w20 := rec32 bs 0x20
  decide (bits (rec32 bs 0) 31 10 = 0 ∧ rec32 bs 0x0C = 0) &&
  (match pkType bs with
    | 1 => decide (bits (rec32 bs 0x30) 31 29 = 0) && zeroFrom bs 0x3C
    | 2 => decide (rec64 bs 0x20 ≤ 2 ^ 40) && zeroFrom bs 0x28
    | 3 => decide (rec64 bs 0x10 % 8 = 0 ∧ w20 < 8) && zeroFrom bs 0x24
    | 4 => decide (rec64 bs 0x10 % 8 = 0 ∧ w20 < 4) && zeroFrom bs 0x24
    | 5 => decide (rec64 bs 0x18 ≤ 2 ^ 40 ∧ 1 ≤ w20 ∧ w20 < 4) && zeroFrom bs 0x24
    | 6 => decide (w20 < 2) && zeroFrom bs 0x24
    | 7 => decide (rec64 bs 0x10 % 64 = 0) && zeroFrom bs 0x20
    | _ => zeroFrom bs 0x10)

/-- Whether a queue is its partition's admin queue (R361). -/
def adminQueue (c : Context) (q : Nat) : Bool := decide (c.num = 0 ∧ q = 0)

/-- The cause for which an accepted packet ends at once (R355, R443); 0 for none. -/
def packetFault (c : Context) (q : Nat) (bs : List Byte) : Nat :=
  let ty := pkType bs
  if ty = 0 ∨ 8 < ty then 1
  else if !bodyOk bs then 2
  else if ty = 7 ∧ !adminQueue c q then 3
  else if adminQueue c q ∧ (ty = 1 ∨ ty = 2 ∨ ty = 3 ∨ ty = 5) then 4
  else 0

/-! ## Kicks and acceptance (R350, R354, R355) -/

/-- A queue of a context, while it exists. -/
def queueAt (s : State) (ctx q : Nat) : Option (Context × Queue) :=
  match ctxAt s ctx with
  | none => none
  | some c => match Table.look c.queues q with
    | some u => if u.live then some (c, u) else none
    | none => none

/-- The next packet to accept. -/
def Queue.next (u : Queue) : Nat := (u.accept.toNat + 1) % 2 ^ 32

/-- The address of a packet's slot (R349). -/
def Queue.slot (u : Queue) (sn : Nat) : Nat := u.ring.toNat + 64 * (sn % 2 ^ u.log2n)

/-- DOORBELL (R350, R351, R354): a device queue ignores it, and a kick at or below ACCEPT leaves one try at the next packet. -/
def execDoorbell (ctx q : Nat) (kick : Word) (s : State) : Out :=
  .next (match queueAt s ctx q with
    | none => s
    | some (_, u) =>
      if u.device then s
      else if !newer u.accept.toNat kick.toNat then updQueue s ctx q fun u =>
        { u with kmax := if newer u.kmax.toNat kick.toNat then kick else u.kmax, oneTry := true }
      else updQueue s ctx q fun u =>
        { u with kmax := if newer u.kmax.toNat kick.toNat then kick else u.kmax
                 kicked := true, lastKick := gtOf s (ctxDie s ctx), lastTry := 0 })

/-- Whether the command processor tries to accept a queue's next packet (R354). -/
def trying (s : State) (ctx : Nat) (u : Queue) : Bool :=
  ctxServed s ctx && (u.oneTry || (u.kicked &&
    (!newer u.kmax.toNat u.next || decide (gtOf s (ctxDie s ctx) < u.lastKick + 1000 * u.stale))))

/-- What a try reads of a slot: a packet that matches (R354), or nothing yet. -/
def slotMatch (s : State) (ctx : Nat) (u : Queue) : Option (List Byte) × State :=
  match dieGet s ctx (ctxDie s ctx) (u.slot u.next) 64 with
  | (.ok bs, s) => (if rec32 bs 4 = u.next ∧ rec32 bs 8 = packetCheck bs then some bs else none, s)
  | (.error (.wait p va b), s) => (none, cpWaits s (2 ^ 64 + ctx * 64) ctx p va b)
  | (.error (.fail ..), s) => (none, s)

/-- ACCEPT_REREAD (R354): a slot that did not match is read again 250 ns after the last try. -/
def execAcceptReread (ctx q : Nat) (s : State) : Out :=
  .next (match queueAt s ctx q with
    | none => s
    | some (_, u) =>
      if !trying s ctx u ∨ gtOf s (ctxDie s ctx) < u.lastTry + 250 then s
      else match slotMatch s ctx u with
        | (some _, s) => s
        | (none, s) => updQueue s ctx q fun u => { u with lastTry := gtOf s (ctxDie s ctx), oneTry := false })

/-- STALE_KICK (R354): the packet that a kick announced is missing STALE µs after it. -/
def execStaleKick (ctx q : Nat) (s : State) : Out :=
  .next (match queueAt s ctx q with
    | none => s
    | some (_, u) =>
      let gt := gtOf s (ctxDie s ctx)
      if u.kicked ∧ ctxServed s ctx ∧ u.lastKick + 1000 * u.stale ≤ gt then
        match slotMatch s ctx u with
        | (some _, s) => s
        | (none, s) =>
          let s := updQueue s ctx q fun u => { u with kicked := false, stalek := u.stalek || !newer u.kmax.toNat u.next }
          if newer u.kmax.toNat u.next then s
          else postEvent s ctx (ctxDie s ctx) 5 (toBytes 4 q ++ toBytes 4 u.next)
      else s)

/-- A queue's stamps written to its status block (R350), once its page lets them; a block that cannot be written keeps its
old ones (log entry 8). -/
def writeStatus (s : State) (ctx q : Nat) : State :=
  match queueAt s ctx q with
  | none => s
  | some (_, u) =>
    sendOut s ctx (ctxDie s ctx) (.released u.statusAt.toNat (toBytes 4 u.accept.toNat ++ toBytes 4 u.done.toNat))

/-- A LAUNCH packet's kernel, described (16 R344). -/
def describeKernel (s : State) (ctx q : Nat) (bs : List Byte) : Nat × State :=
  let (n, s) := freshId s
  let k : Kernel :=
    { ctx := ctx, queue := q, seq := rec32 bs 4, state := .described, readDone := false, recordAt := rec64 bs 0x10
      record := [], arg := BitVec.ofNat 64 (rec64 bs 0x18), crec := BitVec.ofNat 64 (rec64 bs 0x20), sampled := []
      gtStart := 0, count := 0, restarts := 0, stageStart := 0, expired := none, wdEnded := 0, code := 0, info := 0
      pendingGroups := [], tileCount := [], placedAny := false, tilesOver := false, named := []
      wct := 0, isEnded := false }
  (n, { s with kernels := Table.ins s.kernels n k })

/-- The dies whose HBM takes the copies of a journal entry (R355): ranks 0 and 1, or rank 0 and the die reserved outside a
partition of one. -/
def journalDies (s : State) (ctx : Nat) : List Nat :=
  match ctxRanks s ctx with
  | a :: b :: _ => [a, b]
  | rs => rs ++ (((((ctxAt s ctx).bind fun c => partAt s c.part).bind (·.reserve)).filter (dieActive s)).toList)

/-- PACKET_ACCEPT (R354, R355): a slot that matches in both reads is written into both copies of the journal, encrypted under
key slot 0, and with both written ACCEPT advances, all in one step (log entry 58). A packet that cannot run is accepted too,
and its work is done at once. -/
def execPacketAccept (ctx q : Nat) (s : State) : Out :=
  .next (match queueAt s ctx q with
    | none => s
    | some (c, u) =>
      if !trying s ctx u then s
      else match slotMatch s ctx u with
        | (none, s) => s
        | (some bs, s) =>
          let err := packetFault c q bs
          let (k, s) : Option Nat × State :=
            if err = 0 ∧ pkType bs = 1 then
              let (n, s) := describeKernel s ctx q bs
              (some n, s)
            else (none, s)
          let p : Packet :=
            { seq := u.next, bytes := bs, begun := err ≠ 0, ended := false, err := err, kernel := k, wct := 0
              lastRead := 0, worked := err ≠ 0, copies := journalDies s ctx }
          writeStatus (updQueue s ctx q fun u =>
            { u with accept := BitVec.ofNat 32 u.next, oneTry := false, journal := u.journal ++ [p] }) ctx q)

/-! ## Beginning packets (R356) -/

/-- Whether the packets before one in its queue's journal satisfy a test. -/
def earlierAll (u : Queue) (sn : Nat) (p : Packet → Bool) : Bool :=
  (u.journal.takeWhile fun x => x.seq ≠ sn).all p

/-- A packet of a type that may begin now, or that has begun and has work to do: packets begin in SEQ order, a fenced one
or a SIGNAL once every earlier packet has ended. -/
def runnable (s : State) (ctx q sn ty : Nat) : Option Packet :=
  match queueAt s ctx q, packetAt s ctx q sn with
  | some (c, u), some p =>
    let open_ : Bool := c.state = .ready || c.state = .running
    if pkType p.bytes ≠ ty ∨ p.ended ∨ p.worked ∨ p.err ≠ 0 then none
    else if p.begun then (if c.state = .lost ∨ c.state = .destroyed then none else some p)
    else if open_ ∧ earlierAll u sn (fun x => x.begun) ∧ ((!pkFence p.bytes ∧ ty ≠ 4) ∨ earlierAll u sn (fun x => x.ended))
    then some p else none
  | _, _ => none

/-- A packet begun. -/
def beginPacket (s : State) (ctx q sn : Nat) : State := updPacket s ctx q sn fun p => { p with begun := true }

/-- A packet's work done, up to a WCT. -/
def workDone (s : State) (ctx q sn w : Nat) : State :=
  updPacket s ctx q sn fun p => { p with begun := true, worked := true, wct := max p.wct w }

/-- A packet that ends with an error. -/
def workFailed (s : State) (ctx q sn err : Nat) : State :=
  updPacket s ctx q sn fun p => { p with begun := true, worked := true, err := err }

/-- A packet that meets what stops its access: it waits, or ends with an error (R353). -/
def packetHalt (s : State) (ctx q sn : Nat) (h : Halt) : State :=
  match h with
  | .wait p va b => cpWaits (beginPacket s ctx q sn) (2 ^ 65 + (ctx * 64 + q) * 2 ^ 32 + sn) ctx p va b
  | .fail st _ _ => workFailed s ctx q sn (if st = 1 then 5 else 6)

/-- PKT_LAUNCH: the kernel is released once its record is read (16 R344). -/
def execPktLaunch (ctx q sn : Nat) (s : State) : Out :=
  .next (match runnable s ctx q sn 1 with
    | some _ => beginPacket s ctx q sn
    | none => s)

/-- PKT_NOP. -/
def execPktNop (ctx q sn : Nat) (s : State) : Out :=
  .next (match runnable s ctx q sn 8 with
    | some _ => workDone s ctx q sn 0
    | none => s)

/-- PKT_COPY (R353; 11 R256): the whole source, then the destination. A copy that ends with an error has written some
of its pages, a free choice. -/
def execPktCopy (ctx q sn : Nat) (s : State) : Out :=
  .next (match runnable s ctx q sn 2 with
    | none => s
    | some p =>
      let die := ctxDie s ctx
      let src := rec64 p.bytes 0x10
      let dst := rec64 p.bytes 0x18
      match dieGet s ctx die src (rec64 p.bytes 0x20) with
      | (.error h, s) => packetHalt s ctx q sn h
      | (.ok bs, s) =>
        match dieHalt s ctx die dst bs.length with
        | some (.wait pg va b) => packetHalt s ctx q sn (.wait pg va b)
        | some h =>
          let good := (pagePieces dst bs.length).filter fun x => (dieHalt s ctx die x.1 x.2).isNone
          let (n, s) := choose s (good.length + 1)
          let s := (good.take n).foldl (fun s x => (diePut s ctx die x.1 ((bs.drop (x.1 - dst)).take x.2)).2) s
          packetHalt s ctx q sn h
        | none =>
          let (w, s) := diePut s ctx die dst bs
          workDone s ctx q sn w)

/-- Whether WAIT's COND holds of a word or doubleword (R353). -/
def waitHolds (bs : List Byte) (x : Nat) : Bool :=
  let v := if bits (rec32 bs 0x20) 2 2 = 1 then rec64 bs 0x18 else rec32 bs 0x18
  match bits (rec32 bs 0x20) 1 0 with
  | 0 => decide (x = v) | 1 => decide (x ≠ v) | 2 => decide (v ≤ x) | _ => decide (x < v)

/-- One read of a WAIT packet at the home. -/
def waitRead (s : State) (ctx q sn : Nat) (p : Packet) : State :=
  let n := if bits (rec32 p.bytes 0x20) 2 2 = 1 then 8 else 4
  match dieGet s ctx (ctxDie s ctx) (rec64 p.bytes 0x10) n with
  | (.error h, s) => packetHalt s ctx q sn h
  | (.ok bs, s) =>
    if waitHolds p.bytes (ofBytes bs) then workDone s ctx q sn 0
    else updPacket s ctx q sn fun p => { p with begun := true, lastRead := gtOf s (ctxDie s ctx) }

/-- PKT_WAIT: its first read. -/
def execPktWait (ctx q sn : Nat) (s : State) : Out :=
  .next (match runnable s ctx q sn 3 with
    | some p => if p.begun ∧ p.lastRead ≠ 0 then s else waitRead s ctx q sn p
    | none => s)

/-- PKT_WAIT_REREAD: the read repeated after 1 µs, or upon a write to the line, which is the only way that COND comes to
hold in between. -/
def execPktWaitReread (ctx q sn : Nat) (s : State) : Out :=
  .next (match runnable s ctx q sn 3 with
    | some p =>
      if !p.begun then s
      else
        let t := waitRead s ctx q sn p
        if p.lastRead + 1000 ≤ gtOf s (ctxDie s ctx) ∨ (packetAt t ctx q sn).any (·.worked) then t else s
    | none => s)

/-- PKT_SIGNAL (R353): the write or add, one returning atomic of system scope at the home. -/
def execPktSignal (ctx q sn : Nat) (s : State) : Out :=
  .next (match runnable s ctx q sn 4 with
    | none => s
    | some p =>
      let die := ctxDie s ctx
      let va := rec64 p.bytes 0x10
      let n := if bits (rec32 p.bytes 0x20) 1 1 = 1 then 8 else 4
      let pg := translateCp s ctx va
      if pg.st ≠ 0 ∧ pg.scope = 4 ∧ (!pg.atom ∨ (pg.served ∧ !atomicPath s ctx { t := { lane := 0, off := 0, va := va, n := n }, p := pg, key := pg.key s ctx die va })) then workFailed s ctx q sn 7
      else match dieGet s ctx die va n with
        | (.error h, s) => packetHalt s ctx q sn h
        | (.ok bs, s) => match dieHalt s ctx die va n with
          | some h => packetHalt s ctx q sn h
          | none =>
            let v := numAt p.bytes 0x18 n
            let x := if bits (rec32 p.bytes 0x20) 0 0 = 1 then (ofBytes bs + v) % 2 ^ (8 * n) else v
            let (w, s) := diePut s ctx die va (toBytes n x)
            workDone s ctx q sn w)

/-- PKT_STAGE (R353): one range staged and collapsed, until every page is ready. -/
def execPktStage (ctx q sn : Nat) (s : State) : Out :=
  .next (match runnable s ctx q sn 5 with
    | none => s
    | some p =>
      let intent := rec32 p.bytes 0x20
      let ps := pagesOfRange s ctx (rec64 p.bytes 0x10) (rec64 p.bytes 0x18)
      if ps.all (pageStaged intent) then workDone s ctx q sn 0
      else ps.foldl (fun s g => stagePage s (2 ^ 65 + (ctx * 64 + q) * 2 ^ 32 + sn) ctx intent g)
        (beginPacket s ctx q sn))

/-- PKT_INVALIDATE (10 R217): TLB entries of the range go; RANGES = 1 puts the descriptor's range entries in force
(R215), which each core loads anew; what a context update changed of PTROOT and the windows takes effect too (18 R364). The
packet's work is done once every access that may have used an older entry has been applied, and is past its WCT: stores of
groups, and writes that engines made for the context. -/
def execPktInvalidate (ctx q sn : Nat) (s : State) : Out :=
  .next (match runnable s ctx q sn 6 with
    | none => s
    | some p =>
      let len := rec64 p.bytes 0x18
      if !p.begun then
        let s := if len = 0 then { s with tlb := s.tlb.filter fun e => e.ctx ≠ ctx }
          else dropTlb s ctx (rec64 p.bytes 0x10) len
        let s := if rec32 p.bytes 0x20 % 2 = 0 then s
          else { updCtx s ctx fun c => { c with live := c.ranges } with
                 rangeTlb := s.rangeTlb.filter fun e => e.2.1 ≠ ctx }
        let s := updCtx s ctx fun c => { c with mapped := c.desc }
        let (n, s) := freshId s
        updPacket s ctx q sn fun p => { p with begun := true, lastRead := n }
      else
        let older := (s.writes.any fun e => e.1 < p.lastRead && e.2.ctx = ctx) ||
          s.ops.any fun e => e.1 < p.lastRead && e.2.ctx = ctx
        if older then s
        else workDone s ctx q sn (((ctxAt s ctx).map (·.wct)).getD 0))

/-! ## The end of a packet (R356, R362) -/

/-- DONE advanced over packets that have ended, which leave the journal (R356). -/
def advanceDone : Nat → Queue → Queue
  | 0, u => u
  | fuel + 1, u =>
    match u.journal with
    | p :: rest => if p.ended then advanceDone fuel { u with done := BitVec.ofNat 32 p.seq, journal := rest } else u
    | [] => u

/-- DONE moved on, unless the context is faulted (18 R370), and reported. -/
def settleDone (s : State) (ctx q : Nat) : State :=
  match queueAt s ctx q with
  | none => s
  | some (c, u) =>
    if c.state = .faulted then s
    else
      let v := advanceDone u.journal.length u
      if v.done = u.done then s else writeStatus (updQueue s ctx q fun _ => v) ctx q

/-- A packet ended (R356, R362): its error event, then its NOTIFY event. -/
def finishPacket (s : State) (ctx q sn err : Nat) : State :=
  let told : Bool := ctxRanks s ctx ≠ [] && (packetAt s ctx q sn).any fun p => pkNotify p.bytes
  let s := updPacket s ctx q sn fun p => { p with begun := true, worked := true, ended := true }
  let s := if err = 0 then s else packetError s ctx q sn err
  if told then postEvent s ctx (ctxDie s ctx) 3 (toBytes 4 q ++ toBytes 4 sn) else s

/-! ## Device-side launch (06 R148, R149; R351) -/

/-- A LAUNCH instruction's status token written, and its flag lowered. -/
def launchStatus (s : State) (id : Nat) (l : LaunchOp) (status info : Nat) : State :=
  let s := { s with launches := Table.del s.launches id }
  let s := updGroup s l.gid fun g =>
    { g.writeS l.reg (BitVec.ofNat 32 (status * 2 ^ 28 + info % 2 ^ 28)) with tokens := Table.sel g.tokens fun _ v => v ≠ id }
  flagDown s l.gid l.flag

/-- LAUNCH_APPEND: the packet is read, given its sequence number and check, and appended to the ring. -/
def execLaunchAppend (la : Nat) (s : State) : Out :=
  .next (match Table.look s.launches la with
    | none => s
    | some l =>
      let die := ctxDie s l.ctx
      match dieGet s l.ctx die l.va 64 with
      | (.error (.fail ..), s) => launchStatus s la l 4 0
      | (.error (.wait p va b), s) => if b = .unmapped then launchStatus s la l 4 0 else cpWaits s la l.ctx p va b
      | (.ok bs, s) =>
        if pkType bs ≠ 1 then launchStatus s la l 3 (pkType bs)
        else match queueAt s l.ctx l.queue with
          | none => launchStatus s la l 2 0
          | some (_, u) =>
            let sn := (u.kmax.toNat + 1) % 2 ^ 32
            if !u.device then launchStatus s la l 2 0
            else if 2 ^ u.log2n < (sn + 2 ^ 32 - u.accept.toNat) % 2 ^ 32 then launchStatus s la l 1 0
            else
              let filled := putBytes bs 4 (toBytes 4 sn ++ toBytes 4 0)
              let filled := putBytes filled 8 (toBytes 4 (packetCheck filled))
              match dieHalt s l.ctx die (u.slot sn) 64 with
              | some (.wait p va b) => cpWaits s la l.ctx p va b
              | some (.fail ..) => s
              | none =>
                let (_, s) := diePut s l.ctx die (u.slot sn) filled
                let s := updQueue s l.ctx l.queue fun u =>
                  { u with kmax := BitVec.ofNat 32 sn, kicked := true, lastKick := gtOf s die, lastTry := 0 }
                launchStatus s la l 0 sn)

end Sys2Proof.Machine
end

