-- ==== Sys2Proof/Machine/Snapshot.lean ====
section
/-! DEFINITION. RESYNC's snapshot and the error logs as they are written out (17 R361; 26 R441, R442). -/

namespace Sys2Proof.Machine

/-! ## Error logs (26 R441) -/

/-- An entry of an error log. -/
def LogEntry.bytes (e : LogEntry) : List Byte :=
  toBytes 8 e.gt ++ toBytes 1 e.cls ++ toBytes 1 e.kind ++ toBytes 2 e.index ++ toBytes 8 e.addr ++
    toBytes 4 e.group.toNat ++ toBytes 4 e.part.toNat ++ toBytes 4 0

/-- A die's log: its header and some of its entries, oldest first. -/
def logBytes (d : Die) (p : LogEntry → Bool) : List Byte :=
  toBytes 4 d.late ++ toBytes 4 d.ovf ++ toBytes 24 0 ++ (d.log.filter p).flatMap LogEntry.bytes

/-! ## RESYNC (17 R361) -/

/-- A context state's number in a snapshot: its place in the table of 18 R365 (log entry 30). -/
def CState.code (c : CState) : Nat :=
  match c with
  | .created => 0 | .ready => 1 | .running => 2 | .preempting => 3 | .saved => 4 | .faulted => 5 | .lost => 6
  | .destroyed => 7

/-- A kernel state's number in a snapshot: its place in 16 R344 (log entry 30). -/
def KState.code (k : KState) : Nat :=
  match k with
  | .described => 0 | .staging => 1 | .staged => 2 | .launched => 3 | .running => 4 | .draining => 5 | .complete => 6
  | .interrupted => 7

/-- A boundary's link map byte (19 R391). -/
def BndState.code (b : BndState) : Nat :=
  match b with | .absent => 0 | .training => 1 | .up => 2 | .retraining => 3 | .degraded => 4 | .failed => 5

/-- A section padded to a multiple of 64 bytes. -/
def pad64 (bs : List Byte) : List Byte := bs ++ toBytes ((bs.length + 63) / 64 * 64 - bs.length) 0

/-- QSTAT (R350). -/
def Queue.stat (u : Queue) : Nat := (if u.stalek then 2 else 0) + if u.live then 1 else 0

/-- The contexts of a partition that are not destroyed. -/
def partContexts (s : State) (part : Nat) : List (Nat × Context) :=
  s.contexts.filter fun c => c.2.part = part && c.2.state ≠ .destroyed

/-- The queues section. -/
def resyncQueues (cs : List (Nat × Context)) : List (List Byte) :=
  cs.flatMap fun c => (c.2.queues.filter fun q => q.2.live).map fun q =>
    toBytes 4 c.2.num ++ toBytes 4 q.1 ++ toBytes 4 q.2.accept.toNat ++ toBytes 4 q.2.done.toNat ++
      toBytes 4 q.2.kmax.toNat ++ toBytes 4 q.2.stat ++ toBytes 4 q.2.prio ++ toBytes 4 (if q.2.device then 1 else 0)

/-- The contexts section. -/
def resyncContexts (cs : List (Nat × Context)) : List (List Byte) :=
  cs.map fun c => toBytes 4 c.2.num ++ toBytes 4 c.2.state.code ++ toBytes 8 0

/-- An entry of the in-flight section: queue and context in one word, SEQ, TYPE, kernel state (log entry 30). -/
def flightEntry (c : Context) (q sn type kernel : Nat) : List Byte :=
  toBytes 4 (q + 65536 * c.num) ++ toBytes 4 sn ++ toBytes 4 type ++ toBytes 4 kernel

/-- The in-flight section: the packets accepted and not ended; of a lost context, those that were reported (18 R377), whose
kernels are interrupted. -/
def resyncFlight (s : State) (cs : List (Nat × Context)) : List (List Byte) :=
  cs.flatMap fun c =>
    if c.2.state = .lost then
      (s.mailLog.filter fun e => e.1 = c.1).map fun e =>
        flightEntry c.2 e.2.1 e.2.2.1 e.2.2.2 (if e.2.2.2 = 1 then KState.interrupted.code else 0)
    else c.2.queues.flatMap fun q => (q.2.journal.filter fun p => !p.ended).map fun p =>
      flightEntry c.2 q.1 p.seq (pkType p.bytes) (((p.kernel.bind (kernelAt s)).map fun k => k.state.code).getD 0)

/-- The whole snapshot of a partition. -/
def resyncBytes (s : State) (part gt : Nat) : List Byte × List Byte :=
  let cs := partContexts s part
  let qs := resyncQueues cs
  let xs := resyncContexts cs
  let fs := resyncFlight s cs
  let link := s.boundaries.map fun b => BitVec.ofNat 8 b.state.code
  let rs := ((partAt s part).map (ranks s)).getD []
  let logs := rs.flatMap fun d => ((dieAt s d).map fun x => logBytes x fun e => e.part.toNat = part).getD []
  let body := pad64 qs.flatten ++ pad64 xs.flatten ++ pad64 fs.flatten ++ pad64 link ++ pad64 logs
  let header := toBytes 4 1 ++ toBytes 4 (64 + body.length) ++ toBytes 8 gt ++ toBytes 4 qs.length ++
    toBytes 4 xs.length ++ toBytes 4 fs.length ++ toBytes 4 link.length ++ toBytes 4 (logs.length / 32)
  (pad64 header, body)

/-- PKT_RESYNC (R361). -/
def execPktResync (ctx q sn : Nat) (s : State) : Out :=
  .next (match runnable s ctx q sn 7, ctxAt s ctx with
    | some p, some c =>
      let die := ctxDie s ctx
      let (header, body) := resyncBytes s c.part (gtOf s die)
      let bs := if rec64 p.bytes 0x18 < 64 + body.length then header else header ++ body
      match dieHalt s ctx die (rec64 p.bytes 0x10) bs.length with
      | some h => packetHalt s ctx q sn h
      | none =>
        let (w, s) := diePut s ctx die (rec64 p.bytes 0x10) bs
        workDone s ctx q sn w
    | _, _ => s)

end Sys2Proof.Machine
end

