-- ==== Sys2Proof/Machine/Context.lean ====
section
/-! DEFINITION. The provider's commands: partitions, contexts, their saving and destruction, the mailboxes (18 R363 to
R366, R370, R377; 26 R442). -/

namespace Sys2Proof.Machine

/-! ## Mailboxes (R364) -/

/-- A mailbox: the PF's for VF number 0, else that VF's. -/
def mailboxOf (s : State) (vf : Nat) : Mailbox := if vf = 0 then s.mailbox else Table.rd s.vfMail .reset vf

/-- The state with a mailbox changed. -/
def updMailbox (s : State) (vf : Nat) (f : Mailbox → Mailbox) : State :=
  if vf = 0 then { s with mailbox := f s.mailbox }
  else { s with vfMail := Table.wr s.vfMail .reset vf (f (Table.rd s.vfMail .reset vf)) }

/-- What a command answers: a RESULT, one with a value in word 15, or that it goes on. -/
inductive Answer where
  | done (result : Nat)
  | value (x : Nat)
  | goesOn (ctx : Nat)

/-- A command submitted (R364): ignored while BUSY is set, and a VF's mailbox admits only `allowed` ones. -/
def submit (s : State) (vf : Nat) (allowed : Bool) (act : State → Answer × State) : State :=
  if (mailboxOf s vf).busy then s
  else if !allowed then updMailbox s vf fun m => { m with result := 1 }
  else
    let (a, s) := act s
    updMailbox s vf fun m =>
      match a with
      | .done r => { m with result := BitVec.ofNat 8 r }
      | .value x => { m with result := 0, words := Table.wr m.words 0 15 (BitVec.ofNat 32 x) }
      | .goesOn c => { m with busy := true, waiting := some c }

/-- MAILBOX_UNKNOWN_CODE: RESULT 1, and nothing changes. -/
def execMailboxUnknownCode (vf code : Nat) (s : State) : Out :=
  .next (if 1 ≤ code ∧ code ≤ 9 then s else submit s vf true fun s => (.done 1, s))

/-! ## Partitions -/

/-- The positions of a rectangle. -/
def rectangle (x0 y0 w h : Nat) : List Nat :=
  (List.range 36).filter fun d => decide (x0 ≤ dieX d ∧ dieX d < x0 + w ∧ y0 ≤ dieY d ∧ dieY d < y0 + h)

/-- The die that PCREATE reserves for the second journal copies of a partition of one active die (17 R355): the nearest active
die outside, in hops, ties going to the lower index (log entry 58). -/
def reserveDie (s : State) (ds : List Nat) : Option Nat :=
  match ds.filter (dieActive s) with
  | [d] =>
    let h := hopsTo s d
    let away := (List.range 36).filterMap fun x => if ds.contains x then none else (hopsOf h x).map fun n => (n, x)
    ((sortBy (fun (x y : Nat × Nat) => decide (x.1 < y.1 ∨ (x.1 = y.1 ∧ x.2 < y.2))) away).head?).map (·.2)
  | _ => none

/-- PCREATE: bounds, an active die and STARV, then idle positions. -/
def makePartition (x0 y0 w h starv : Nat) (s : State) : Answer × State :=
  let ds := rectangle x0 y0 w h
  if !decide (1 ≤ w ∧ w ≤ 6 ∧ 1 ≤ h ∧ h ≤ 6 ∧ x0 + w ≤ 6 ∧ y0 + h ≤ 6) ∨ !ds.any (dieActive s) ∨
      starv < 100 ∨ 100000 < starv then (.done 1, s)
  else if s.partitions.any fun p => ds.any p.2.holds then (.done 4, s)
  else
    let n := 6 * y0 + x0
    let p : Partition :=
      { x0 := x0, y0 := y0, w := w, h := h, starv := starv, keys := [(0, Config.freshKey s.choices)]
        nonce := Config.freshNonce s.choices, edKey := none, mlKey := none, passport := none
        reserve := reserveDie s ds, gone := [], closing := false }
    (.value n, rekey { s with partitions := Table.ins s.partitions n p }
      fun k => decide (keyTier k = 0) && ds.contains (k / 2 ^ 36))

/-- PCREATE. -/
def execPcreate (vf x0 y0 w h starv : Nat) (s : State) : Out :=
  .next (submit s vf (vf = 0) (makePartition x0 y0 w h starv))

/-! ## Destroying contexts (R366, R370) -/

/-- Whether a destroyed or lost context has a kernel whose completion record is still to come. -/
def owesRecords (s : State) (ctx : Nat) : Bool := s.kernels.any fun e => e.2.ctx = ctx && !e.2.isEnded

/-- Whether a context's packets have all ended and its kernels have written their records. -/
def nothingOwed (s : State) (ctx : Nat) : Bool :=
  !owesRecords s ctx && (ctxAt s ctx).any fun c => c.queues.all fun q => q.2.journal.all fun p => p.ended

/-- A destroyed context's last steps (R366 steps 6 and 7), once its records are written and DONE has passed
its packets (R370); its number is free. A partition that closes goes with its last context. -/
def settleDestroyed (s : State) (ctx : Nat) : State :=
  match ctxAt s ctx with
  | none => s
  | some c =>
    if c.state ≠ .destroyed ∨ !nothingOwed s ctx then s
    else
      let copies := [rec64 c.desc 0x010, rec64 c.desc 0x018]
      let n := rec64 c.desc 0x020
      let s := { s with
        mem := s.mem.filter fun x => !copies.any fun a => decide (a ≤ x.1 ∧ x.1 < a + n)
        partitions := Table.upd s.partitions c.part fun p => { p with gone := dedup (c.num :: p.gone) }
        tlb := s.tlb.filter fun e => e.ctx ≠ ctx
        rangeTlb := s.rangeTlb.filter fun e => e.2.1 ≠ ctx
        icache := Table.sel s.icache fun key _ => key / 2 ^ 56 % 2 ^ 12 ≠ ctx
        jobs := Table.sel s.jobs fun _ j => j.ctx ≠ ctx
        kernels := Table.sel s.kernels fun _ k => k.ctx ≠ ctx
        contexts := Table.del s.contexts ctx }
      let others := s.contexts.any fun e => e.2.part = c.part
      let s := match partAt s c.part with
        | some p => if p.closing ∧ !others then { s with partitions := Table.del s.partitions c.part } else s
        | none => s
      let isClosing := (partAt s c.part).any (·.closing)
      let s := if isClosing then s else answerMail s ctx 0
      if (partAt s c.part).isNone then answerMail s (4096 + c.part) 0 else s

/-- Every unfinished packet of a context other than a LAUNCH ends with an error event; a LAUNCH's kernel is interrupted
with a code and its completion record is written (R366, R370, R377). -/
def reportPackets (s : State) (ctx cause code info : Nat) : State :=
  match ctxAt s ctx with
  | none => s
  | some c =>
    let open_ := c.queues.flatMap fun q => (q.2.journal.filter fun p => !p.ended && p.kernel.isNone).map fun p => (q.1, p)
    let s := open_.foldl (fun s x => finishPacket s ctx x.1 x.2.seq (if x.2.err = 0 then cause else x.2.err)) s
    let ks := s.kernels.filter fun e => e.2.ctx = ctx && !e.2.isEnded
    ks.foldl (fun s e =>
      let s := interrupt s e.1 code info
      match kernelAt s e.1 with | some k => writeCompletion s e.1 k | none => s) s

/-- Everything that runs for a context stopped (R366 steps 1 to 3; 20 R419): its groups, engines and Courier instances,
with no token or flag written. -/
def stopContext (s : State) (ctx : Nat) : State :=
  let ks := s.kernels.filter fun e => e.2.ctx = ctx
  let s := ks.foldl (fun s e => updKernel s e.1 fun k => { k with state := .interrupted, pendingGroups := [] }) s
  let gs := s.groups.filter fun g => ks.any fun e => e.1 = g.2.kernel
  let s := gs.foldl (fun s g => discardGroup s g.1) s
  stopEngines s ctx

/-- CDESTROY's effect on a context (R366). -/
def destroyContext (s : State) (ctx : Nat) : State :=
  match ctxAt s ctx with
  | none => s
  | some c =>
    if c.state = .destroyed then s
    else
      let s := answerMail (updCtx (stopContext s ctx) ctx fun c => { c with state := .destroyed }) (csaveKey ctx) 2
      let (_, s) := writeBackCtx s ctx
      let s := reportPackets s ctx 10 5 0
      let s := c.queues.foldl (fun s q => settleDone s ctx q.1) s
      let s := if c.tdi = .error ∧ !s.tdiErrors.contains c.vf then { s with tdiErrors := c.vf :: s.tdiErrors } else s
      let s := updCtx s ctx fun c => { c with nets := [], tdi := .unlocked, ide := [] }
      settleDestroyed s ctx

/-- A mailbox command that may go on: its wait is noted first, so that what follows can answer it. -/
def submitWait (s : State) (vf : Nat) (allowed : Bool) (key : Nat) (refusal : State → Option Nat) (act : State → State) :
    State :=
  if (mailboxOf s vf).busy then s
  else if !allowed then updMailbox s vf fun m => { m with result := 1 }
  else match refusal s with
    | some r => updMailbox s vf fun m => { m with result := BitVec.ofNat 8 r }
    | none => act (updMailbox s vf fun m => { m with busy := true, waiting := some key })

/-- PDESTROY: every context destroyed, the keys erased, the positions idle. -/
def destroyPartition (s : State) (p : Nat) : State :=
  match partAt s p with
  | none => s
  | some _ =>
    let s := { s with partitions := Table.upd s.partitions p fun x =>
                 { x with closing := true, keys := x.keys.filter fun k => k.1 = 0, passport := none } }
    let cs := (s.contexts.filter fun e => e.2.part = p).map (·.1)
    let s := cs.foldl destroyContext s
    if s.contexts.any fun e => e.2.part = p then s
    else
      let s := { s with partitions := Table.del s.partitions p }
      answerMail s (4096 + p) 0

/-- PDESTROY. -/
def execPdestroy (vf p : Nat) (s : State) : Out :=
  .next (submitWait s vf (vf = 0) (4096 + p) (fun s => if (partAt s p).isNone then some 1 else none)
    fun s => destroyPartition s p)

/-! ## Descriptors (R363) -/

/-- The key of a context: its partition and its number. -/
def ctxKey (p n : Nat) : Nat := p * 16 + n

/-- A number that no context has: the provider's accesses are of none. -/
def noCtx : Nat := 4096

/-- Bytes of host memory at a host-physical address (09 R187). -/
def hostBytes (s : State) (a n : Nat) : List Byte × State := engineRead s noCtx s.root (physKey 1 a) n

/-- Bytes written to host memory. -/
def hostPut (s : State) (a : Nat) (bs : List Byte) : State := (engineWrite s noCtx s.root (physKey 1 a) bs).2

/-- A queue descriptor of QTAB. -/
def qdesc (tab : List Byte) (q : Nat) : List Byte := (tab.drop (32 * q)).take 32

/-- Whether a queue descriptor says LIVE. -/
def qLive (d : List Byte) : Bool := bits (rec32 d 8) 31 31 = 1

/-- Whether a queue descriptor's fields are in range (R349, R363). -/
def qdescOk (d : List Byte) : Bool :=
  let w := rec32 d 8
  !qLive d || decide (rec64 d 0 % 64 = 0 ∧ 4 ≤ bits w 4 0 ∧ bits w 4 0 ≤ 16 ∧ 1 ≤ bits w 23 16 ∧ bits w 7 5 = 0 ∧
    bits w 15 11 = 0 ∧ bits w 30 25 = 0 ∧ 1 ≤ rec32 d 12 ∧ rec32 d 12 < 65536 ∧ rec64 d 16 % 16 = 0 ∧ rec64 d 24 = 0)

/-- Whether a save copy's address names a frame of an active die of the partition (R213). -/
def saveAddrOk (s : State) (p : Partition) (a : Nat) : Bool :=
  decide (a % 65536 = 0 ∧ a < 2 ^ 42) && p.holds (a / 2 ^ 36) && dieActive s (a / 2 ^ 36)

/-- Whether the staging pool's table lies in tier 0 (R363); one without entries is not looked at. -/
def poolAddrOk (s : State) (p : Partition) (d : List Byte) : Bool :=
  let a := rec64 d 0x028
  decide (a % 64 = 0 ∧ a < 2 ^ 42) && (rec32 d 0x030 = 0 || (p.holds (a / 2 ^ 36) && dieActive s (a / 2 ^ 36)))

/-- Whether the save copies lie on different dies, or in other pseudo-channels in a partition of one die (R363). -/
def copiesApart (s : State) (p : Partition) (d : List Byte) : Bool :=
  let a := rec64 d 0x010
  let b := rec64 d 0x018
  let n := rec64 d 0x020 - 1
  decide (a / 2 ^ 36 ≠ b / 2 ^ 36) ||
    (decide ((ranks s p).length = 1) && decide (channelOf (a + n) < channelOf b ∨ channelOf (b + n) < channelOf a))

/-- Whether a context descriptor is well formed (R363). -/
def descOk (s : State) (p : Partition) (d : List Byte) : Bool :=
  let id := rec32 d 4
  let ev := rec32 d 0x048
  let wins := (List.range 4).filterMap fun i =>
    let w := (rec64 d (0x080 + 16 * i), rec64 d (0x088 + 16 * i))
    if w.1 < w.2 then some w else none
  let numbered := wins.mapIdx fun i w => (i, w)
  decide (rec32 d 0 = 1 ∧ bits id 7 4 = 0 ∧ bits id 31 16 = 0 ∧ 1 ≤ bits id 15 8) &&
  decide (rec64 d 0x008 % 65536 = 0 ∧ rec64 d 0x020 % 65536 = 0 ∧ 2 ^ 20 ≤ rec64 d 0x020) &&
  saveAddrOk s p (rec64 d 0x010) && saveAddrOk s p (rec64 d 0x018) &&
  copiesApart s p d && poolAddrOk s p d && decide (rec32 d 0x030 ≤ 65536 ∧ rec32 d 0x034 = 0 ∧ rec64 d 0x038 % 32 = 0) &&
  decide (rec64 d 0x040 % 32 = 0 ∧ 16 ≤ ev ∧ ev ≤ 65536 ∧ 2 ^ Nat.log2 ev = ev ∧ rec32 d 0x04C = 0) &&
  decide (rec64 d 0x050 % 8 = 0 ∧ rec64 d 0x060 % 4 = 0) &&
  (((d.drop 0x068).take 24).all fun x => decide (x = 0)) && (((d.drop 0x0C0).take 832).all fun x => decide (x = 0)) &&
  numbered.all fun x => numbered.all fun y =>
    decide (x.1 = y.1 ∨ x.2.2 ≤ y.2.1 ∨ y.2.2 ≤ x.2.1)

/-- The range entries of a descriptor (10 R215). -/
def descRanges (d : List Byte) : List RangeEntry :=
  (List.range 32).map fun i =>
    let w (j : Nat) : DWord := BitVec.ofNat 64 (rec64 d (0x400 + 32 * i + 8 * j))
    { base := w 0, limit := w 1, offset := w 2, attr := w 3 }

/-- The queues of a context from its queue table: those that go on keep their stamps; those that end are no more. -/
def descQueues (tab : List Byte) (old : Table Queue) : Table Queue :=
  (List.range 64).filterMap fun q =>
    let d := qdesc tab q
    let w := rec32 d 8
    let blank : Queue :=
      { ring := 0, log2n := 4, prio := 0, weight := 1, stale := 100, device := false, statusAt := 0, live := true
        accept := 0, done := 0, kmax := 0, lastKick := 0, kicked := false, lastTry := 0, stalek := false, oneTry := false, journal := []
        served := 0 }
    let u := (Table.look old q).getD blank
    if !qLive d then none
    else some (q, { u with
      ring := BitVec.ofNat 64 (rec64 d 0), log2n := bits w 4 0, prio := bits w 10 8, weight := bits w 23 16
      device := bits w 24 24 = 1, stale := rec32 d 12, statusAt := BitVec.ofNat 64 (rec64 d 16) })

/-- A descriptor with its queue table, read from host memory. -/
def readDesc (s : State) (addr : Nat) : List Byte × List Byte × State :=
  let (d, s) := hostBytes s addr 2048
  let (t, s) := hostBytes s (rec64 d 0x038) 2048
  (d, t, s)

/-- TVEC as software writes it: bits [1:0] read zero (R367). -/
def tvecOf (d : List Byte) : DWord := BitVec.ofNat 64 (rec64 d 0x058 / 4 * 4)

/-- CCREATE's effect. -/
def makeContext (p addr : Nat) (s : State) : Answer × State :=
  match partAt s p with
  | none => (.done 1, s)
  | some x =>
    if addr % 2048 ≠ 0 ∨ x.closing then (.done 1, s)
    else
      let (d, tab, s) := readDesc s addr
      let num := bits (rec32 d 4) 3 0
      let vf := bits (rec32 d 4) 15 8
      let held := s.contexts.any fun c => c.2.part = p && c.2.state ≠ .destroyed && (c.2.num = num || c.2.vf = vf)
      if !descOk s x d ∨ !(List.range 64).all (fun q => qdescOk (qdesc tab q)) ∨ held then (.done 1, s)
      else if (ctxAt s (ctxKey p num)).isSome then (.done 4, s)
      else
        let c : Context :=
          { part := p, num := num, vf := vf, state := .created, desc := d, tvec := tvecOf d, lease := 0x102008
            fairt := 1000, rngctl := 0, rngbase := 0, rngseg := 0, opaq := 0x3F7F0000, gwin := 256, dens := 0x2000
            outl := 0x400, hotthr := 192, trcb := 0, trcsz := 0, trcpos := 0, ranges := descRanges d
            mapped := d, live := descRanges d, wct := 0, cpWct := 0, saved := none
            queues := descQueues tab [], nets := [], evProd := 0, evOver := 0, saveABad := false, saveBBad := false
            tdi := if s.tdiErrors.contains vf then .error else .unlocked, ide := [] }
        (.done 0, { s with contexts := Table.ins s.contexts (ctxKey p num) c
                           partitions := Table.upd s.partitions p fun x => { x with gone := x.gone.filter (· ≠ num) } })

/-- CCREATE. -/
def execCcreate (vf p addr : Nat) (s : State) : Out := .next (submit s vf (vf = 0) (makeContext p addr))

/-- A record whose new copy A or B, at the place that the new descriptor names, takes what the other copy holds; what that
does not give stays lost (R375). -/
def mirrored (s : State) (old new_ : Context) (newA newB : Bool) (r : SaveRec) : SaveRec :=
  { r with
    badA := if newA then recordBad s old true r else r.badA
    badB := if newB then recordBad s old false r else r.badB
    textA := if newA then copyText s new_ false r else r.textA
    textB := if newB then copyText s new_ true r else r.textB }

/-- CUPDATE's effect: every field but IDENT, and SAVEA or SAVEB only where that copy has failed (R364, R375). A new frame for
a failed copy takes what the other copy holds of each record; what neither holds stays lost. -/
def reloadContext (fromPf : Bool) (p n addr : Nat) (s : State) : Answer × State :=
  let ctx := ctxKey p n
  match if n < 16 then ctxAt s ctx else none, partAt s p with
  | some c, some x =>
    if c.state = .destroyed ∨ c.state = .lost then (.done 2, s)
    else if fromPf ∧ c.tdi ≠ .unlocked then (.done 3, s)
    else if addr % 2048 ≠ 0 then (.done 1, s)
    else
      let (d, tab, s) := readDesc s addr
      let a := if c.saveABad then rec64 d 0x010 else rec64 c.desc 0x010
      let b := if c.saveBBad then rec64 d 0x018 else rec64 c.desc 0x018
      let d := putBytes d 0x004 (toBytes 4 (rec32 c.desc 0x004) ++ toBytes 8 (rec64 d 0x008) ++ toBytes 8 a ++ toBytes 8 b)
      if !descOk s x d ∨ !(List.range 64).all (fun q => qdescOk (qdesc tab q)) then (.done 1, s)
      else
        let newA : Bool := c.saveABad && decide (a ≠ rec64 c.desc 0x010)
        let newB : Bool := c.saveBBad && decide (b ≠ rec64 c.desc 0x018)
        let s := { s with saves := s.saves.map fun r => if r.ctx = ctx then mirrored s c { c with desc := d } newA newB r else r }
        (.done 0, updCtx s ctx fun c =>
          { c with desc := d, tvec := tvecOf d, ranges := descRanges d, queues := descQueues tab c.queues
                   saveABad := c.saveABad && !newA, saveBBad := c.saveBBad && !newB })
  | _, _ => (.done 1, s)

/-- CUPDATE: from the PF, or from the VF of the context itself. -/
def execCupdate (vf p n addr : Nat) (s : State) : Out :=
  .next (submit s vf (vf = 0 || (n < 16 && (ctxAt s (ctxKey p n)).any fun c => c.vf = vf)) (reloadContext (vf = 0) p n addr))

/-! ## States (R365, R366) -/

/-- The context that a command's operand names: a number from 0 to 15 in a partition. -/
def namedCtx (s : State) (p n : Nat) : Option Context := if n < 16 then ctxAt s (ctxKey p n) else none

/-- The RESULT of an event of R366 for an operand that names no context: 2 for a destroyed one (log entry 59), else 1. -/
def noCtxResult (s : State) (p n : Nat) : Nat := if (partAt s p).any fun x => n < 16 && x.gone.contains n then 2 else 1

/-- CRUN's effect. -/
def runContext (p n : Nat) (s : State) : Answer × State :=
  match namedCtx s p n with
  | none => (.done (noCtxResult s p n), s)
  | some c =>
    if c.tdi ≠ .unlocked then (.done 3, s)
    else if c.state ≠ .created then (.done 2, s)
    else (.done 0, updCtx s (ctxKey p n) fun c => { c with state := .ready })

/-- CRUN. -/
def execCrun (vf p n : Nat) (s : State) : Out := .next (submit s vf (vf = 0) (runContext p n))

/-- CSAVE: no gang is placed any more and every resident group is saved; the answer comes with the last. -/
def execCsave (vf p n : Nat) (s : State) : Out :=
  let ctx := ctxKey p n
  .next (submitWait s vf (vf = 0) (csaveKey ctx) (fun s => match namedCtx s p n with
      | none => some (noCtxResult s p n)
      | some c => if c.state = .ready ∨ c.state = .running then none else some 2)
    fun s => settleCtx (updCtx s ctx fun c => { c with state := .preempting }) ctx)

/-- CRESTORE's effect. -/
def resumeContext (p n : Nat) (s : State) : Answer × State :=
  match namedCtx s p n with
  | none => (.done (noCtxResult s p n), s)
  | some c => if c.state ≠ .saved then (.done 2, s)
    else (.done 0, updCtx s (ctxKey p n) fun c => { c with state := .ready })

/-- CRESTORE. -/
def execCrestore (vf p n : Nat) (s : State) : Out := .next (submit s vf (vf = 0) (resumeContext p n))

/-- CDESTROY. -/
def execCdestroy (vf p n : Nat) (s : State) : Out :=
  let ctx := ctxKey p n
  .next (submitWait s vf (vf = 0) ctx (fun s => match namedCtx s p n with
      | none => some (noCtxResult s p n)
      | some c => if c.state = .destroyed then some 2 else none)
    fun s => destroyContext s ctx)

/-! ## LOGREAD and register writes (26 R442; 00 R6; 17 R350) -/

/-- LOGREAD's effect. -/
def writeLog (die addr : Nat) (s : State) : Answer × State :=
  match dieAt s die with
  | some d => if d.active ∧ addr % 64 = 0 then (.done 0, hostPut s addr (logBytes d fun _ => true)) else (.done 1, s)
  | none => (.done 1, s)

/-- LOGREAD. -/
def execLogread (vf die addr : Nat) (s : State) : Out := .next (submit s vf (vf = 0) (writeLog die addr))

/-- The command in a command block, the PF's (0) or a virtual function's, as a write of 1 to MBDOOR submits it (R364). -/
def runMailbox (vf : Nat) (s : State) : Out :=
  let w (j : Nat) : Nat := (Table.rd (mailboxOf s vf).words 0 j).toNat
  let a (j : Nat) : Nat := w j + 2 ^ 32 * w (j + 1)
  match w 0 % 256 with
  | 1 => execPcreate vf (w 1) (w 2) (w 3) (w 4) (w 5) s
  | 2 => execPdestroy vf (w 1) s
  | 3 => execCcreate vf (w 1) (a 2) s
  | 4 => execCupdate vf (w 1) (w 2) (a 3) s
  | 5 => execCrun vf (w 1) (w 2) s
  | 6 => execCsave vf (w 1) (w 2) s
  | 7 => execCrestore vf (w 1) (w 2) s
  | 8 => execCdestroy vf (w 1) (w 2) s
  | 9 => execLogread vf (w 1) (a 2) s
  | c => execMailboxUnknownCode vf c s

/-- REGISTER_WRITE (00 R6): read-only registers ignore it, QSTAT's STALEK clears where 1 is written, the command block
holds what is written. -/
def execRegisterWrite (reg : RegTarget) (val : Word) (s : State) : Out :=
  match reg with
  | .qstat ctx q => .next (updQueue s ctx q fun u => { u with stalek := u.stalek && !val.getLsbD 1 })
  | .mailboxWord vf i =>
    .next (if i < 16 then updMailbox s vf fun m => { m with words := Table.wr m.words 0 i val } else s)
  | .mbdoor vf => if val = 1 then runMailbox vf s else .next s
  | .accept _ _ => .next s
  | .done _ _ => .next s
  | .mbstat _ => .next s
  | .buact0 => .next s
  | .buact1 => .next s
  | .linkControl k =>
    .next { s with hostLinks := s.hostLinks.mapIdx fun i l => if i = k then
              { l with requester := val.getLsbD 0, completer := val.getLsbD 3, cxl := val.getLsbD 1, training := !val.getLsbD 2 }
            else l }

end Sys2Proof.Machine
end

