-- ==== Sys2Proof/Machine/Ends.lean ====
section
/-! DEFINITION. The end of a kernel and of a packet, and what waits for them: a lost or destroyed context's last steps (16
R346, R347; 17 R356, R362; 18 R366, R377). -/

namespace Sys2Proof.Machine

/-- What follows for a context that is lost with a TDI bound to it, which ERROR destroys once its packets are reported
(R377, R382), or that is destroyed. -/
def settleLost (s : State) (ctx : Nat) : State :=
  match ctxAt s ctx with
  | none => s
  | some c =>
    if c.state = .lost ∧ c.tdi = .error ∧ nothingOwed s ctx then destroyContext s ctx else settleDestroyed s ctx

/-- The latest WCT of a kernel's writes so far (R346): those acknowledged, those applied, those of its commands. -/
def kernelWct (s : State) (kid : Nat) (k : Kernel) : Nat :=
  maxOf (k.wct :: (s.writes.filter fun e => e.2.kernel = kid).map fun e => e.2.wct.getD 0)

/-- KERNEL_COMPLETE (R346, R347): the write-back, the wait for its completion times, the completion record. -/
def execKernelComplete (k : Nat) (s : State) : Out :=
  .next (
    let s := settleKernel s k
    match kernelAt s k with
    | none => s
    | some x =>
      let faulted := (ctxAt s x.ctx).any fun c => c.state = .faulted
      if x.isEnded ∨ faulted then s
      else
        let t :=
          if x.state = .draining ∨ (x.state = .interrupted ∧ (x.code = 1 ∨ x.code = 2)) then
            let (w, s) := writeBackCtx s x.ctx
            let w := max w (kernelWct s k x)
            let s := updKernel s k fun x => { x with wct := w }
            if s.writes.any (fun e => e.2.kernel = k && e.2.wct.isNone) then s
            else if w ≠ 0 ∧ kernelGt s x ≤ w then s
            else writeCompletion s k x
          else if x.state = .interrupted then writeCompletion s k x
          else s
        settleLost t x.ctx)

/-- A fibre once an INVALIDATE over a range has ended; `len` 0 means every address (10 R218). -/
def mapFibre (base len : Nat) (f : Fibre) : Fibre :=
  match f.state with
  | .aborted ps => { f with state := .aborted (ps.map fun p =>
      (p.1, p.2.1, p.2.2 && !(len = 0 || decide (base ≤ p.1 ∧ p.1 < base + len)))) }
  | _ => f

/-- The aborted fibres of a context once an INVALIDATE packet has ended (10 R218). -/
def mapFibres (s : State) (ctx : Nat) (p : Packet) : State :=
  if pkType p.bytes ≠ 6 ∨ p.err ≠ 0 then s
  else { s with groups := s.groups.map fun e =>
    if (kernelAt s e.2.kernel).any (fun k => k.ctx = ctx) then
      (e.1, { e.2 with fibres := e.2.fibres.map fun f =>
        (f.1, mapFibre (rec64 p.bytes 0x10) (rec64 p.bytes 0x18) f.2) })
    else e }

/-- PACKET_END (R356, R362): the error event, the NOTIFY event, DONE. A lost context's packet that has not ended and is no
LAUNCH is reported (R377). -/
def execPacketEnd (ctx q sn : Nat) (s : State) : Out :=
  .next (match packetAt s ctx q sn with
    | none => settleLost s ctx
    | some p =>
      let isLost := (ctxAt s ctx).any fun c => c.state = .lost
      if isLost ∧ !p.ended ∧ p.kernel.isNone then
        settleLost (settleDone (finishPacket s ctx q sn (if p.err = 0 then 9 else p.err)) ctx q) ctx
      else if !p.worked ∨ p.ended ∨ (ctxRanks s ctx ≠ [] ∧ p.wct ≠ 0 ∧ gtOf s (ctxDie s ctx) ≤ p.wct) then settleLost (settleDone s ctx q) ctx
      else
        settleLost (settleDone (finishPacket (mapFibres s ctx p) ctx q sn p.err) ctx q) ctx)

end Sys2Proof.Machine
end

