-- ==== Sys2Proof/Machine/Collective.lean ====
section
/-! DEFINITION. Collective programs as data: descriptors, steps, peers, reductions, sparse buffers (20 R402 to R412). -/

namespace Sys2Proof.Machine

/-! ## Descriptors (R402) -/

/-- The number of steps. -/
def progSteps (d : List Byte) : Nat := bits (rec32 d 4) 11 0 + 1
/-- ROOT. -/
def progRoot (d : List Byte) : Nat := bits (rec32 d 4) 21 16

/-- Whether a descriptor read for a partition of `n` ranks meets R402. -/
def progOk (n : Nat) (d : List Byte) : Bool :=
  decide (rec32 d 0 = 1 ∧ bits (rec32 d 4) 15 12 = 0 ∧ bits (rec32 d 4) 31 22 = 0 ∧ progRoot d < n ∧ rec64 d 8 % 8 = 0) &&
  ((List.range 6).all fun j => decide (rec64 d (0x10 + 8 * j) = 0)) &&
  ((List.range 16).all fun j => decide (rec64 d (0x40 + 8 * j) % 64 = 0))

/-- Address register Ak at a rank. -/
def progAddr (d : List Byte) (k rank : Nat) : Nat :=
  (rec64 d (0x40 + 16 * k) + rank * rec64 d (0x48 + 16 * k)) % 2 ^ 64

/-- The step list that bytes hold. -/
def progWords (bs : List Byte) : List DWord :=
  (List.range (bs.length / 8)).map fun j => BitVec.ofNat 64 (rec64 bs (8 * j))

/-! ## Steps (R404, R405) -/

/-- A step's bits. -/
def stBits (w : DWord) (hi lo : Nat) : Nat := bits w.toNat hi lo
/-- KIND. -/
def stKind (w : DWord) : Nat := stBits w 63 60
/-- TG. -/
def stTrig (w : DWord) : Bool := w.getLsbD 59
/-- NC. -/
def stNc (w : DWord) : Nat := stBits w 58 55
/-- RTYPE. -/
def stRtype (w : DWord) : Nat := stBits w 54 52
/-- SP. -/
def stSparse (w : DWord) : Bool := w.getLsbD 51
/-- AREG. -/
def stA (w : DWord) : Nat := stBits w 50 48
/-- BREG. -/
def stB (w : DWord) : Nat := stBits w 47 45
/-- What IX adds for a loop index. -/
def stIndex (w : DWord) (i : Nat) : Nat := if w.getLsbD 44 then i else 0
/-- The size m of a step in bytes. -/
def stSize (w : DWord) : Nat := 64 * (stBits w 43 32 + 1)
/-- The byte offset o of a step. -/
def stOff (w : DWord) (i : Nat) : Nat := 64 * (stBits w 15 0 + stIndex w i * (stBits w 43 32 + 1))
/-- The threshold of a RECV or an ARM. -/
def stThreshold (w : DWord) (i : Nat) : Nat := stBits w 31 0 + stIndex w i

/-- The bits between KIND and bit 0 that a kind uses, as (high, low) fields (R405); `none` for a reserved kind. -/
def stUsed (kind : Nat) : Option (List (Nat × Nat)) :=
  match kind with
  | 0 => some [(59, 59), (58, 55), (51, 51), (50, 48), (47, 45), (44, 44), (43, 32), (31, 16), (15, 0)]
  | 1 => some [(58, 55), (44, 44), (31, 0)]
  | 2 => some [(59, 59), (58, 55), (54, 52), (51, 51), (50, 48), (47, 45), (44, 44), (43, 32), (31, 16), (15, 0)]
  | 3 => some [(59, 59), (54, 52), (51, 51), (50, 48), (47, 45), (44, 44), (43, 32), (15, 0)]
  | 4 => some [(59, 59), (50, 48), (47, 45), (44, 44), (43, 32), (15, 0)]
  | 5 => some []
  | 6 => some [(15, 0)]
  | 7 => some []
  | 8 => some [(58, 55), (44, 44), (43, 32), (31, 0)]
  | 9 => some [(47, 45), (31, 0)]
  | 10 => some []
  | _ => none

/-- Whether a step's word is well formed by itself: its kind, its unused fields, its RTYPE (R404, R405, R409). -/
def stWordOk (w : DWord) : Bool :=
  match stUsed (stKind w) with
  | none => false
  | some fs =>
    ((List.range 60).all fun b => !w.getLsbD b || fs.any fun f => decide (f.2 ≤ b ∧ b ≤ f.1)) &&
    (decide (stKind w ≠ 2 ∧ stKind w ≠ 3) || (decide (stRtype w ≠ 0) && (!stSparse w || decide (stRtype w = 1))))

/-! ## Peers (R406, R414) -/

/-- What a step's PEER names. -/
inductive Peer where
  /-- A rank, with the landing slot's number p. -/
  | rank (r slot : Nat)
  | ether (e : Nat)
  | skip
  | bad
  deriving DecidableEq, Repr

/-- The nearest active die of a partition in a direction, skipping holes, with or without wrapping. -/
def peerDie (p : Partition) (ds : List Nat) (from_ dir : Nat) (wrap : Bool) : Option Nat :=
  let line := (List.range 5).filterMap fun j =>
    let n := j + 1
    let x := dieX from_
    let y := dieY from_
    let pos : Option (Nat × Nat) := match dir with
      | 0 => if p.y0 + n ≤ y then some (x, y - n) else if wrap ∧ n < p.h then some (x, y + p.h - n) else none
      | 1 => if x + n < p.x0 + p.w then some (x + n, y) else if wrap ∧ n < p.w then some (x + n - p.w, y) else none
      | 2 => if y + n < p.y0 + p.h then some (x, y + n) else if wrap ∧ n < p.h then some (x, y + n - p.h) else none
      | _ => if p.x0 + n ≤ x then some (x - n, y) else if wrap ∧ n < p.w then some (x + p.w - n, y) else none
    pos.map fun q => 6 * q.2 + q.1
  line.find? fun d => ds.contains d && d ≠ from_

/-- A step's peer, for the instance of a rank. -/
def stPeer (p : Partition) (ds : List Nat) (root rank : Nat) (w : DWord) : Peer :=
  let n := ds.length
  let val := stBits w 29 16
  let v := (rank + n - root) % n
  match stBits w 31 30 with
  | 0 => if val < n then .rank val 0 else if 0x2000 ≤ val ∧ val ≤ 0x2003 then .ether (val - 0x2000) else .skip
  | 1 => .rank ((rank + val) % n) 0
  | 2 => if val ≤ v ∨ n ≤ v + val then .skip else .rank ((v + val + root) % n) 0
  | _ =>
    if 8 ≤ val then .bad
    else match peerDie p ds ((ds[rank]?).getD 0) (val % 4) (4 ≤ val) with
      | some d => .rank (ds.idxOf d) ((val % 4 + 2) % 4)
      | none => .skip

/-! ## Reductions (R410) -/

/-- Element operation: `none` for RTYPE 0. -/
def reduceOne (rtype a b : Nat) : Nat :=
  let sm (wantMax : Bool) : Nat := if (toSigned 32 a < toSigned 32 b) = wantMax then b else a
  match rtype with
  | 1 => roundTo .fp32 0 false 0 (Ext.add false (Fmt.fp32.value a) (Fmt.fp32.value b))
  | 2 => roundTo .bf16 0 false 0 (Ext.add false (Fmt.bf16.value a) (Fmt.bf16.value b))
  | 3 => (a + b) % 2 ^ 32
  | 4 => minMax .fp32 true a b
  | 5 => minMax .fp32 false a b
  | 6 => sm true
  | _ => sm false

/-- Element by element, the local operand first. -/
def reduceBytes (rtype : Nat) (xs ys : List Byte) : List Byte :=
  let n := if rtype = 2 then 2 else 4
  (List.range (xs.length / n)).flatMap fun j => toBytes n (reduceOne rtype (numAt xs (n * j) n) (numAt ys (n * j) n))

/-! ## Sparse buffers (R411, R412) -/

/-- A sparse buffer's content: E, and its pairs or its dense values. -/
structure Sparse where
  e : Nat
  dense : Bool
  pairs : List (Nat × Nat)
  values : List Nat
  deriving DecidableEq, Repr

/-- The bytes that a sparse buffer's header says it holds, header included. -/
def sparseLen (h : List Byte) : Nat := 64 + (if rec32 h 8 = 1 then 4 * rec32 h 4 else 8 * rec32 h 0)

/-- Whether a sparse buffer's header is good for a buffer of m bytes. -/
def sparseHeadOk (m : Nat) (h : List Byte) : Bool :=
  decide (rec32 h 8 ≤ 1 ∧ 64 + 4 * rec32 h 4 ≤ m ∧ sparseLen h ≤ m)

/-- Whether indices are strictly ascending and below E. -/
def ascending (e : Nat) : List (Nat × Nat) → Bool
  | x :: y :: rest => decide (x.1 < y.1) && ascending e (y :: rest)
  | [x] => decide (x.1 < e)
  | [] => true

/-- A buffer's content, from the bytes that its header says it holds; `none` when it is bad. -/
def sparseOf (bs : List Byte) : Option Sparse :=
  let e := rec32 bs 4
  if rec32 bs 8 = 1 then
    some { e := e, dense := true, pairs := [], values := (List.range e).map fun j => rec32 bs (64 + 4 * j) }
  else
    let ps := (List.range (rec32 bs 0)).map fun j => (rec32 bs (64 + 8 * j), rec32 bs (68 + 8 * j))
    if ascending e ps then some { e := e, dense := false, pairs := ps, values := [] } else none

/-- The FP32 value of an element: +0 where the pairs do not hold it. -/
def Sparse.at (x : Sparse) (j : Nat) : Nat :=
  if x.dense then (x.values[j]?).getD 0 else ((x.pairs.find? fun p => p.1 = j).map (·.2)).getD 0

/-- Two pair lists merged in ascending index; pairs of one index are added. `n` bounds the merge's length. -/
def mergePairs : Nat → List (Nat × Nat) → List (Nat × Nat) → List (Nat × Nat)
  | 0, _, _ => []
  | _ + 1, [], ys => ys
  | _ + 1, xs, [] => xs
  | n + 1, x :: xs, y :: ys =>
    if x.1 < y.1 then x :: mergePairs n xs (y :: ys)
    else if y.1 < x.1 then y :: mergePairs n (x :: xs) ys
    else (x.1, reduceOne 1 x.2 y.2) :: mergePairs n xs ys

/-- Local ⊕ landing under a density threshold, both of E elements. -/
def sparseSum (frac : Nat) (x y : Sparse) : Sparse :=
  let e := x.e
  if x.dense ∨ y.dense then
    { e := e, dense := true, pairs := [], values := (List.range e).map fun j => reduceOne 1 (x.at j) (y.at j) }
  else
    let ps := mergePairs (x.pairs.length + y.pairs.length) x.pairs y.pairs
    if min (frac * e / 65536) (e / 2) < ps.length then
      let z : Sparse := { e := e, dense := false, pairs := ps, values := [] }
      { e := e, dense := true, pairs := [], values := (List.range e).map z.at }
    else { e := e, dense := false, pairs := ps, values := [] }

/-- A buffer as bytes: its header and what the header says it holds. -/
def Sparse.bytes (x : Sparse) : List Byte :=
  toBytes 4 x.pairs.length ++ toBytes 4 x.e ++ toBytes 4 (if x.dense then 1 else 0) ++ toBytes 52 0 ++
    (if x.dense then x.values.flatMap (toBytes 4) else x.pairs.flatMap fun p => toBytes 4 p.1 ++ toBytes 4 p.2)

end Sys2Proof.Machine
end

