-- ==== Sys2Proof/Machine/Courier.lean ====
section
/-! DEFINITION. The Courier: CSTART, CARM, CQUERY, program set-up, the steps, deliveries, failures and ends (20 R403 to
R419; 23 R426). -/

namespace Sys2Proof.Machine

/-! ## Slots and instances -/

/-- The state with a slot changed. -/
def updSlot (s : State) (key : Nat) (f : CSlot → CSlot) : State := { s with slots := Table.upd s.slots key f }

/-- The instance of a slot at a rank. -/
def instAt (s : State) (key rank : Nat) : Option CInst := s.insts.find? fun i => i.slotKey = key ∧ i.rank = rank

/-- The state with an instance changed. -/
def updInst (s : State) (key rank : Nat) (f : CInst → CInst) : State :=
  { s with insts := s.insts.map fun i => if i.slotKey = key ∧ i.rank = rank then f i else i }

/-- The first step of the stream at or after an index: steps with TG = 1 are no part of it (R407). -/
def streamFrom (steps : List DWord) (n : Nat) : Nat :=
  n + (((steps.drop n).takeWhile stTrig).length)

/-- An instance past its stream step. -/
def advanceStream (i : CInst) : CInst := { i with pc := streamFrom i.steps (i.pc + 1) }

/-- Every armed step whose trigger holds fires, in ascending step index (R408, 23 R426). -/
def fireAll (i : CInst) : CInst :=
  let due := sortBy (fun (x y : Nat × Nat × Nat × Nat) => decide (x.1 < y.1))
    (i.armed.filter fun a => decide (a.2.2.1 ≤ Table.rd i.n 0 a.2.1))
  { i with armed := i.armed.filter fun a => !decide (a.2.2.1 ≤ Table.rd i.n 0 a.2.1)
           fired := i.fired ++ due.map fun a => (a.1, a.2.2.2) }

/-- A receive counter raised, saturating, with every firing that follows. -/
def raiseCounter (i : CInst) (nc by_ : Nat) : CInst :=
  fireAll { i with n := Table.wr i.n 0 nc (min (Table.rd i.n 0 nc + by_) (2 ^ 32 - 1)) }

/-! ## CSTART, CARM, CQUERY (R415 to R417) -/

/-- CSTART: the release, the flag and the token; the fibre stalls while its die's command queue holds 64 entries before
its command. -/
def execCstart (d a : BitVec 6) (f : BitVec 4) (s : State) : Out :=
  let mine : Option (Iss × Nat × CCmd) := (issuing s).bind fun i =>
    (s.cqueue.find? fun e => e.2.gid = i.gid && e.2.fib = i.fid && e.2.held).map fun e => (i, e.1, e.2)
  match mine with
  | some (i, n, c) =>
    .next (if queuePlace s c.die n < 64 then
        finish { s with cqueue := Table.upd s.cqueue n fun c => { c with held := false } } i
      else stallFibre s i.gid i.fid .command)
  | none =>
    uniform s (fun _ => evenReg a && flagField f) (pairRegs a ++ [d.toNat]) fun i =>
      countedOn s i f (releasing s i 4 fun s =>
        let (n, s) := freshId s
        let full : Bool := decide (64 ≤ queuePlace s i.g.die n)
        let c : CCmd :=
          { die := i.g.die, ctx := i.k.ctx, va := (i.g.readPair a.toNat).toNat, gid := i.gid, fib := i.fid, flag := f.toNat
            token := d.toNat, dens := i.k.sample 0x022, held := full, desc := none, prog := none }
        let s := updGroup { s with cqueue := Table.ins s.cqueue n c } i.gid fun g =>
          { g with tokens := Table.ins g.tokens d.toNat n }
        let s := flagUp s i.gid f.toNat
        if full then stallFibre s i.gid i.fid .command else finish s i)

/-- The instance of a slot on a die, while the slot runs. -/
def runningOn (s : State) (key die : Nat) : Option CInst :=
  match Table.look s.slots key with
  | some x => if x.state = .running then s.insts.find? fun i => i.slotKey = key ∧ i.die = die else none
  | none => none

/-- CARM. -/
def execCarm (a b : BitVec 6) (n : BitVec 4) (s : State) : Out :=
  uniform s (fun _ => true) [a.toNat, b.toNat] fun i =>
    releasing s i 4 fun s =>
      let key := i.k.ctx * 16 + (i.g.readS a.toNat).toNat % 16
      match runningOn s key i.g.die with
      | some x => finish (updInst s key x.rank fun x => raiseCounter x n.toNat (i.g.readS b.toNat).toNat) i
      | none => finish s i

/-- The wait of a query. -/
def queryWait (d a : BitVec 6) (nc : Option Nat) (s : State) : Out :=
  uniform s (fun _ => true) [a.toNat, d.toNat] fun i =>
    waitOn s i.gid i.fid (.cquery ((i.g.readS a.toNat).toNat % 16) nc d.toNat)

/-- CQUERY. -/
def execCquery (d a : BitVec 6) (n : BitVec 4) (s : State) : Out := queryWait d a (some n.toNat) s

/-- CQUERY.STATE. -/
def execCqueryState (d a : BitVec 6) (s : State) : Out := queryWait d a none s

/-- The state field of a slot's state word. -/
def SlotState.code (x : SlotState) : Nat := match x with | .settingUp => 1 | .running => 2 | .halted => 3 | .stopped => 4

/-- A slot's state word as a die reads it. -/
def slotWord32 (s : State) (key die : Nat) : Nat :=
  match Table.look s.slots key with
  | none => 0
  | some x =>
    let pc := ((s.insts.find? fun i => i.slotKey = key ∧ i.die = die).map (·.pc)).getD 0
    let st := if x.state = .stopped then x.step else pc
    x.state.code * 2 ^ 28 + x.code * 2 ^ 24 + x.rank * 2 ^ 18 + st % 4096

/-- CQUERY_RESULT: Sd is written and the fibre performs acquire(4). -/
def execCqueryResult (g f : Nat) (s : State) : Out :=
  .next (match fibreIss s g f with
    | none => s
    | some i => match i.f.state with
      | .waiting (.cquery slot nc reg) =>
        let key := i.k.ctx * 16 + slot
        let v := match nc with
          | none => slotWord32 s key i.g.die
          | some n => ((s.insts.find? fun x => x.slotKey = key ∧ x.die = i.g.die).map fun x => Table.rd x.n 0 n).getD 0
        acquire (readyPast (updGroup s g fun x => x.writeS reg (BitVec.ofNat 32 v)) i) i.ck 4
      | _ => s)

/-! ## Setting up (R403) -/

/-- The command's token written and its flag lowered, when no slot is taken (R415). -/
def commandEnds (s : State) (cmd : Nat) (c : CCmd) (status : Nat) : State :=
  let s := { s with cqueue := Table.del s.cqueue cmd }
  let s := updGroup s c.gid fun g =>
    { g.writeS c.token (BitVec.ofNat 32 (status * 2 ^ 28)) with tokens := Table.del g.tokens c.token }
  flagDown s c.gid c.flag

/-- The lowest free slot of a context. -/
def collectiveSlot (s : State) (ctx : Nat) : Option Nat :=
  (List.range 16).find? fun n => (Table.look s.slots (ctx * 16 + n)).isNone

/-- A slot taken for a command, with an instance on every active die of the partition. -/
def takeSlot (s : State) (cmd : Nat) (c : CCmd) (d bs : List Byte) (n : Nat) : State :=
  let x : CSlot :=
    { ctx := c.ctx, slot := n, state := .settingUp, code := 0, rank := 0, step := 0, die := c.die, gid := c.gid, fib := c.fib
      flag := c.flag, token := c.token, dens := c.dens, root := progRoot d, nsteps := progSteps d, desc := d, wct := 0 }
  let key := c.ctx * 16 + n
  let steps := progWords bs
  let is := (ctxRanks s c.ctx).mapIdx fun r die =>
    ({ slotKey := key, rank := r, die := die, steps := steps, n := [], pc := streamFrom steps 0, i := 0, head := none
       count := 0, armed := [], fired := [], wct := 0, localWct := 0, halted := false, stopped := false } : CInst)
  { s with cqueue := Table.del s.cqueue cmd, slots := Table.ins s.slots key x, insts := s.insts ++ is }

/-- A command whose program has been read takes a slot, or waits for one. -/
def placeProgram (s : State) (cmd : Nat) (c : CCmd) (d bs : List Byte) : State :=
  match collectiveSlot s c.ctx with
  | some n => takeSlot s cmd c d bs n
  | none => { s with cqueue := Table.upd s.cqueue cmd fun c => { c with prog := some (d, bs) } }

/-- A command's step list read, once its descriptor has been: what has been read is kept (R403). -/
def readSteps (s : State) (cmd : Nat) (c : CCmd) (d : List Byte) : State :=
  if !progOk (ctxRanks s c.ctx).length d then commandEnds s cmd c 3
  else match dieGet s c.ctx c.die (rec64 d 8) (8 * progSteps d) with
    | (.error (.wait p va b), s) =>
      let s := engineWaits s cmd c.ctx c.die p va b
      { s with cqueue := Table.upd s.cqueue cmd fun c => { c with desc := some d } }
    | (.error (.fail ..), s) => commandEnds s cmd c 1
    | (.ok bs, s) => placeProgram s cmd c d bs

/-- COURIER_SETUP: the first command of a die's queue; one still held by its fibre waits for the fibre, if it lives. -/
def execCourierSetup (cmd : Nat) (s : State) : Out :=
  .next (match Table.look s.cqueue cmd with
    | none => s
    | some c =>
      let held : Bool := c.held && (fibreAt s c.gid c.fib).any fun f => f.state ≠ .ended
      if queuePlace s c.die cmd ≠ 0 ∨ held then s
      else match c.prog, c.desc with
        | some (d, bs), _ => placeProgram s cmd c d bs
        | none, some d => readSteps s cmd c d
        | none, none =>
          if c.va % 64 ≠ 0 then commandEnds s cmd c 3
          else match dieGet s c.ctx c.die c.va 256 with
            | (.error (.wait p va b), s) => engineWaits s cmd c.ctx c.die p va b
            | (.error (.fail ..), s) => commandEnds s cmd c 1
            | (.ok d, s) => readSteps s cmd c d)

/-- Whether a way that retraining boundaries close lies between the coordinator of a slot and one of its instances, in the direction
given (R419). -/
def slotHeld (s : State) (slot : Nat) (x : CSlot) (out back : Bool) : Bool :=
  s.insts.any fun i => i.slotKey = slot &&
    ((out && trafficHeld s x.die i.die) || (back && trafficHeld s i.die x.die))

/-- COURIER_PROGRAM_BEGIN: every Courier has acknowledged, which retraining boundaries hold up (R419); the token is written, and
every instance begins. -/
def execCourierProgramBegin (slot : Nat) (s : State) : Out :=
  .next (match Table.look s.slots slot with
    | none => s
    | some x =>
      if x.state ≠ .settingUp ∨ slotHeld s slot x true true then s
      else updGroup (updSlot s slot fun x => { x with state := .running }) x.gid fun g =>
        { g.writeS x.token (BitVec.ofNat 32 x.slot) with tokens := Table.del g.tokens x.token })

/-! ## Failures (R418) -/

/-- The instances that are told of a failure of the instance of a rank stop: those that no retraining boundary keeps it from (R419),
and all of them where a part has failed, whose fault reaches all of the partition (R418). -/
def tellStopped (s : State) (slot rank : Nat) (all : Bool) : State :=
  let from_ := ((s.insts.find? fun i => i.slotKey = slot && i.rank = rank).map (·.die)).getD 0
  { s with insts := s.insts.map fun i =>
      if i.slotKey = slot ∧ (all ∨ i.rank = rank ∨ !trafficHeld s from_ i.die) then { i with stopped := true } else i }

/-- A program fails: its slot holds the first failure, the failing instance stops, and the others with it. -/
def failSlot (s : State) (slot rank stp code : Nat) : State :=
  match Table.look s.slots slot with
  | none => s
  | some x =>
    let s := if x.state = .stopped then s
      else updSlot s slot fun x => { x with state := .stopped, code := code, rank := rank, step := stp % 4096 }
    tellStopped s slot rank (code = 5)

/-- A slot freed, with what is left of its program. -/
def dropSlot (s : State) (slot : Nat) : State :=
  { s with slots := Table.del s.slots slot, insts := s.insts.filter fun i => i.slotKey ≠ slot
           deliveries := Table.sel s.deliveries fun _ d => d.slotKey ≠ slot }

/-- A stopped slot freed: the trap that its fibre owes, and its flag. -/
def freeStopped (s : State) (slot : Nat) (x : CSlot) : State :=
  let addr : DWord := BitVec.ofNat 64 (x.rank * 2 ^ 32 + x.step)
  let cause : Option Nat := match x.code with | 1 => some 0x0C | 2 => some 0x07 | 3 => some 0x01 | 4 => some 0x01 | _ => none
  let s := match cause with
    | some c => owe s x.gid x.fib x.flag c addr 0
    | none => s
  flagDown (dropSlot s slot) x.gid x.flag

/-! ## What a step meets -/

/-- The partition of a slot's context. -/
def slotPart (s : State) (x : CSlot) : Option Partition := (ctxAt s x.ctx).bind fun c => partAt s c.part

/-- The peer of a step. -/
def peerOf (s : State) (x : CSlot) (rank : Nat) (w : DWord) : Peer :=
  match slotPart s x with
  | some p => stPeer p (ranks s p) x.root rank w
  | none => .bad

/-- An Ethernet peer (R414): the port, the remote slot, the remote MAC address and the remote base. -/
structure Remote where
  port : Nat
  slot : Nat
  mac : BitVec 48
  base : Nat
  deriving DecidableEq, Repr

/-- The Ethernet peer of a program. -/
def remoteOf (d : List Byte) (e : Nat) : Remote :=
  let w := rec64 d (0xC0 + 16 * e)
  { port := bits w 2 0, slot := bits w 7 4, mac := BitVec.ofNat 48 (bits w 63 16), base := rec64 d (0xC8 + 16 * e) }

/-- The code with which a step fails before it starts, if it does (R408, R409, R414). -/
def stepFault (s : State) (x : CSlot) (i : CInst) (stp : Nat) : Option Nat :=
  match i.steps[stp]? with
  | none => some 3
  | some w =>
    if !stWordOk w then some 3
    else match stKind w with
      | 0 | 2 => match peerOf s x i.rank w with
        | .bad => some 3
        | .ether e =>
          let port := (remoteOf x.desc e).port
          if !((slotPart s x).any fun p => p.holds (ethDie port)) then some 3
          else if ethUp s port then none else some 5
        | _ => none
      | 6 => if i.head.isSome then some 3 else none
      | 7 => if i.head.isNone then some 3 else none
      | 8 =>
        let t := stBits w 43 32
        if (i.steps[t]?).any stTrig then none else some 3
      | _ => none

/-- Whether an instance stands at a step: at its stream's, the write of the step before it being past its completion
time, or at one fired (R407, R408). -/
def atStep (s : State) (i : CInst) (stp : Nat) : Bool :=
  !i.halted && !i.stopped &&
    ((i.pc = stp && (i.localWct = 0 || decide (i.localWct < gtOf s i.die))) || i.fired.any fun f => f.1 = stp)

/-- A step that has taken effect locally: the stream moves on, a fired step is done. `w` is its writes' WCT. -/
def stepDone (s : State) (slot rank stp idx : Nat) (fired : Bool) (w : Nat) : State :=
  let s := updSlot s slot fun x => { x with wct := max x.wct w }
  updInst s slot rank fun i =>
    let i := { i with wct := max i.wct w }
    if fired then { i with fired := i.fired.erase (stp, idx) } else advanceStream { i with localWct := w }

/-- A step that meets a page or line which stops it. -/
def stepHalt (s : State) (x : CSlot) (i : CInst) (slot stp : Nat) (h : Halt) : State :=
  match h with
  | .wait p va b => engineWaits s (2 ^ 67 + (slot * 64 + i.rank) * 4096 + stp) x.ctx i.die p va b
  | .fail st _ _ => failSlot s slot i.rank stp st

/-- One step of an instance, of the kind its event names; an instance that has not been told of a failure runs on. `act` gets
the loop index and whether the step was fired. -/
def runStep (kind slot rank stp : Nat) (s : State) (act : CSlot → CInst → DWord → Nat → Bool → State → State) : Out :=
  .next (match Table.look s.slots slot, instAt s slot rank with
    | some x, some i =>
      if (x.state ≠ .running ∧ x.state ≠ .stopped) ∨ !atStep s i stp then s
      else match i.steps[stp]? with
        | none => s
        | some w =>
          if stKind w ≠ kind then s
          else match stepFault s x i stp with
            | some code => failSlot s slot rank stp code
            | none =>
              let mine := i.fired.filter fun f => f.1 = stp
              let (n, s) := choose s mine.length
              match mine[n]? with
              | some f => act x i w f.2 true s
              | none => act x i w i.i false s
    | _, _ => s)

/-! ## Data steps (R405, R407, R411, R412) -/

/-- A buffer's bytes read by an instance's Courier: all of it, or what a sparse buffer holds. A bad sparse buffer is
status 4 of the halt. -/
def readBuffer (s : State) (x : CSlot) (i : CInst) (w : DWord) (va : Nat) : Except Halt (List Byte) × State :=
  if !stSparse w then dieGet s x.ctx i.die va (stSize w)
  else match dieGet s x.ctx i.die va 64 with
    | (.error h, s) => (.error h, s)
    | (.ok head, s) =>
      if !sparseHeadOk (stSize w) head then (.error (.fail 4 0 va), s)
      else match dieGet s x.ctx i.die va (sparseLen head) with
        | (.error h, s) => (.error h, s)
        | (.ok bs, s) => if (sparseOf bs).isSome then (.ok bs, s) else (.error (.fail 4 0 va), s)

/-- The local operand combined with the landing operand; `none` when two sparse buffers differ in E. -/
def combine (x : CSlot) (w : DWord) (here land : List Byte) : Option (List Byte) :=
  if !stSparse w then some (reduceBytes (stRtype w) here land)
  else match sparseOf here, sparseOf land with
    | some p, some q => if p.e = q.e then some (sparseSum (x.dens.toNat % 65536) p q).bytes else none
    | _, _ => none

/-- A step's two operands read and combined: my BREG first, then my AREG. -/
def readBoth (s : State) (x : CSlot) (i : CInst) (w : DWord) (o : Nat) : Except Halt (List Byte) × State :=
  let a := (progAddr x.desc (stA w) i.rank + o) % 2 ^ 64
  let b := (progAddr x.desc (stB w) i.rank + o) % 2 ^ 64
  match readBuffer s x i w b with
  | (.error h, s) => (.error h, s)
  | (.ok here, s) => match readBuffer s x i w a with
    | (.error h, s) => (.error h, s)
    | (.ok land, s) => match combine x w here land with
      | some bs => (.ok bs, s)
      | none => (.error (.fail 4 0 a), s)

/-- Data cut into the frames of R414: each carries its byte offset and up to 8,192 bytes. -/
def cutFrames (r : Remote) (nc : Nat) : Nat → Nat → Nat → List Byte → List EthFrame
  | 0, _, _, _ => []
  | fuel + 1, sn, off, bs =>
    { dst := r.mac, sn := sn, slot := r.slot, nc := nc, base := r.base, offset := off, data := bs.take 8192, last := bs.length ≤ 8192 } ::
      (if bs.length ≤ 8192 then [] else cutFrames r nc fuel (sn + 1) (off + 8192) (bs.drop 8192))

/-- Data sent over an Ethernet port for a delivery. -/
def sendFrames (s : State) (r : Remote) (dl nc off : Nat) (bs : List Byte) : State :=
  let gt := gtOf s (ethDie r.port)
  { s with ethPorts := s.ethPorts.mapIdx fun k e =>
      if k ≠ r.port then e
      else
        let fs := cutFrames r nc (bs.length / 8192 + 1) e.nextSeq off bs
        { e with
          nextSeq := e.nextSeq + fs.length
          unacked := e.unacked ++ fs
          owner := e.owner ++ fs.map fun f => (f.sn, dl)
          lastSend := if e.unacked = [] then gt else e.lastSend } }

/-- Data sent to a peer: a delivery of its own (R407), to the peer's value of an address register. -/
def sendTo (s : State) (x : CSlot) (i : CInst) (w : DWord) (slot stp reg o : Nat) (peer : Peer) (bs : List Byte) : State :=
  let (n, s) := freshId s
  let d : Delivery :=
    { slotKey := slot, fromRank := i.rank, step := stp, toRank := 0, nc := stNc w, va := 0, data := bs, eth := none
      applied := none }
  match peer with
  | .rank r p =>
    let va := (progAddr x.desc reg r + o + p * stSize w) % 2 ^ 64
    { s with deliveries := Table.ins s.deliveries n { d with toRank := r, va := va } }
  | .ether e =>
    let r := remoteOf x.desc e
    sendFrames { s with deliveries := Table.ins s.deliveries n { d with eth := some r.port } } r n (stNc w) o bs
  | _ => s

/-- CSTEP_SEND. -/
def execCstepSend (slot rank stp : Nat) (s : State) : Out :=
  runStep 0 slot rank stp s fun x i w idx fired s =>
    let o := stOff w idx
    match peerOf s x rank w with
    | .skip => stepDone s slot rank stp idx fired 0
    | peer => match readBuffer s x i w ((progAddr x.desc (stA w) rank + o) % 2 ^ 64) with
      | (.error h, s) => stepHalt s x i slot stp h
      | (.ok bs, s) => stepDone (sendTo s x i w slot stp (stB w) o peer bs) slot rank stp idx fired 0

/-- CSTEP_RRED. -/
def execCstepRred (slot rank stp : Nat) (s : State) : Out :=
  runStep 2 slot rank stp s fun x i w idx fired s =>
    let o := stOff w idx
    match peerOf s x rank w with
    | .skip => stepDone s slot rank stp idx fired 0
    | peer => match readBoth s x i w o with
      | (.error h, s) => stepHalt s x i slot stp h
      | (.ok bs, s) => stepDone (sendTo s x i w slot stp (stA w) o peer bs) slot rank stp idx fired 0

/-- An instance's own write, and the step's end. -/
def stepWrite (s : State) (x : CSlot) (i : CInst) (slot stp idx : Nat) (fired : Bool) (va : Nat) (bs : List Byte) : State :=
  match dieHalt s x.ctx i.die va bs.length with
  | some h => stepHalt s x i slot stp h
  | none =>
    let (w, s) := diePut s x.ctx i.die va bs
    stepDone s slot i.rank stp idx fired w

/-- CSTEP_RACC. -/
def execCstepRacc (slot rank stp : Nat) (s : State) : Out :=
  runStep 3 slot rank stp s fun x i w idx fired s =>
    let o := stOff w idx
    match readBoth s x i w o with
    | (.error h, s) => stepHalt s x i slot stp h
    | (.ok bs, s) => stepWrite s x i slot stp idx fired ((progAddr x.desc (stB w) rank + o) % 2 ^ 64) bs

/-- CSTEP_COPY. -/
def execCstepCopy (slot rank stp : Nat) (s : State) : Out :=
  runStep 4 slot rank stp s fun x i w idx fired s =>
    let o := stOff w idx
    match dieGet s x.ctx i.die ((progAddr x.desc (stA w) rank + o) % 2 ^ 64) (stSize w) with
    | (.error h, s) => stepHalt s x i slot stp h
    | (.ok bs, s) => stepWrite s x i slot stp idx fired ((progAddr x.desc (stB w) rank + o) % 2 ^ 64) bs

/-! ## Control steps -/

/-- CSTEP_RECV. -/
def execCstepRecv (slot rank stp : Nat) (s : State) : Out :=
  runStep 1 slot rank stp s fun _ i w idx fired s =>
    if stThreshold w idx ≤ Table.rd i.n 0 (stNc w) then stepDone s slot rank stp idx fired 0 else s

/-- Whether a SEND or RRED that an instance has started is undelivered; a fired one has started (23 R426). -/
def undelivered (s : State) (i : CInst) : Bool :=
  (s.deliveries.any fun e => e.2.slotKey = i.slotKey && e.2.fromRank = i.rank) ||
    i.fired.any fun f => (i.steps[f.1]?).any fun w => stKind w = 0 || stKind w = 2

/-- CSTEP_WAIT. -/
def execCstepWait (slot rank stp : Nat) (s : State) : Out :=
  runStep 5 slot rank stp s fun _ i _ idx fired s =>
    if undelivered s i then s else stepDone s slot rank stp idx fired 0

/-- CSTEP_LOOP. -/
def execCstepLoop (slot rank stp : Nat) (s : State) : Out :=
  runStep 6 slot rank stp s fun _ _ w _ _ s =>
    updInst s slot rank fun i =>
      let i := advanceStream { i with i := 0, count := stBits w 15 0 + 1, localWct := 0 }
      { i with head := some i.pc }

/-- CSTEP_NEXT. -/
def execCstepNext (slot rank stp : Nat) (s : State) : Out :=
  runStep 7 slot rank stp s fun _ _ _ _ _ s =>
    updInst s slot rank fun i =>
      if i.i + 1 < i.count then { i with i := i.i + 1, pc := i.head.getD 0, localWct := 0 }
      else advanceStream { i with i := 0, head := none, localWct := 0 }

/-- CSTEP_ARM: the trigger set, and every firing that follows. -/
def execCstepArm (slot rank stp : Nat) (s : State) : Out :=
  runStep 8 slot rank stp s fun _ _ w idx _ s =>
    let t := stBits w 43 32
    updInst s slot rank fun i =>
      fireAll (advanceStream
        { i with armed := (t, stNc w, stThreshold w idx, idx) :: i.armed.filter (fun a => a.1 ≠ t), localWct := 0 })

/-- CSTEP_SIG: the release waits for the completion time of what the instance's RACC and COPY steps have written, those of
the stream and triggered ones (R405); then the word is written. -/
def execCstepSig (slot rank stp : Nat) (s : State) : Out :=
  runStep 9 slot rank stp s fun x i w _ _ s =>
    let va := progAddr x.desc (stB w) rank
    if i.wct ≠ 0 ∧ gtOf s i.die ≤ i.wct then s else
    match dieHalt s x.ctx i.die va 4 with
    | some h => stepHalt s x i slot stp h
    | none =>
      let (t, s) := diePut s x.ctx i.die va (toBytes 4 (stBits w 31 0))
      let s := updSlot s slot fun x => { x with wct := max x.wct t }
      updInst s slot rank fun i => advanceStream { i with localWct := 0 }

/-- CSTEP_HALT. -/
def execCstepHalt (slot rank stp : Nat) (s : State) : Out :=
  runStep 10 slot rank stp s fun _ i _ _ _ s =>
    if i.armed ≠ [] ∨ i.fired ≠ [] ∨ undelivered s i ∨ (i.wct ≠ 0 ∧ gtOf s i.die ≤ i.wct) then s
    else updInst s slot rank fun i => { i with halted := true }

/-! ## Deliveries and ends (R407, R409, R418) -/

/-- Whether an earlier delivery of the same sender and peer has not been done with (R407). -/
def deliveryBehind (s : State) (dl : Nat) (d : Delivery) (p : Delivery → Bool) : Bool :=
  s.deliveries.any fun e => decide (e.1 < dl) && e.2.slotKey = d.slotKey && e.2.fromRank = d.fromRank &&
    e.2.toRank = d.toRank && e.2.eth.isNone && p e.2

/-- The dies that a delivery over the mesh goes between. -/
def deliveryDies (s : State) (d : Delivery) : Option (Nat × Nat) :=
  if d.eth.isSome then none
  else match instAt s d.slotKey d.fromRank, instAt s d.slotKey d.toRank with
    | some j, some i => some (j.die, i.die)
    | _, _ => none

/-- Whether a delivery is on its way to its peer's die (R419; 19 R397). -/
def deliveryFlies (s : State) (dl : Nat) (d : Delivery) : Bool :=
  (deliveryDies s d).any fun w => underWay s 3 dl 0 w.1 w.2

/-- Whether a delivery has not arrived, or one that left its die for the same die before it has not (19 R398). -/
def deliveryHeld (s : State) (dl : Nat) (d : Delivery) : Bool :=
  deliveryFlies s dl d ||
  s.deliveries.any fun e => decide (e.1 < dl) && deliveryDies s e.2 = deliveryDies s d && deliveryFlies s e.1 e.2

/-- COURIER_DELIVERY: first the data is applied at the peer's side, then, past its completion time, the peer's counter is
raised. The data of a program that has stopped may still be applied. -/
def execCourierDelivery (dl : Nat) (s : State) : Out :=
  .next (match Table.look s.deliveries dl with
    | none => s
    | some d =>
      match Table.look s.slots d.slotKey, instAt s d.slotKey d.toRank with
      | some x, some i =>
        if d.eth.isSome then s
        else match d.applied with
          | none =>
            if deliveryBehind s dl d (·.applied.isNone) ∨ deliveryHeld s dl d then s
            else match dieHalt s x.ctx i.die d.va d.data.length with
              | some (.wait p va b) => engineWaits s dl x.ctx i.die p va b
              | some (.fail st _ _) => failSlot s d.slotKey d.fromRank d.step st
              | none =>
                let (w, s) := diePut s x.ctx i.die d.va d.data
                let s := updSlot s d.slotKey fun x => { x with wct := max x.wct w }
                { s with deliveries := Table.upd s.deliveries dl fun d => { d with applied := some w } }
          | some w =>
            if gtOf s i.die ≤ w ∨ (x.state ≠ .running ∧ x.state ≠ .stopped) ∨ i.stopped ∨ deliveryBehind s dl d (fun _ => true) then s
            else
              let s := { s with deliveries := Table.del s.deliveries dl }
              updInst s d.slotKey d.toRank fun i => raiseCounter i d.nc 1
      | _, _ => s)

/-- COURIER_FAILURE: an instance that meets a bad program or a failed part stops with the others, and so does one to which an
Ethernet peer reports that its data could not be written (R418); the slot of a program that has stopped is freed once every
instance has been told, has stopped, and no retraining boundary keeps its report from the coordinator (R419). -/
def execCourierFailure (slot rank stp code : Nat) (s : State) : Out :=
  .next (match Table.look s.slots slot with
    | none => s
    | some x =>
      if x.state = .stopped then
        let s := tellStopped s slot x.rank (x.code = 5)
        if (s.insts.all fun i => i.slotKey ≠ slot || i.stopped || i.halted) ∧ (x.code = 5 ∨ !slotHeld s slot x false true) then
          freeStopped s slot x
        else s
      else match instAt s slot rank with
        | none => s
        | some i =>
          let reported : Bool := (code = 1 || code = 2) && s.deliveries.any fun e =>
            e.2.slotKey = slot && e.2.fromRank = rank && decide (e.2.step % 4096 = stp % 4096) && e.2.eth.isSome
          if x.state = .running ∧ (reported ∨ (atStep s i stp ∧ stepFault s x i stp = some code)) then
            failSlot s slot rank stp code
          else s)

/-- COURIER_PROGRAM_END: every instance has halted, and no retraining boundary keeps its report from the coordinator (R419);
past the latest completion time of the program's writes the slot is freed and the flag lowered. -/
def execCourierProgramEnd (slot : Nat) (s : State) : Out :=
  .next (match Table.look s.slots slot with
    | none => s
    | some x =>
      if (x.state ≠ .running ∧ x.state ≠ .halted) ∨ !(s.insts.all fun i => i.slotKey ≠ slot || i.halted) ∨ slotHeld s slot x false true then s
      else if x.wct ≠ 0 ∧ gtOf s x.die ≤ x.wct then updSlot s slot fun x => { x with state := .halted }
      else flagDown (dropSlot s slot) x.gid x.flag)

end Sys2Proof.Machine
end

