-- ==== Sys2Proof/Machine/Packets.lean ====
section
/-! DEFINITION. The packets in the mesh: what is on its way, its hops, and what becomes of a packet that is discarded (19 R390,
R393, R394, R397). -/

namespace Sys2Proof.Machine

/-- The packets that have not been consumed, each with the context that owns it (R394): requests of writes not applied, of
operations' lines and of partials sent home, and flush requests; responses with fills, and with the write completion times and
the old values of applied writes; splat records; collective deliveries. -/
def packets (s : State) : List (Nat × Packed) :=
  (s.writes.map fun e =>
    let home := homeDie s e.2.ctx e.2.addr
    (e.2.ctx, if e.2.wct.isNone then { vnet := 0, id := e.1, sub := e.2.addr / 128, src := coreDie e.2.core, dest := home }
      else { vnet := 1, id := e.2.replied, sub := e.2.addr / 128, src := home, dest := coreDie e.2.core })) ++
  (s.ops.flatMap fun e => e.2.missing.map fun l =>
    (e.2.ctx, { vnet := 0, id := e.1, sub := l, src := coreDie e.2.core, dest := homeDie s e.2.ctx (l * 128) })) ++
  ((s.partials.filter fun e => e.2.sent).map fun e =>
    (e.2.ctx, { vnet := 0, id := e.1, sub := e.2.addr / 128, src := coreDie e.2.core, dest := homeDie s e.2.ctx e.2.addr })) ++
  (s.flushes.flatMap fun e => ((ctxRanks s e.2.ctx).filter fun d => !e.2.reached.contains d).map fun d =>
    (e.2.ctx, { vnet := 0, id := e.1, sub := d, src := e.2.die, dest := d })) ++
  (s.fills.map fun e =>
    (e.2.ctx, { vnet := 1, id := e.1, sub := e.2.line, src := homeDie s e.2.ctx (e.2.line * 128), dest := coreDie e.2.core })) ++
  (s.recs.map fun e =>
    (e.2.ctx, { vnet := 2, id := e.1, sub := 0, src := (ctxRanks s e.2.ctx).getD e.2.fromRank 0, dest := e.2.toDie })) ++
  (s.deliveries.filterMap fun e => match deliveryDies s e.2, Table.look s.slots e.2.slotKey with
    | some w, some x =>
      if e.2.applied.isNone then some (x.ctx, { vnet := 3, id := e.1, sub := 0, src := w.1, dest := w.2 }) else none
    | _, _ => none)

/-- Whether a packet is the one that a network, a key and a number under that key name. -/
def Packed.named (p : Packed) (vnet id sub : Nat) : Bool := p.vnet = vnet && p.id = id && p.sub = sub

/-- One hop of a packet. What the mesh still notes of packets that have been consumed goes. -/
def hop (s : State) (vnet id sub : Nat) (esc : Bool) : State :=
  match (packets s).find? fun e => e.2.named vnet id sub with
  | none => s
  | some e =>
    let t := hopPacket s e.2 esc
    if t.mesh = s.mesh then s
    else
      let live := packets s
      { t with mesh := t.mesh.filter fun m => live.any fun e => e.2.named m.vnet m.id m.sub }

/-- The packets on their way that may hop. -/
def travellers (s : State) : List Packed :=
  ((packets s).map (·.2)).filter fun p => underWay s p.vnet p.id p.sub p.src p.dest

/-- A packet discarded (R393). A collective one is a failure of its program (20 R418 code 5). -/
def discardPacket (s : State) (p : Packed) : State :=
  match p.vnet with
  | 0 => { s with
      writes := Table.del s.writes p.id, ops := Table.del s.ops p.id, partials := Table.del s.partials p.id }
  | 1 => { s with
      fills := Table.del s.fills p.id
      writes := Table.sel s.writes fun _ w => !(w.wct.isSome && w.replied = p.id) }
  | 2 => { s with recs := Table.del s.recs p.id }
  | _ => match Table.look s.deliveries p.id with
    | some d => failSlot { s with deliveries := Table.del s.deliveries p.id } d.slotKey d.fromRank d.step 5
    | none => s

/-- Some packets discarded, with what the mesh notes of them; the partitions that owned one. -/
def discardPackets (s : State) (ps : List (Nat × Packed)) : List Nat × State :=
  (dedup (ps.filterMap fun e => (ctxAt s e.1).map (·.part)),
   (ps.foldl (fun s e => discardPacket s e.2) { s with
      mesh := s.mesh.filter fun m => !ps.any fun e => e.2.named m.vnet m.id m.sub }))

/-- The packets that wait for a boundary where they stand (R390, R393). -/
def waitingFor (s : State) (b : Nat) : List (Nat × Packed) :=
  (packets s).filter fun e => (nextHop s e.2 false).any fun h => h.1 = b

/-- The packets that a die which fails takes with it: those that its router holds, those on their way to it, and those that wait
for one of its boundaries. -/
def packetsAt (s : State) (d : Nat) (bs : List Nat) : List (Nat × Packed) :=
  (packets s).filter fun e => (placeOf s e.2).1 ≠ e.2.dest &&
    ((placeOf s e.2).1 = d || e.2.dest = d || (nextHop s e.2 false).any fun h => bs.contains h.1)

end Sys2Proof.Machine
end

