-- ==== Sys2Proof/Machine/Parts.lean ====
section
/-! DEFINITION. Faults of parts: their logging, what a failed part leaves, and whom its failure meets (01 R23, R26; 16
R345; 17 R357; 18 R375, R378; 19 R393; 20 R418). -/

namespace Sys2Proof.Machine

/-! ## Transient faults (18 R378) -/

/-- TRANSIENT_FAULT: logged, and nothing else changes. -/
def execTransientFault (p : Part) (s : State) : Out := .next (logPart s p 1)

/-! ## A context fault of a partition (16 R345; 17 R357) -/

/-- Whether a packet other than LAUNCH may run again from its beginning (17 R357). -/
def rerunnable (bs : List Byte) : Bool :=
  match pkType bs with
  | 2 => decide (rec64 bs 0x10 + rec64 bs 0x20 ≤ rec64 bs 0x18 ∨ rec64 bs 0x18 + rec64 bs 0x20 ≤ rec64 bs 0x10)
  | 4 => decide (rec32 bs 0x20 % 2 = 0)
  | _ => true

/-- What a fault makes of an accepted packet: one that has not ended runs again, from a journal copy that survives, or is
reported as interrupted. -/
def faultPacket (s : State) (p : Packet) : Packet :=
  if p.ended ∨ p.kernel.isSome ∨ p.err ≠ 0 then p
  else if rerunnable p.bytes && journalled s p then { p with begun := false, worked := false, wct := 0, lastRead := 0 }
  else { p with begun := true, worked := true, err := 8 }

/-- A partition meets a fault of a part: its kernels are staged again or interrupted, its packets run again or are
reported, its flushes end; with no active die left its contexts are lost. -/
def faultPart (s : State) (part die : Nat) : State :=
  let cs := s.contexts.filter fun c => c.2.part = part && (c.2.state = .ready || c.2.state = .running ||
    c.2.state = .preempting || c.2.state = .saved)
  let ctxs := cs.map (·.1)
  if ((partAt s part).map (ranks s)).getD [] = [] then
    ((s.contexts.filter fun c => c.2.part = part && c.2.state ≠ .destroyed).map (·.1)).foldl loseContext s
  else
    let s := faultPartition s part die
    let s := ctxs.foldl (fun s ctx => updCtx s ctx fun c =>
      { c with queues := c.queues.map fun q => (q.1, { q.2 with journal := q.2.journal.map (faultPacket s) }) }) s
    let ended := (s.flushes.filter fun e => ctxs.contains e.2.ctx).map (·.1)
    { s with
      flushes := Table.sel s.flushes fun n _ => !ended.contains n
      frames := s.frames.map fun e => match e.2.flush with
        | some f => if ended.contains f then (e.1, { e.2 with
            isOpen := false, flush := none, ctr := 0, culled := 0, dropped := 0, sentTo := [], bad := none }) else e
        | none => e }

/-! ## Failed dies (01 R23, R26; 18 R378) -/

/-- The mesh as the time tree sees it: a boundary whose sideband has failed twice in a row does not carry time (R26). -/
def timeView (s : State) : State :=
  { s with boundaries := s.boundaries.map fun b => if 2 ≤ b.sideFails then { b with state := .failed } else b }

/-- The parent that a die takes (R23): a neighbour one hop nearer the root, no more than 10 hops from it. -/
def timeParent (s : State) (d : Nat) : Option Nat :=
  let v := timeView s
  let h := hopsTo v s.root
  match hopsOf h d with
  | some k => if k ≤ 10 then (nearerPort v h d).map (·.2) else none
  | none => none

/-- The next root after a lost one: the next active die in the order 14, 15, 20, 21, taken round. -/
def nextRoot (s : State) : Option Nat :=
  let order := [14, 15, 20, 21]
  let n := order.idxOf s.root
  (order.drop (n + 1) ++ order.take (n + 1)).find? fun d => dieActive s d && d ≠ s.root

/-- A new root, which keeps its own count; its announcement is on its way to every other die. -/
def handOver (s : State) (r : Nat) : State :=
  { s with root := r, dies := s.dies.mapIdx fun i d =>
      if i = r then { d with parent := none, req := none, handOver := false, exchangeFails := 0 }
      else { d with handOver := d.active && !d.failed, announced := d.gt } }

/-- A die's new parent, its next exchange due at once. -/
def takeParent (s : State) (d : Nat) (p : Nat) : State :=
  updDie s d fun x => { x with parent := some p, req := none, retried := false, lastExchange := none, handOver := false }

/-- A page's leaf set to STATE 7 (10 R225). -/
def poisonPage (s : State) (x : Nat × Pg) : State :=
  match x.2.leafAddr with
  | none => s
  | some la =>
    let s := dropTlb (writeLeaf s x.1 la (withState x.2.leaf 7)) x.1 x.2.va (2 ^ x.2.sz)
    { s with jobs := Table.sel s.jobs fun _ j => !(j.kind = .migrate && j.leafAddr = la) }

/-- Whether a page's frame, or one of its copies or chunks, has bytes in a pseudo-channel of a die (log entry 13). -/
def Pg.inChannel (s : State) (ctx : Nat) (p : Pg) (die chan : Nat) : Bool :=
  let lo := p.frame % 2 ^ 36
  let n := if p.ilv then (2 ^ p.sz / 4096 + (ctxRanks s ctx).length - 1) / (ctxRanks s ctx).length * 4096 else 2 ^ p.sz
  p.onDie s ctx die && decide (lo < (chan + 1) * 2 ^ 29 ∧ chan * 2 ^ 29 < lo + n)

/-- The pages with lines in a stack, or in one of its pseudo-channels, of which no other sound copy exists (10 R225). -/
def pagesLost (s : State) (die : Nat) (chan : Option Nat) : List (Nat × Pg) :=
  (allPages s).filter fun x => (x.2.st = 3 || x.2.st = 4 || x.2.st = 6) &&
    (match chan with | none => x.2.onDie s x.1 die | some c => x.2.inChannel s x.1 die c) &&
    !(x.2.repl && decide (1 < (ctxRanks s x.1).length))

/-- The save copies in a die's stack marked failed (18 R375). -/
def failCopies (s : State) (die : Nat) : State := failCopiesIf s fun c isB => copyAt c isB / 2 ^ 36 = die

/-- The save copies with bytes in a pseudo-channel marked failed (18 R375, R378). -/
def failCopiesIn (s : State) (die chan : Nat) : State :=
  failCopiesIf s fun c isB =>
    let a := copyAt c isB
    decide (a / 2 ^ 36 = die ∧ channelOf a ≤ chan ∧ chan ≤ channelOf (a + rec64 c.desc 0x020 - 1))

/-- The programs with an instance on a die fail (20 R418 code 5). -/
def failPrograms (s : State) (die : Nat) : State :=
  (s.insts.filter fun i => i.die = die).foldl (fun s i => failSlot s i.slotKey i.rank i.pc 5) s

/-- A boundary changed. -/
def updBoundary (s : State) (b : Nat) (f : Boundary → Boundary) : State :=
  { s with boundaries := s.boundaries.mapIdx fun i x => if i = b then f x else x }

/-- A boundary sent into retraining (19 R391). An exchange of time that it interrupts is made anew when the sideband is open
again: its stamps would measure the wait (01 R25; log entry 37). -/
def retrain (s : State) (b : Nat) : State :=
  let gt := gtOf s (boundaryDie s b)
  let s := if bndState s b ≠ .up ∧ bndState s b ≠ .degraded then s
    else { s with dies := s.dies.mapIdx fun i x =>
      if x.req.isSome && x.parent.any fun p => boundaryOf i p = b then { x with req := none, lastExchange := none } else x }
  updBoundary s b fun x =>
    if x.state = .up ∨ x.state = .degraded then { x with state := .retraining, attempts := 0, since := gt } else x

/-- The partitions concerned by the failure of some boundaries (19 R393; 08 R184): those with a die at an end, and those whose
barrier tree one of them is on. -/
def concerned (s : State) (bs : List Nat) : List Nat :=
  (s.partitions.filter fun p =>
    bs.any fun b => p.2.holds (boundaryEnds b).1 || p.2.holds (boundaryEnds b).2 || (barrierLinks s p.1).contains b).map (·.1)

/-- One die failed: logged with its class, its lines poisoned, its caches and programs lost, its partition faulted. Its boundaries,
which answer no replay, fail with it (19 R390, R393; log entry 65). -/
def failOne (s : State) (d cls : Nat) : State :=
  if !dieActive s d then s
  else
    let lost := pagesLost s d none
    let bs := ((neighbours d).map fun n => boundaryOf d n.2).filter (usable s)
    let parts := concerned s bs
    let (owners, s) := discardPackets s (packetsAt s d bs)
    let s := failPrograms (failCopies s d) d
    let s := updDie s d fun x => { x with failed := true, timeLost := x.timeLost || cls = 5, req := none, handOver := false }
    let s := logPart s (.die d) cls
    let s := lost.foldl poisonPage { s with
      deadMem := (d, none) :: s.deadMem
      l1 := Table.sel s.l1 fun key _ => coreDie (key / 2 ^ 48) ≠ d
      partials := Table.sel s.partials fun _ p => coreDie p.core ≠ d || p.sent }
    let s := bs.foldl (fun s b => updBoundary s b fun x => { x with state := .failed }) s
    let s := formRoutes ((dedup ((partOfDie s d).toList ++ owners ++ parts)).foldl (fun s p => faultPart s p d) s)
    if d = s.root then
      match nextRoot s with
      | some r => handOver s r
      | none => s
    else s

/-- The dies whose way to the root over working sidebands is longer than 10 hops: the tree is no deeper (01 R23). -/
def tooFar (s : State) : List Nat :=
  let h := hopsTo (timeView s) s.root
  (List.range 36).filter fun d => dieActive s d && (hopsOf h d).any fun k => decide (10 < k)

/-- The tree after a failure: the new parents of the dies whose parent no longer works, and the dies that fail, each with
its class: those without a way to the root (`cls`), and those that find no usable parent or lie too far (time-lost). -/
def settleTree (s : State) (cls : Nat) : List (Nat × Nat) × State :=
  let h := hopsTo s s.root
  let cut := (List.range 36).filter fun d => dieActive s d && (hopsOf h d).isNone
  let orphans := (List.range 36).filter fun d => dieActive s d && d ≠ s.root && !cut.contains d &&
    (dieAt s d).any fun x => !x.handOver && !(x.parent.any fun p => dieActive s p && usable s (boundaryOf d p))
  let (lost, s) := orphans.foldl (fun (acc : List Nat × State) d =>
    match timeParent acc.2 d with
    | some p => (acc.1, takeParent acc.2 d p)
    | none => (acc.1 ++ [d], acc.2)) ([], s)
  (cut.map (fun d => (d, cls)) ++ (dedup (lost ++ tooFar s)).map fun d => (d, 5), s)

/-- Dies failed one after another, each with its class, with those that follow; `fuel` bounds how often the tree is formed
again. -/
def failDies : Nat → List (Nat × Nat) → State → State
  | 0, ds, s => ds.foldl (fun s d => failOne s d.1 d.2) s
  | fuel + 1, ds, s =>
    match settleTree (ds.foldl (fun s d => failOne s d.1 d.2) s) 5 with
    | ([], s) => s
    | (more, s) => failDies fuel more s

/-- A die that can keep time no longer (01 R26), or that fails for another reason, with all that follows. -/
def failDie (s : State) (d cls : Nat) : State := failDies 36 [(d, cls)] s

/-! ## Boundaries (19 R391, R393) -/

/-- A boundary fails (R393): what waits for it is discarded, the partitions concerned meet a fault, those whose barrier tree it
is on among them (08 R184), every die's table is formed anew, and a die that can no longer reach the root fails. In panel reset
there is nothing but the boundary itself: the test that follows looks at the dies that are joined. -/
def failBoundary (s : State) (b : Nat) : State :=
  if !usable s b then s
  else
    let ends := boundaryEnds b
    let parts := concerned s [b]
    let (owners, s) := discardPackets s (waitingFor s b)
    let s := logPart s (.boundary b) 2
    let s := updBoundary s b fun x =>
      { x with state := .failed, dir0 := { x.dir0 with retry := [], replayed := none }
               dir1 := { x.dir1 with retry := [], replayed := none } }
    if s.power = .boot then s
    else
      let s := s.partitions.foldl (fun s p =>
        if parts.contains p.1 ∨ owners.contains p.1 then faultPart s p.1 (if !p.2.holds ends.1 ∧ p.2.holds ends.2 then ends.2 else ends.1) else s) s
      match settleTree (formRoutes s) 2 with
      | ([], s) => s
      | (more, s) => failDies 36 more s

/-! ## The other parts -/

/-- The programs with frames of a failed Ethernet port fail, and its frames go (20 R414, R418). -/
def failPort (s : State) (e : Nat) : State :=
  let mine := s.deliveries.filter fun d => d.2.eth = some e
  let s := mine.foldl (fun s d => failSlot s d.2.slotKey d.2.fromRank d.2.step 5) s
  let s := logPart s (.ethPort e) 2
  let s := { s with ethPorts := s.ethPorts.mapIdx fun i x =>
    if i = e then { x with failed := true, unacked := [], owner := [] } else x }
  match partOfDie s (ethDie e) with
  | some p => faultPart s p (ethDie e)
  | none => s

/-- Whether a context reaches memory through a host link. -/
def usesLink (s : State) (c : Context) (k : Nat) : Bool :=
  (List.range 4).any fun i => decide ((tierWindow c i).1 < (tierWindow c i).2) && windowLink s i = k

/-- PART_FAIL: the part is marked failed, with what R378 and its own chapter say follows. -/
def execPartFail (p : Part) (s : State) : Out :=
  .next (match p with
    | .die d => failDie s d 2
    | .pseudoChannel d c =>
      if !dieActive s d ∨ 128 ≤ c ∨ s.deadMem.contains (d, some c) then s
      else
        let lost := pagesLost s d (some c)
        let s := failCopiesIn (logPart s p 2) d c
        let s := lost.foldl poisonPage { s with deadMem := (d, some c) :: s.deadMem }
        match partOfDie s d with
        | some q => faultPart s q d
        | none => s
    | .boundary b => failBoundary s b
    | .hostLink k =>
      if !linkAvailable s k then s
      else
        let parts := dedup ((s.contexts.filter fun c => usesLink s c.2 k).map fun c => c.2.part)
        let s := logPart s p 2
        let s := { s with hostLinks := s.hostLinks.mapIdx fun i x => if i = k then { x with failed := true, session := false, tenant := none } else x }
        parts.foldl (fun s q => faultPart s q (linkDie k)) s
    | .ethPort e => if (s.ethPorts[e]?).any (fun x => !x.failed) then failPort s e else s
    | .saveCopy ctx isB => failCopy s ctx isB 0
    | .core _ _ => s)

end Sys2Proof.Machine
end

