-- ==== Sys2Proof/Machine/Attest.lean ====
section
/-! DEFINITION. Attestation, TDISP, encryption keys and passports (18 R379 to R385). What a response carries follows the
specification; its codes are those of SPDM 1.3 (log entry 40). -/

namespace Sys2Proof.Machine

/-! ## SPDM (R379, R380) -/

/-- The state with a host link changed. -/
def updLink (s : State) (k : Nat) (f : HostLink → HostLink) : State :=
  { s with hostLinks := s.hostLinks.mapIdx fun i x => if i = k then f x else x }

/-- A response of a link's responder. -/
def respond (s : State) (k : Nat) (bs : List Byte) : State := updLink s k fun l => { l with reply := bs }

/-- A response's header: version 1.3, code, two parameters. -/
def spdmHead (code p1 p2 : Nat) : List Byte := toBytes 1 0x13 ++ toBytes 1 code ++ toBytes 1 p1 ++ toBytes 1 p2

/-- A request answered, both of them part of the transcript that signatures cover (R379). -/
def answer (s : State) (k : Nat) (req resp : List Byte) : State :=
  updLink s k fun l => { l with reply := resp, transcript := l.transcript ++ req ++ resp }

/-- An ERROR response, which is part of no transcript. -/
def spdmError (s : State) (k code : Nat) : State := respond s k (spdmHead 0x7F code 0)

/-- A request that negotiation must have reached `stage` for: 1 version, 2 capabilities, 3 algorithms. -/
def atStage (s : State) (k stage : Nat) (act : HostLink → State) : Out :=
  .next (match s.hostLinks[k]? with
    | none => s
    | some l =>
      if !linkAvailable s k then s
      else if l.spdm < stage then spdmError s k 0x04
      else act l)

/-- GET_VERSION: negotiation starts anew, and no session stands. -/
def execGetVersion (link : Nat) (s : State) : Out :=
  atStage s link 0 fun _ =>
    answer (updLink s link fun l => { l with spdm := 1, algs := 0, session := false, tenant := none, transcript := [] }) link
      (spdmHead 0x84 0 0) (spdmHead 0x04 0 0)

/-- GET_CAPABILITIES. -/
def execGetCapabilities (link : Nat) (s : State) : Out :=
  atStage s link 1 fun l =>
    answer (updLink s link fun x => { x with spdm := max l.spdm 2 }) link (spdmHead 0xE1 0 0) (spdmHead 0x61 0 0)

/-- NEGOTIATE_ALGORITHMS: bits 0 to 3 of the offer stand for Ed25519, SHA-384, secp384r1 and AES-256-GCM, all of which the
part needs. -/
def execNegotiateAlgorithms (link : Nat) (algs : Word) (s : State) : Out :=
  atStage s link 2 fun l =>
    if algs &&& 0xF ≠ 0xF then spdmError s link 0x01
    else answer (updLink s link fun x => { x with spdm := max l.spdm 3, algs := 0xF }) link
      (spdmHead 0xE3 0 0 ++ toBytes 4 algs.toNat) (spdmHead 0x63 0 0 ++ toBytes 4 0xF)

/-- A SHA-384 digest as bytes. -/
def digestBytes (x : BitVec 384) : List Byte := toBytes 48 x.toNat

/-- The transcript hash of a response to `req`: all since GET_VERSION, the request, and the response up to its OpaqueData
(log entry 40). -/
def transcriptHash (l : HostLink) (req resp : List Byte) : List Byte :=
  digestBytes (Config.sha384 (l.transcript ++ req ++ resp))

/-- OpaqueData with one Staist element: the ML-DSA-65 signature of the transcript hash. -/
def opaqueData (hash : List Byte) : List Byte :=
  let sig := Config.mldsaSign hash
  let element := toBytes 2 sig.length ++ sig
  toBytes 2 element.length ++ element

/-- A signed response: its content, its OpaqueData with the ML-DSA-65 signature, and the Ed25519 signature of the same
transcript hash. -/
def signed (l : HostLink) (req resp : List Byte) : List Byte :=
  let h := transcriptHash l req resp
  resp ++ opaqueData h ++ Config.ed25519Sign h

/-- GET_DIGESTS: the digest of the chain of slot 0. -/
def execGetDigests (link : Nat) (s : State) : Out :=
  atStage s link 3 fun _ =>
    answer s link (spdmHead 0x81 0 0) (spdmHead 0x01 0 1 ++ digestBytes (Config.sha384 (Config.certChain 0)))

/-- GET_CERTIFICATE: the chain of slot 0, each certificate of which carries both signatures. -/
def execGetCertificate (link cslot : Nat) (s : State) : Out :=
  atStage s link 3 fun _ =>
    if cslot ≠ 0 then spdmError s link 0x01
    else answer s link (spdmHead 0x82 cslot 0) (spdmHead 0x02 0 0 ++ Config.certChain 0)

/-- CHALLENGE: a signed response. -/
def execChallenge (link : Nat) (nonce : BitVec 256) (s : State) : Out :=
  atStage s link 3 fun l =>
    let req := spdmHead 0x83 0 0 ++ toBytes 32 nonce.toNat
    answer s link req
      (signed l req (spdmHead 0x03 0 1 ++ digestBytes (Config.sha384 (Config.certChain 0)) ++ toBytes 32 nonce.toNat))

/-- The active dies at bring-up as bytes. -/
def activeMap (s : State) : List Byte :=
  toBytes 8 ((s.dies.mapIdx fun i d => if d.active then 2 ^ i else 0).sum)

/-- What the measurement of a partition covers: rectangle, STARV, loaded key slots, passport. -/
def partContent (p : Partition) : List Byte :=
  toBytes 1 p.x0 ++ toBytes 1 p.y0 ++ toBytes 1 p.w ++ toBytes 1 p.h ++ toBytes 4 p.starv ++
    toBytes 4 ((p.keys.map fun k => 2 ^ k.1).sum) ++
    (match p.passport with
      | some x => x.bytes
      | none => [])

/-- The fused security version numbers and key hashes as bytes. -/
def fuseBytes (f : Fuses) : List Byte :=
  f.minSvn.flatMap (fun e => toBytes 4 e.1 ++ toBytes 4 e.2) ++ f.keyHashes.flatMap digestBytes

/-- The digest of a firmware component: of the image that loaded, where State holds one (log entry 60). -/
def componentDigest (s : State) (idx : Nat) : BitVec 384 :=
  match s.images.find? fun e => e.2.comp = idx with
  | some e => Config.sha384 e.2.body
  | none => Config.firmwareDigest idx

/-- A measurement block (R380). -/
def measurement (s : State) (idx : Nat) : Option (BitVec 384) :=
  if 1 ≤ idx ∧ idx ≤ 5 then some (componentDigest s idx)
  else if idx = 6 then some (Config.sha384 (fuseBytes s.fuses))
  else if idx = 7 then some (Config.sha384 (activeMap s ++ s.linkMap))
  else if 0x10 ≤ idx then (partAt s (idx - 0x10)).map fun p => Config.sha384 (partContent p)
  else none

/-- GET_MEASUREMENTS: one block, signed. -/
def execGetMeasurements (link idx : Nat) (nonce : BitVec 256) (s : State) : Out :=
  atStage s link 3 fun l =>
    let req := spdmHead 0xE0 1 idx ++ toBytes 32 nonce.toNat
    match measurement s idx with
    | some m =>
      answer s link req
        (signed l req (spdmHead 0x60 0 0 ++ toBytes 1 idx ++ digestBytes m ++ toBytes 32 nonce.toNat))
    | none => spdmError s link 0x01

/-- KEY_EXCHANGE: a signed response; the session stands once FINISH closes it. -/
def execKeyExchange (link req : Nat) (s : State) : Out :=
  atStage s link 3 fun l =>
    let ask := spdmHead 0xE4 0 0 ++ toBytes 2 req
    answer (updLink s link fun l => { l with spdm := 4, session := false, tenant := none }) link ask
      (signed l ask (spdmHead 0x64 0 0 ++ toBytes 2 req))

/-- FINISH: the handshake closed, if the requester's proof verifies. -/
def execFinish (link : Nat) (ok : Bool) (s : State) : Out :=
  atStage s link 4 fun _ =>
    if ok then
      answer (updLink s link fun l => { l with spdm := 3, session := true }) link (spdmHead 0xE5 0 0) (spdmHead 0x65 0 0)
    else spdmError (updLink s link fun l => { l with spdm := 3 }) link 0x06

/-- A request of the secured session; without one it is refused. -/
def inSession (s : State) (k : Nat) (act : State) : Out :=
  .next (match s.hostLinks[k]? with
    | none => s
    | some l => if !linkAvailable s k then s else if l.session then act else spdmError s k 0x0B)

/-- A request of a partition's tenant (R382, R383, R385): of the one secured session that is bound to the partition. A session is
bound by its first such request (log entry 39). -/
def tenantSession (s : State) (k part : Nat) (act : State → State) : Out :=
  inSession s k (
    let mine := (s.hostLinks[k]?).bind (·.tenant)
    if mine.any (fun p => p ≠ part) ∨ (mine.isNone ∧ s.hostLinks.any fun l => l.session && l.tenant = some part) then spdmError s k 0x0B
    else act (updLink s k fun l => { l with tenant := some part }))

/-- END_SESSION. -/
def execEndSession (link : Nat) (s : State) : Out :=
  inSession s link (respond (updLink s link fun l => { l with session := false, tenant := none }) link (spdmHead 0x6C 0 0))

/-- HEARTBEAT. -/
def execHeartbeat (link : Nat) (s : State) : Out := inSession s link (respond s link (spdmHead 0x68 0 0))

/-! ## Keys (R383) -/

/-- A vendor response that the request was done, with a value. -/
def vendorDone (s : State) (k : Nat) (bs : List Byte) : State := respond s k (spdmHead 0x7E 0 0 ++ bs)

/-- A partition changed. -/
def updPart (s : State) (p : Nat) (f : Partition → Partition) : State :=
  { s with partitions := Table.upd s.partitions p f }

/-- A key loaded in a slot (R383): what was written under another key of the slot no longer reads as it was. -/
def loadKey (s : State) (p kslot : Nat) (key : BitVec 512) : State :=
  let old := (partAt s p).bind fun x => Table.look x.keys kslot
  let s := if old.any fun k => k ≠ key then rekey s (underSlot s p kslot) else s
  updPart s p fun x => { x with keys := Table.ins x.keys kslot key }

/-- SETKEY: one of the key slots 1 to 15. -/
def execSetkey (link p kslot : Nat) (key : BitVec 512) (s : State) : Out :=
  tenantSession s link p (fun s =>
    if (partAt s p).isNone ∨ kslot = 0 ∨ 15 < kslot then spdmError s link 0x01
    else vendorDone (loadKey s p kslot key) link [])

/-! ## Passports (R384, R385) -/

/-- GETNONCE: the partition's nonce. -/
def execGetnonce (link p : Nat) (s : State) : Out :=
  .next (if !linkAvailable s link then s else match partAt s p with
    | some x => vendorDone s link (toBytes 16 x.nonce.toNat)
    | none => spdmError s link 0x01)

/-- PKEYS: the tenant's verification keys. -/
def execPkeys (link p : Nat) (ed ml : List Byte) (s : State) : Out :=
  tenantSession s link p (fun s =>
    if (partAt s p).isNone then spdmError s link 0x01
    else vendorDone (updPart s p fun x => { x with edKey := some ed, mlKey := some ml }) link [])

/-- A passport at its end (R385): every debug and profiling register of the partition is cleared and stops (R386). -/
def endPassport (s : State) (p : Nat) : State :=
  let s := updPart s p fun x => { x with passport := none }
  let mine (ctx : Nat) : Bool := (ctxAt s ctx).any fun c => c.part = p
  { s with
    groups := s.groups.map fun e =>
      if (kernelAt s e.2.kernel).any fun k => mine k.ctx then
        (e.1, { e.2 with pcsel := [], pcnt := [], dbgctl := 0, brk := 0 }) else e
    contexts := s.contexts.map fun c =>
      if c.2.part = p then (c.1, { c.2 with trcb := 0, trcsz := 0, trcpos := 0 }) else c }

/-- A new nonce for a partition (R384). -/
def newNonce (s : State) (p : Nat) : State :=
  updPart { s with choices := s.choices + 1 } p fun x => { x with nonce := Config.freshNonce s.choices }

/-- Whether a passport may be installed in a partition (R384, R385). -/
def passportOk (s : State) (p : Nat) (x : Partition) (b : List Byte) : Bool :=
  match x.edKey, x.mlKey with
  | some ed, some ml =>
    decide (b.length = 3456) && decide (rec32 b 0 = 1) && decide (rec32 b 4 = p) && decide (rec32 b 8 < 8) &&
    decide (rec32 b 0xC = 0) && decide (numAt b 0x10 16 = x.nonce.toNat) &&
    decide (gtOf s ((ranks s x).headD 0) < rec64 b 0x20) &&
    ((b.drop 0x28).take 24).all (fun y => y = 0) && ((b.drop 0xD6D).take 19).all (fun y => y = 0) &&
    Config.ed25519Ok ed (b.take 64) ((b.drop 0x40).take 64) && Config.mldsaOk ml (b.take 64) ((b.drop 0x80).take 3309)
  | _, _ => false

/-- PPINST: an earlier passport ends, the new one is installed, the nonce is drawn anew. -/
def execPpinst (link p : Nat) (pass : List Byte) (s : State) : Out :=
  tenantSession s link p (fun s =>
    match partAt s p with
    | none => spdmError s link 0x01
    | some x =>
      if !passportOk s p x pass then spdmError s link 0x01
      else
        let s := if x.passport.isSome then endPassport s p else s
        let s := updPart s p fun x =>
          { x with passport := some { feat := BitVec.ofNat 3 (rec32 pass 8), expiry := rec64 pass 0x20, bytes := pass } }
        vendorDone (newNonce s p) link [])

/-- PPDEL: the installed passport is removed. -/
def execPpdel (link p : Nat) (s : State) : Out :=
  .next (if !linkAvailable s link then s else match partAt s p with
    | none => spdmError s link 0x01
    | some x =>
      if x.passport.isNone then spdmError s link 0x01 else vendorDone (newNonce (endPassport s p) p) link [])

/-- PASSPORT_EXPIRY: GT of the rank-0 die reaches EXPIRY. -/
def execPassportExpiry (p : Nat) (s : State) : Out :=
  .next (match partAt s p with
    | none => s
    | some x =>
      if x.passport.any fun y => y.expiry ≤ gtOf s ((ranks s x).headD 0) then endPassport s p else s)

/-! ## TDISP and IDE (R382) -/

/-- The context of a virtual function. -/
def ctxOfVf (s : State) (vf : Nat) : Option (Nat × Context) :=
  s.contexts.find? fun c => c.2.vf = vf && c.2.state ≠ .destroyed

/-- A TDISP request about a virtual function's context, on the secured session of its partition's tenant. -/
def tdisp (s : State) (k vf : Nat) (act : State → Nat → Context → State) : Out :=
  match ctxOfVf s vf with
  | some (n, c) => tenantSession s k c.part fun s => act s n c
  | none => inSession s k (spdmError s k 0x01)

/-- LOCK_INTERFACE: accepted only in created. -/
def execLockInterface (link vf : Nat) (s : State) : Out :=
  tdisp s link vf fun s n c =>
    if c.state = .created ∧ c.tdi = .unlocked then vendorDone (updCtx s n fun c => { c with tdi := .locked }) link []
    else spdmError s link 0x04

/-- START_INTERFACE: created to ready. -/
def execStartInterface (link vf : Nat) (s : State) : Out :=
  tdisp s link vf fun s n c =>
    if c.state = .created ∧ c.tdi = .locked then
      vendorDone (updCtx s n fun c => { c with tdi := .run, state := .ready }) link []
    else spdmError s link 0x04

/-- STOP_INTERFACE: the context is destroyed and the TDI unlocked, also one that stands in ERROR with its context gone. -/
def execStopInterface (link vf : Nat) (s : State) : Out :=
  let unlock (s : State) : State := { s with tdiErrors := s.tdiErrors.filter (· ≠ vf) }
  match ctxOfVf s vf with
  | some _ => tdisp s link vf fun s n _ => vendorDone (unlock (destroyContext s n)) link []
  | none => inSession s link (if s.tdiErrors.contains vf then vendorDone (unlock s) link [] else spdmError s link 0x01)

/-- GET_DEVICE_INTERFACE_REPORT: the VF's BAR ranges, the partition number and the context number. -/
def execGetDeviceInterfaceReport (link vf : Nat) (s : State) : Out :=
  tdisp s link vf fun s _ c => vendorDone s link (Config.barRanges vf ++ toBytes 4 c.part ++ toBytes 4 c.num)

/-- IDE_KM: a selective stream keyed, up to 8 on a link, and bound to the VF's context. -/
def execIdeKm (link vf strm : Nat) (s : State) : Out :=
  tdisp s link vf fun s n _ =>
    match s.hostLinks[link]? with
    | none => s
    | some l =>
      if !l.ideStreams.contains strm ∧ 8 ≤ l.ideStreams.length then spdmError s link 0x01
      else
        let s := updLink s link fun l => { l with ideStreams := if l.ideStreams.contains strm then l.ideStreams else strm :: l.ideStreams }
        vendorDone (updCtx s n fun c => { c with ide := if c.ide.contains strm then c.ide else strm :: c.ide }) link []

/-- TLP_OUTSIDE_IDE_STREAM: it completes as Unsupported Request; the TDI enters ERROR, in which it stays until STOP_INTERFACE, and
its context is destroyed. -/
def execTlpOutsideIdeStream (vf : Nat) (s : State) : Out :=
  .next (match ctxOfVf s vf with
    | some (n, c) =>
      if c.tdi = .locked ∨ c.tdi = .run then
        let s := { s with unsupported := Table.wr s.unsupported 0 vf (Table.rd s.unsupported 0 vf + 1) }
        destroyContext (updCtx s n fun c => { c with tdi := .error }) n
      else s
    | none => s)

end Sys2Proof.Machine
end

