-- ==== Sys2Proof/Machine/LaneMove.lean ====
section
/-! DEFINITION. Quad exchange, shuffles and REORDER (05 R126 to R130). -/

namespace Sys2Proof.Machine

/-- A form of the movement instructions: TYPE 0, no SAT, no REP (R126). -/
def Form.move (b : Use) : Form := { Form.regs [0] false .src b .unused with rep := false }

/-- A movement (R127): lane `l` takes A of lane σ where σ lies within the group's width and in a quad that the fibre
holds, and keeps its own A elsewhere. -/
def laneMove (s : State) (b : Use) (d a br : LReg) (sigma : Nat → Nat → Option Nat) : Out :=
  withIssuing s fun i =>
    laneRun s i (.move b) d a br (lowOf br) (bImm 32)
      (LaneFn.pure fun _ x l => match sigma l (x.b l) with
        | some t => if t < i.g.width ∧ Mask.has (i.g.held i.f.p0) t then x.a t else x.a l
        | none => x.a l) .regs

/-- QSWAPX. -/
def execQswapx (d a : LReg) (s : State) : Out := laneMove s .unused d a .zero fun l _ => some (l ^^^ 1)
/-- QSWAPY. -/
def execQswapy (d a : LReg) (s : State) : Out := laneMove s .unused d a .zero fun l _ => some (l ^^^ 2)
/-- QSWAPD. -/
def execQswapd (d a : LReg) (s : State) : Out := laneMove s .unused d a .zero fun l _ => some (l ^^^ 3)
/-- QBCAST. -/
def execQbcast (d a b : LReg) (s : State) : Out := laneMove s .src d a b fun l n => some (4 * (l / 4) + n % 4)
/-- SHFL. -/
def execShfl (d a b : LReg) (s : State) : Out := laneMove s .src d a b fun _ n => some n
/-- SHFLUP. -/
def execShflup (d a b : LReg) (s : State) : Out := laneMove s .src d a b fun l n => if n ≤ l then some (l - n) else none
/-- SHFLDN. -/
def execShfldn (d a b : LReg) (s : State) : Out := laneMove s .src d a b fun l n => some (l + n)

/-- Whether a register lies among `n` V registers from another. -/
def vRangeHas (base k : LReg) (n : Nat) : Bool :=
  match base, k with | .v x, .v y => decide (x.val ≤ y.val ∧ y.val < x.val + n) | _, _ => false

/-- The source lane of each active lane under a forward REORDER: the lanes sorted by key, then by lane (R129). -/
def reorderForward (g : Group) (f : Fibre) (key : LReg) (act : List Nat) : List (Nat × Nat) :=
  let kv (l : Nat) : Nat := (readReg g f key l).toNat % 65536
  act.zip (sortBy (fun x y => decide (kv x < kv y ∨ (kv x = kv y ∧ x < y))) act)

/-- The source lane of each lane that an inverse REORDER writes (R130). -/
def reorderInverse (g : Group) (f : Fibre) (key : LReg) (act : List Nat) : List (Nat × Nat) :=
  act.filterMap fun t => (act.find? fun l => (readReg g f key l).toNat % 64 = t).map fun l => (t, l)

/-- REORDER (R128 to R130). -/
def execReorder (b k : LReg) (inv : BitVec 1) (cnt : BitVec 6) (s : State) : Out :=
  withIssuing s fun i =>
    let m := modsOf i.f.chain
    let n := cnt.toNat + 1
    let bad := m.mz || m.ty ≠ 0 || m.sat || m.imm.isSome || m.ord ≠ 0 || m.fb || decide (5 < m.rnd) ||
      (i.f.chain.any fun c => c.rep.isSome) || vRangeHas b k n
    let fs : List (Use × LReg) := [(.vOnly n, b), (.vo 1, k), (.unused, m.c)]
    if bad then illegal s i
    else match fieldTrap i.k i.g.window true fs with
    | some c => trapHere s i c 0 0
    | none =>
      if onBoard i.g fs then stallFibre s i.gid i.fid (.board (heldCodes i.g.board fs))
      else
        let act := Mask.lanes (activeLanes i m)
        let pairs := if inv = 1 then reorderInverse i.g i.f k act else reorderForward i.g i.f k act
        let g := pairs.foldl (fun g p => (List.range n).foldl (fun g j =>
          writeReg g (regPlus b j) p.1 (readReg i.g i.f (regPlus b j) p.2)) g) i.g
        let g := if inv = 1 then g else pairs.foldl (fun g p => writeReg g k p.1 (BitVec.ofNat 32 p.2)) g
        let g := { g with board := g.board ++ boardCodes (.vOnly n) b ++ (if inv = 1 then [] else boardCodes (.vo 1) k) }
        let s := setGroup s i.gid g
        let s := updFibre s i.gid i.fid (pushResults g b n [])
        let s := if inv = 1 then s else updFibre s i.gid i.fid (pushResults g k 1 [])
        finish s i

end Sys2Proof.Machine
end

