-- ==== Sys2Proof/Machine/Time.lean ====
section
/-! DEFINITION. The correction exchange, its failures and the hand-over of the root (01 R22 to R26). -/

namespace Sys2Proof.Machine

/-- A die's stamp: its GT with its fraction, in 1/64 ns (R24). -/
def stampOf (s : State) (d : Nat) : Nat := ((dieAt s d).map fun x => x.gt * 64 + x.frac).getD 0

/-- Whether the time sideband between a die and its parent carries an exchange: a retraining boundary holds it (19 R396). -/
def sidebandOpen (s : State) (d p : Nat) : Bool :=
  let b := boundaryOf d p
  decide (bndState s b = .up ∨ bndState s b = .degraded)

/-- Whether a die's next exchange is due: 10 µs after the latest, or at once (R24, R26). -/
def exchangeDue (x : Die) : Bool :=
  match x.lastExchange with
  | none => true
  | some t => decide (t + 10000 ≤ x.gt)

/-- TIME_EXCHANGE: the request, stamped t1. -/
def execTimeExchange (die : Nat) (s : State) : Out :=
  .next (match dieAt s die with
    | none => s
    | some x => match x.parent with
      | none => s
      | some p =>
        if !dieActive s die ∨ die = s.root ∨ x.req.isSome ∨ !exchangeDue x ∨ !sidebandOpen s die p then s
        else updDie s die fun x =>
          { x with
            req := some { t1 := stampOf s die, t2 := none, t3 := none, sent := s.refNs, arrived := 0, replied := 0 }
            lastExchange := some x.gt })

/-- The residual asymmetry of the path between a die and its parent, in 1/64 ns: how much longer the request's way is than the
reply's (R25). -/
def pathAsym (s : State) (d p : Nat) : Int := ((s.boundaries[boundaryOf d p]?).map (·.asym)).getD 0

/-- TIME_REPLY: the parent stamps the request's arrival, t2, which the path's asymmetry delays (R25), and then its reply, t3. -/
def execTimeReply (die : Nat) (s : State) : Out :=
  .next (match dieAt s die with
    | none => s
    | some x => match x.parent, x.req with
      | some p, some r =>
        if !dieActive s p ∨ !sidebandOpen s die p then s
        else updDie s die fun x => { x with req := some (match r.t2 with
          | none => { r with t2 := some ((stampOf s p : Int) + pathAsym s die p).toNat, arrived := s.refNs }
          | some _ => match r.t3 with
            | none => { r with t3 := some (stampOf s p), replied := s.refNs }
            | some _ => r) }
      | _, _ => s)

/-- The correction c in 1/64 ns: the exact half, to the nearest multiple, ties toward zero (R24). -/
def correctionOf (t1 t2 t3 t4 : Nat) : Int := Int.tdiv (((t2 : Int) - t1) + ((t3 : Int) - t4)) 2

/-- When a reply reaches the die, in nanoseconds of the reference: it takes as long as the request took, for a path is
symmetric but for its boundary's residue (R21, R25). -/
def TimeReq.backAt (r : TimeReq) : Nat := r.replied + (r.arrived - r.sent)

/-- A correction applied (R24): a slew up to 10 ns, a forward step or a hold beyond. What is left of the die's last
correction is dropped, also where `c` is 0, for `c` is measured from the count as it stands (log entry 37). -/
def Die.correct (x : Die) (c : Int) : Die :=
  let x := { x with req := none, exchangeFails := 0, retried := false, slew := 0, hold := 0, phase := 0, drift := 0 }
  if c.natAbs ≤ 640 then { x with slew := c }
  else if 0 < c then
    let t := x.gt * 64 + x.frac + c.natAbs
    { x with gt := t / 64 % 2 ^ 64, frac := t % 64 }
  else { x with hold := c.natAbs }

/-- TIME_CORRECTION: the reply's arrival, t4, and the correction; more than 64 ns and the die is time-lost (R26). -/
def execTimeCorrection (die : Nat) (s : State) : Out :=
  .next (match dieAt s die with
    | none => s
    | some x => match x.parent, x.req with
      | some p, some r => match r.t2, r.t3 with
        | some t2, some t3 =>
          if !dieActive s die ∨ s.refNs < r.backAt ∨ !sidebandOpen s die p then s
          else
            let c := correctionOf r.t1 t2 t3 (stampOf s die)
            if 4096 < c.natAbs then failDie s die 5 else countGt s (updDie s die fun x => x.correct c)
        | _, _ => s
      | _, _ => s)

/-- A die whose exchanges with its parent have failed twice takes a new parent at once (R26); the boundary retrains (19
R391). When the lost parent is the root, the next root takes over first. A die below it that is now more than 10 hops from
the root is time-lost with it (R23). -/
def loseParent (s : State) (die p : Nat) (x : Die) : State :=
  let b := boundaryOf die p
  let s := logError s die 2 0 p 0 0 (partWord s die)
  let s := retrain (updBoundary s b fun y => { y with sideFails := 2 }) b
  let s := updDie s die fun x => { x with req := none, retried := false, exchangeFails := x.exchangeFails + 1 }
  let s := if p = s.root then (match nextRoot s with | some r => handOver s r | none => s) else s
  if 2 ≤ x.exchangeFails + 1 then failDie s die 5
  else if die = s.root then s
  else match timeParent s die with
    | some q => failDies 36 [] (takeParent s die q)
    | none => failDie s die 5

/-- TIME_EXCHANGE_RETRY: an exchange has failed, and its one retry goes out at once; or the retry has failed too, or none
follows, and the parent is lost (R26; 18 R378). A retraining boundary holds the exchange (19 R396). -/
def execTimeExchangeRetry (die : Nat) (ok : Bool) (s : State) : Out :=
  .next (match dieAt s die with
    | none => s
    | some x => match x.parent, x.req with
      | some p, some _ =>
        if !dieActive s die ∨ !sidebandOpen s die p ∨ (ok ∧ x.retried) then s
        else if ok then
          updDie (logPart s (.boundary (boundaryOf die p)) 1) die fun x => { x with req := none, lastExchange := none, retried := true }
        else loseParent s die p x
      | _, _ => s)

/-- HAND_OVER_ANNOUNCEMENT: the die takes its parent in the new tree and exchanges with it at once (R26). -/
def execHandOverAnnouncement (die : Nat) (s : State) : Out :=
  .next (match dieAt s die with
    | none => s
    | some x =>
      if !dieActive s die ∨ !x.handOver ∨ die = s.root then s
      else match timeParent s die with
        | some p => takeParent s die p
        | none => failDie s die 5)

/-! ## Wander and asymmetry (R25) -/

/-- How far an active die's count is from the root's, in 1/64 ns. -/
def timeError (s : State) (d : Nat) : Int := (stampOf s d : Int) - stampOf s s.root

/-- The error that R25's budget leaves a die at a depth of the tree, in 1/64 ns: 0.4 ns of drift, and at each hop 0.0625 ns
of asymmetry and a quantisation of 1/64 ns; at depth 10 less than 1.3 ns. -/
def errorBudget (depth : Nat) : Nat := 25 + 5 * depth

/-- Whether a change of the clocks keeps R25: no die's error, now or once its slew and its hold have ended, grows beyond its
budget, and no two dies come to differ by more than 150/64 ns. -/
def keepsBudget (before s : State) : Bool :=
  let h := hopsTo (timeView s) s.root
  let ds := (List.range 36).filter (dieActive s)
  let worst (t : State) (d : Nat) : Nat :=
    max (timeError t d).natAbs (timeError t d + ((dieAt t d).map fun x => x.slew - (x.hold : Int)).getD 0).natAbs
  let spread (t : State) : Nat := maxOf (ds.map (stampOf t)) - (minOf (ds.map (stampOf t))).getD 0
  (ds.all fun d => decide (worst s d ≤ max (errorBudget ((hopsOf h d).getD 0)) (worst before d))) &&
    decide (spread s ≤ max 150 (spread before))

/-- The wander of a die's clock (R25): forward at once, backward withheld from its next advance; never more than 0.4 ns
since the die's latest correction, and never out of the budget (log entry 37). -/
def wander (s : State) (die : Nat) (units : Int) : State :=
  let moved := { s with dies := s.dies.mapIdx fun i d =>
    if i ≠ die ∨ !d.active ∨ 25 < (d.drift + units).natAbs then d
    else if units < 0 then { d with drift := d.drift + units, hold := d.hold + units.natAbs }
    else
      let total := d.gt * 64 + d.frac + units.natAbs
      { d with drift := d.drift + units, gt := total / 64 % 2 ^ 64, frac := total % 64 } }
  if keepsBudget s moved then countGt s moved else s

/-- The asymmetry of a boundary's time sideband (R25): one that moves a correction by at most 0.0625 ns, or a path that has
gone wrong by more than any correction that R26 accepts. -/
def setAsymmetry (s : State) (b : Nat) (units : Int) : State :=
  if 8 < units.natAbs ∧ units.natAbs ≤ 16384 then s
  else { s with boundaries := s.boundaries.mapIdx fun i x => if i = b then { x with asym := units } else x }

end Sys2Proof.Machine
end

