-- ==== Sys2Proof/Machine/Link.lean ====
section
/-! DEFINITION. Boundaries' flits, retry and training; Ethernet frames; snoops of CXL (19 R389 to R401; 20 R414). -/

namespace Sys2Proof.Machine

/-! ## Flits (R389, R390) -/

/-- The 252 bytes of a flit that its CRC covers. -/
def flitBody (f : Flit) : List Byte :=
  toBytes 2 (f.sn.toNat * 8 + (if f.esc then 4 else 0) + f.vnet.toNat) ++
    (f.payload ++ List.replicate (250 - f.payload.length) 0).take 250

/-- The CRC that a flit should carry. -/
def flitCheck (f : Flit) : Word := BitVec.ofNat 32 (crc32c (flitBody f))

/-- One direction of a boundary: 0 from its west or north end, 1 towards it. -/
def linkDir (x : Boundary) (dir : Nat) : LinkDir := if dir = 0 then x.dir0 else x.dir1

/-- A direction changed. -/
def updDir (s : State) (b dir : Nat) (f : LinkDir → LinkDir) : State :=
  updBoundary s b fun x => if dir = 0 then { x with dir0 := f x.dir0 } else { x with dir1 := f x.dir1 }

/-- The die at a direction's receiving end. -/
def receiver (b dir : Nat) : Nat := if dir = 0 then (boundaryEnds b).2 else (boundaryEnds b).1

/-- A flit sent for the first time stands in the sender's retry buffer, of 2,048 flits; on the wire it may be damaged. -/
def LinkDir.sent (l : LinkDir) (f : Flit) : LinkDir :=
  if f.sn = l.nextSeq ∧ l.retry.length < 2048 then
    { l with retry := l.retry ++ [{ f with crc := flitCheck f }], nextSeq := l.nextSeq + 1 }
  else l

/-- Whether a flit is one that the sender's retry buffer holds: what is sent again is what was sent (R390). -/
def LinkDir.keeps (l : LinkDir) (f : Flit) : Bool := l.retry.any fun k => flitBody k = flitBody f

/-- FLIT_RECEIVE: the flit expected, with its CRC in order, is accepted; any other is discarded and a replay is asked
for. A replay that delivers is logged as transient. A flit has 256 bytes, and none is sent while the retry buffer is full. -/
def execFlitReceive (bnd dir : Nat) (flit : Flit) (s : State) : Out :=
  .next (match s.boundaries[bnd]? with
    | none => s
    | some x =>
      if x.state ≠ .up ∧ x.state ≠ .degraded then s
      else
        let l := (linkDir x dir).sent flit
        if flit.payload.length ≠ 250 ∨ (flit.sn = (linkDir x dir).nextSeq ∧ l = linkDir x dir) then s
        else
        let s := updDir s bnd dir fun _ => l
        if flit.crc = flitCheck flit ∧ flit.sn = l.expected ∧ l.keeps flit then
          let s := if l.replayed = some flit.sn then
              logError s (receiver bnd dir) 1 2 bnd 0 0 (partWord s (receiver bnd dir)) else s
          updDir s bnd dir fun l =>
            { l with expected := l.expected + 1, delivered := l.delivered ++ [flit], wantReplay := none
                     replayed := if l.replayed = some flit.sn then none else l.replayed }
        else updDir s bnd dir fun l => { l with wantReplay := some l.expected })

/-- REPLAY_REQUEST: the sender resends from the flit named, in the original order; one that has been replayed already and
has failed again sends the boundary into retraining. -/
def execReplayRequest (bnd dir sn : Nat) (s : State) : Out :=
  .next (match s.boundaries[bnd]? with
    | none => s
    | some x =>
      let l := linkDir x dir
      if (x.state ≠ .up ∧ x.state ≠ .degraded) ∨ l.wantReplay ≠ some (BitVec.ofNat 12 sn) then s
      else if l.replayed = some (BitVec.ofNat 12 sn) then
        retrain (updDir s bnd dir fun l => { l with replayed := none, wantReplay := none }) bnd
      else if l.retry.any (fun f => f.sn = BitVec.ofNat 12 sn) then
        updDir s bnd dir fun l => { l with replayed := some (BitVec.ofNat 12 sn), wantReplay := none }
      else s)

/-- FLIT_ACKNOWLEDGE: the flits up to the one acknowledged leave the retry buffer. -/
def execFlitAcknowledge (bnd dir sn : Nat) (s : State) : Out :=
  .next (updDir s bnd dir fun l =>
    if l.retry.any fun f => f.sn = BitVec.ofNat 12 sn then
      { l with retry := (l.retry.dropWhile fun f => f.sn ≠ BitVec.ofNat 12 sn).drop 1 }
    else l)

/-! ## Training (R391, R392) -/

/-- One attempt at training that fails: once more, or after the second the boundary is failed. -/
def trainingFails (s : State) (b : Nat) (x : Boundary) : State :=
  if 1 ≤ x.attempts then failBoundary s b
  else updBoundary s b fun y => { y with attempts := y.attempts + 1, since := gtOf s (boundaryDie s b) }

/-- TRAINING_COMPLETE: the modules that do not work decide (R391): none, those of one half, or those of both. Modules 0 to
63 are half A, 64 to 127 half B. What the boundary held of barrier traffic moves on (08 R184). An attempt that
succeeds after one that failed is logged as transient (18 R378). -/
def execTrainingComplete (bnd : Nat) (bad : List Nat) (s : State) : Out :=
  .next (match s.boundaries[bnd]? with
    | none => s
    | some x =>
      if x.state ≠ .training ∧ x.state ≠ .retraining then s
      else
        let broken := bad.filter (· < 128)
        let a := broken.any (· < 64)
        let b := broken.any (64 ≤ ·)
        if a ∧ b then trainingFails s bnd x
        else
          let s := if x.attempts = 0 then s else logPart s (.boundary bnd) 1
          let s := updBoundary s bnd fun x =>
            { x with state := if a ∨ b then .degraded else .up, badModules := broken, attempts := 0, sideFails := 0 }
          s.kernels.foldl (fun s k => settleBarriers s k.1) s)

/-- TRAINING_TIMEOUT: retraining has not ended 50 µs of GT after it began. -/
def execTrainingTimeout (bnd : Nat) (s : State) : Out :=
  .next (match s.boundaries[bnd]? with
    | none => s
    | some x =>
      if x.state = .retraining ∧ x.since + 50000 ≤ gtOf s (boundaryDie s bnd) then trainingFails s bnd x else s)

/-- BARRIER_SIDEBAND_FAILURE: an exchange has failed twice in a row. -/
def execBarrierSidebandFailure (bnd : Nat) (s : State) : Out := .next (retrain s bnd)

/-! ## Ethernet (R401; 20 R414) -/

/-- A port changed. -/
def updPort (s : State) (e : Nat) (f : EthPort → EthPort) : State :=
  { s with ethPorts := s.ethPorts.mapIdx fun i x => if i = e then f x else x }

/-- The running slots of a number in the contexts of the partition that owns a port. -/
def frameSlots (s : State) (port slot : Nat) : List Nat :=
  (s.slots.filter fun e => e.2.slot = slot && e.2.state = .running &&
    (slotPart s e.2).any fun p => p.holds (ethDie port)).map (·.1)

/-- ETH_FRAME_RECEIVE: the frame expected is written at the remote base plus its offset, and the last one of a SEND raises
the counter past the latest completion time of all of its frames, if every one has been written (20 R407, R414); a frame for no
running slot is dropped and counted, and one that cannot be written is reported to the sender (20 R418). Which context's slot of the
number it is for is a free choice. A frame holds at most 8,192 bytes of data. -/
def execEthFrameReceive (port : Nat) (frame : EthFrame) (s : State) : Out :=
  .next (match s.ethPorts[port]? with
    | none => s
    | some x =>
      if !ethUp s port ∨ frame.dst ≠ Config.portMac port ∨ frame.sn ≠ x.expected ∨ 8192 < frame.data.length then s
      else
        let took (s : State) (lost : Option Nat) (w : Nat) : State := updPort s port fun x =>
          { x with
            expected := x.expected + 1, acked := x.expected + 1, errors := x.errors + (if lost.isSome then 1 else 0)
            rxWct := if frame.last then 0 else max x.rxWct w
            rxIntact := frame.last || (x.rxIntact && lost.isNone)
            reports := x.reports ++ ((lost.filter (· ≠ 0)).map fun c => (frame.sn, c)).toList }
        let (n, t) := choose s (frameSlots s port frame.slot).length
        match (frameSlots s port frame.slot)[n]? with
        | none => took s (some 0) 0
        | some key => match runningOn s key (ethDie port), Table.look s.slots key with
          | some i, some sl =>
            let va := (frame.base + frame.offset) % 2 ^ 64
            match dieHalt t sl.ctx i.die va frame.data.length with
            | some (.wait p va b) => engineWaits t (2 ^ 68 + port) sl.ctx i.die p va b
            | some (.fail st _ _) => took t (some st) 0
            | none =>
              let (w, s) := diePut t sl.ctx i.die va frame.data
              let s := updSlot (took s none w) key fun y => { y with wct := max y.wct w }
              if !frame.last ∨ !x.rxIntact then s
              else
                let (m, s) := freshId s
                let d : Delivery :=
                  { slotKey := key, fromRank := 64, step := 0, toRank := i.rank, nc := frame.nc, va := va, data := []
                    eth := none, applied := some (max x.rxWct w) }
                { s with deliveries := Table.ins s.deliveries m d }
          | _, _ => took s (some 0) 0)

/-- FRAME_ACKNOWLEDGE: the frames up to the one acknowledged are done, and a delivery with them all is delivered. -/
def execFrameAcknowledge (port sn : Nat) (s : State) : Out :=
  .next (match s.ethPorts[port]? with
    | none => s
    | some x =>
      let left := x.unacked.filter fun f => sn < f.sn
      if left.length = x.unacked.length then s
      else
        let owner := x.owner.filter fun o => sn < o.1
        let doneDl := (x.owner.filter fun o => o.1 ≤ sn && !owner.any fun p => p.2 = o.2).map (·.2)
        let gt := gtOf s (ethDie port)
        let s := updPort s port fun x => { x with unacked := left, owner := owner, resends := 0, lastSend := gt }
        { s with deliveries := Table.sel s.deliveries fun n _ => !doneDl.contains n })

/-- ETH_RESEND_TIMEOUT: 20 µs without an acknowledgement; the frames are sent again, and after eight resends the port has
failed. -/
def execEthResendTimeout (port : Nat) (s : State) : Out :=
  .next (match s.ethPorts[port]? with
    | none => s
    | some x =>
      let gt := gtOf s (ethDie port)
      if x.failed ∨ x.unacked = [] ∨ gt < x.lastSend + 20000 then s
      else if 8 ≤ x.resends then failPort s port
      else updPort s port fun x => { x with resends := x.resends + 1, lastSend := gt })

/-- ETH_LINK_LOSS: a fault of a part (R401): the link is tried once more, and either comes back, which is logged as transient, or
the port has failed (18 R378). Which it is, is a free choice. -/
def execEthLinkLoss (port : Nat) (s : State) : Out :=
  .next (if (s.ethPorts[port]?).any (fun x => !x.failed) then
    let (n, s) := choose s 2
    if n = 0 then failPort s port else logPart s (.ethPort port) 1
  else s)

/-! ## CXL (R400) -/

/-- CXL_SNOOP: on a link that has trained as CXL the home answers once GT has passed the line's latest lease expiry by 4; what the
L1s hold of it goes home. -/
def execCxlSnoop (line : Nat) (s : State) : Out :=
  .next (
    let e := ((Table.look s.homes line).map (·.eMax)).getD 0
    if keyTier (line * 128) ≠ 2 ∨ !tierOpen s (lineCtx s line) (line * 128) ∨ (e ≠ 0 ∧ gtOf s (lineDie s line) ≤ e + 4) then s else recallLine s line)

end Sys2Proof.Machine
end

