-- ==== Sys2Proof/Machine/Service.lean ====
section
/-! DEFINITION. The module's power, reset and bring-up, its bring-up report, resets of its functions, and the health of
its noise sources (06 R147; 26 R434 to R440). -/

namespace Sys2Proof.Machine

/-! ## Power and reset (26 R435 to R439) -/

/-- The panel without power: everything is lost but the host's memory, which lies outside the module. What moves next and the
model's counters are no part of it; what is fused, and the images that its boot loads, stay (18 R381). -/
def panelOff (s : State) : State :=
  { State.reset with
    agenda := s.agenda, choices := s.choices, nextId := s.nextId, draws := s.draws, power := .off
    hostLinks := List.replicate 4 .idle
    images := s.images, fuses := s.fuses, mem := s.mem.filter fun c => keyTier c.1 ≠ 0
    dies := State.reset.dies.map fun d => { d with active := false }
    boundaries := State.reset.boundaries.map fun b => { b with state := .absent } }

/-- Panel reset begun: every die is under test, every boundary trains. -/
def panelBoot (s : State) : State :=
  { panelOff s with
    power := .boot
    dies := State.reset.dies
    boundaries := State.reset.boundaries.map fun b => { b with state := .training } }

/-- POWER_EN_RISE. -/
def execPowerEnRise (s : State) : Out := .next (if s.power = .off then panelBoot s else s)

/-- POWER_EN_FALL. -/
def execPowerEnFall (s : State) : Out := .next (panelOff s)

/-- RESET_N_ASSERT: RESET_N has been low for 1 ms. A module off has nothing to reset, and one that failed its test stays
silent until POWER_EN falls (R438). -/
def execResetNAssert (s : State) : Out := .next (if s.power = .off ∨ s.power = .silent then s else panelBoot s)

/-- THERMAL_THROTTLE: the arithmetic clock is lowered, which changes only time. -/
def execThermalThrottle (die : Nat) (s : State) : Out := .next (updDie s die fun d => { d with throttled := true })

/-- THERMAL_SHUTDOWN: as if POWER_EN had fallen. -/
def execThermalShutdown (_die : Nat) (s : State) : Out := .next (panelOff s)

/-- UNDERVOLTAGE: as if POWER_EN had fallen. -/
def execUndervoltage (s : State) : Out := .next (panelOff s)

/-- The first active die of 14, 15, 20 and 21 (01 R23). -/
def firstRoot (s : State) : Nat := ([14, 15, 20, 21].find? fun d => dieActive s d).getD 14

/-- Whether the module passes test (R438). -/
def passesTest (s : State) : Bool :=
  let act := (List.range 36).filter fun d => dieActive s d
  let h := hopsTo s (firstRoot s)
  decide (34 ≤ act.length) && ([2, 3, 32, 33].any fun d => act.contains d) &&
    decide (2 ≤ ([14, 15, 20, 21].filter fun d => act.contains d).length) && act.all fun d => (hopsOf h d).isSome

/-- What the two signatures of an image cover: its security version number and its digest (18 R381; log entry 60). -/
def imageMessage (x : Image) : List Byte := toBytes 4 x.svn ++ digestBytes x.digest

/-- Whether an image loads (18 R381): its digest is that of its content, both signatures verify under keys whose hashes are
fused, and its security version number is at least the fused minimum. -/
def imageLoads (f : Fuses) (x : Image) : Bool :=
  decide (Config.sha384 x.body = x.digest) &&
    f.keyHashes.contains (Config.sha384 x.edKey) && f.keyHashes.contains (Config.sha384 x.mlKey) &&
    Config.ed25519Ok x.edKey (imageMessage x) x.sigE && Config.mldsaOk x.mlKey (imageMessage x) x.sigM &&
    decide (Table.rd f.minSvn 0 x.comp ≤ x.svn)

/-- The dies that fail test: those that bring-up finds bad, and those with an image that does not load (18 R381). -/
def failsTest (s : State) (dead : List Nat) (d : Nat) : Bool :=
  dead.contains d || s.images.any fun e => e.1 = d && !imageLoads s.fuses e.2

/-- BRING_UP_END: the dies that failed test are mapped out and their boundaries absent; the boundaries listed have failed
training, and those still training are up; the routing tables and the time tree are built and GT starts at zero, a die more than
10 hops from the root is time-lost (01 R23), and each available host link begins to train; or the module is silent. -/
def execBringUpEnd (dead bad : List Nat) (s : State) : Out :=
  .next (
    if s.power ≠ .boot then s
    else
      let s := { s with
        dies := s.dies.mapIdx fun i d => { d with active := !failsTest s dead i, gt := 0, frac := 0 }
        boundaries := s.boundaries.mapIdx fun i b =>
          let e := boundaryEnds i
          if failsTest s dead e.1 ∨ failsTest s dead e.2 then { b with state := .absent }
          else if bad.contains i then { b with state := .failed }
          else if b.state = .training then { b with state := .up } else b }
      if !passesTest s then { s with power := .silent }
      else
        let r := firstRoot s
        let h := hopsTo s r
        let s := { s with
          power := .on, root := r, linkMap := s.boundaries.map fun b => BitVec.ofNat 8 b.state.code
          dies := s.dies.mapIdx fun i d =>
            { d with parent := if !d.active ∨ i = r then none else (nearerPort s h i).map (·.2) } }
        let s := failDies 36 ((tooFar s).map fun d => (d, 5)) (formRoutes s)
        { s with hostLinks := s.hostLinks.mapIdx fun k x => { x with training := linkAvailable s k } })

/-! ## The bring-up report (26 R440) -/

/-- BUACT0. -/
def buact0 (s : State) : Word :=
  if s.power ≠ .on then 0 else BitVec.ofNat 32 ((s.dies.mapIdx fun i d => if d.active ∧ i < 32 then 2 ^ i else 0).sum)

/-- BUACT1. -/
def buact1 (s : State) : Word :=
  if s.power ≠ .on then 0
  else
    let on (d : Nat) : Bool := (dieAt s d).any (·.active)
    let count (n : Nat) (f : Nat → Nat) : Nat := ((List.range n).filter fun k => on (f k)).foldl (fun t k => t + 2 ^ k) 0
    BitVec.ofNat 32 (2 ^ 31 + (s.dies.filter fun d => d.active).length * 2 ^ 16 + count 8 ethDie * 2 ^ 8 +
      count 4 linkDie * 16 + count 4 (32 + ·))

/-! ## What the host reads (00 R6; 17 R350; 18 R364) -/

/-- A read of a register: one that is write-only reads zero, and so does a queue that is not there. -/
def regRead (s : State) (reg : RegTarget) : Word :=
  match reg with
  | .accept ctx q => ((queueAt s ctx q).map fun u => u.2.accept).getD 0
  | .done ctx q => ((queueAt s ctx q).map fun u => u.2.done).getD 0
  | .qstat ctx q => ((queueAt s ctx q).map fun u => BitVec.ofNat 32 u.2.stat).getD 0
  | .mailboxWord vf i => if i < 16 then Table.rd (mailboxOf s vf).words 0 i else 0
  | .mbdoor _ => 0
  | .mbstat vf =>
    let m := mailboxOf s vf
    BitVec.ofNat 32 ((if m.busy then 2 ^ 31 else 0) + m.result.toNat)
  | .buact0 => buact0 s
  | .buact1 => buact1 s
  | .linkControl k =>
    match s.hostLinks[k]? with
    | some l => BitVec.ofNat 32 ((if l.requester then 1 else 0) + (if l.cxl then 2 else 0) + (if l.training then 0 else 4) +
        if l.completer then 8 else 0)
    | none => 0

/-- A register of a mailbox by its offset in the BAR that holds it (18 R364). -/
def mailboxReg (vf off : Nat) : Option RegTarget :=
  if off < 0x40 then some (.mailboxWord vf (off / 4))
  else if off = 0x40 then some (.mbdoor vf)
  else if off = 0x44 then some (.mbstat vf) else none

/-- A register of the PF's BAR0 by its offset (18 R364; 26 R440). -/
def pfReg (off : Nat) : Option RegTarget :=
  if off = 0x100 then some .buact0 else if off = 0x104 then some .buact1 else mailboxReg 0 off

/-- A register of a queue's block by its offset (17 R350); DOORBELL takes kicks and is no register of this list. -/
def queueReg (ctx q off : Nat) : Option RegTarget :=
  if off = 4 then some (.accept ctx q) else if off = 8 then some (.done ctx q) else if off = 0xC then some (.qstat ctx q)
  else none

/-- A 32-bit read of the PF's BAR0. -/
def pfRead (s : State) (off : Nat) : Word := ((pfReg off).map (regRead s)).getD 0

/-- A 32-bit read of a VF's BAR: its mailbox at 0x0000, the block of queue q of its context at 0x1000 + 64q. DOORBELL and the
rest of a block read zero. -/
def vfRead (s : State) (vf off : Nat) : Word :=
  if off < 0x1000 then ((mailboxReg vf off).map (regRead s)).getD 0
  else match ctxOfVf s vf with
    | some (ctx, _) => ((queueReg ctx ((off - 0x1000) / 64) ((off - 0x1000) % 64)).map (regRead s)).getD 0
    | none => 0

/-! ## Resets of links and functions (26 R437) -/

/-- HOST_LINK_RESET: that port alone starts again. -/
def execHostLinkReset (link : Nat) (s : State) : Out :=
  .next (updLink s link fun l => { HostLink.reset with failed := l.failed })

/-- VF_FLR: as CDESTROY of its context. -/
def execVfFlr (vf : Nat) (s : State) : Out :=
  .next (match ctxOfVf s vf with
    | some (n, _) => destroyContext s n
    | none => s)

/-- PF_FLR: as PDESTROY of every partition. -/
def execPfFlr (s : State) : Out := .next ((s.partitions.map (·.1)).foldl destroyPartition s)

/-! ## The noise sources' health (06 R146, R147) -/

/-- HEALTH_TEST_FAIL: HFAIL is set for every context with a group on the core, and drawing stalls there. A core of the context
(R146) is taken to be one on which the context has a seated group when the test fails: one seated there later, while the failure
lasts, is not set by it (DESIGN CHOICE, log entry 69). -/
def execHealthTestFail (core : Nat) (s : State) : Out :=
  .next (
    let die := coreDie core
    let s := updDie s die fun d =>
      if d.healthFail.any fun e => e.1 = core % 96 then d
      else { d with healthFail := d.healthFail ++ [(core % 96, d.gt, false)] }
    let here := (s.groups.filter fun g => (g.2.state = .resident || g.2.state = .begun) && g.2.die = die &&
      g.2.core = core % 96).filterMap fun g => (kernelAt s g.2.kernel).map (·.ctx)
    (dedup here).foldl (fun s ctx => updCtx s ctx fun c => { c with rngctl := c.rngctl ||| 0x80000000 }) s)

/-- HEALTH_TEST_PASS: drawing resumes. -/
def execHealthTestPass (core : Nat) (s : State) : Out :=
  .next (updDie s (coreDie core) fun d => { d with healthFail := d.healthFail.filter fun e => e.1 ≠ core % 96 })

/-- HEALTH_FAIL_LOG: a failure of 1 ms is logged once as a core error. -/
def execHealthFailLog (core : Nat) (s : State) : Out :=
  .next (
    let die := coreDie core
    match (dieAt s die).bind fun d => d.healthFail.find? fun e => e.1 = core % 96 with
    | some (c, since, false) =>
      if gtOf s die < since + 1000000 then s
      else
        let s := logError s die 4 6 c 0 0 (partWord s die)
        updDie s die fun d =>
          { d with healthFail := d.healthFail.map fun e => if e.1 = c then (e.1, e.2.1, true) else e }
    | _ => s)

end Sys2Proof.Machine
end

