-- ==== Sys2Proof/Machine/System.lean ====
section
/-! DEFINITION. System registers (06 R142 to R146; 10 R228; 18 R367, R386). -/

namespace Sys2Proof.Machine

/-- What the directory grants at a level (R142). -/
inductive Access where
  | none | ro | rw
  deriving DecidableEq, Repr

/-- The directory (R143, R386): the access of a number at program level and at handler level; `none` outside it. The
debug and profiling numbers are those from 0x100 to 0x1FF, and they need their passport feature. -/
def directory (s : State) (ctx n : Nat) (handler : Bool) : Option Access :=
  let pick (p h : Access) : Option Access := some (if handler then h else p)
  let feat (bit : Nat) (p h : Access) : Option Access := if debugOn s ctx bit then pick p h else some .rw
  if n = 0x000 ∨ n = 0x001 ∨ n = 0x003 ∨ n = 0x004 then pick .none .rw
  else if n = 0x002 ∨ (0x005 ≤ n ∧ n ≤ 0x008) then pick .none .ro
  else if n = 0x010 ∨ n = 0x011 ∨ n = 0x014 then pick .ro .ro
  else if n = 0x012 ∨ n = 0x013 ∨ (0x018 ≤ n ∧ n ≤ 0x01B) ∨ (0x020 ≤ n ∧ n ≤ 0x024) then pick .ro .rw
  else if n < 0x100 ∨ 0x1FF < n then none
  else if n ≤ 0x102 then (if (match (ctxAt s ctx).bind fun c => partAt s c.part with
      | some p => p.passport.isSome | none => false) then pick .ro .ro else some .rw)
  else if 0x108 ≤ n ∧ n ≤ 0x10B then feat 0 .rw .rw
  else if 0x110 ≤ n ∧ n ≤ 0x117 then feat 0 .ro .ro
  else if n = 0x120 ∨ n = 0x122 ∨ n = 0x123 then feat 2 .none .rw
  else if 0x130 ≤ n ∧ n ≤ 0x132 then feat 1 .none .rw
  else if n = 0x133 then feat 1 .ro .ro
  else some .rw

/-- Whether a debug or profiling number works now (R386): its passport is installed with its feature. -/
def debugWorks (s : State) (ctx n : Nat) : Bool :=
  if n ≤ 0x102 then (match (ctxAt s ctx).bind fun c => partAt s c.part with
      | some p => p.passport.isSome | none => false)
  else if 0x108 ≤ n ∧ n ≤ 0x117 ∧ (n ≤ 0x10B ∨ 0x110 ≤ n) then debugOn s ctx 0
  else if n = 0x120 ∨ n = 0x122 ∨ n = 0x123 then debugOn s ctx 2
  else if 0x130 ≤ n ∧ n ≤ 0x133 then debugOn s ctx 1
  else false

/-- A register's value as RDSR reads it (R143). GTIMEL latches the GT of the group's die. -/
def readSys (s : State) (i : Iss) (n : Nat) : Word × State :=
  let lo (x : Nat) : Word := BitVec.ofNat 32 x
  let hi (x : Nat) : Word := BitVec.ofNat 32 (x / 2 ^ 32)
  match ctxAt s i.k.ctx with
  | none => (0, s)
  | some c =>
    if 0x100 ≤ n then
      if !debugWorks s i.k.ctx n then (0, s)
      else
        let pp := (partAt s c.part).bind (·.passport)
        match n with
        | 0x100 => ((match pp with | some p => 0x80000000 + p.feat.setWidth 32 | none => 0), s)
        | 0x101 => (lo ((pp.map (·.expiry)).getD 0), s)
        | 0x102 => (hi ((pp.map (·.expiry)).getD 0), s)
        | 0x120 => (i.g.dbgctl, s)
        | 0x122 => (i.g.brk.extractLsb' 0 32, s)
        | 0x123 => (i.g.brk.extractLsb' 32 32, s)
        | 0x130 => (c.trcb.extractLsb' 0 32, s)
        | 0x131 => (c.trcb.extractLsb' 32 32, s)
        | 0x132 => (c.trcsz, s)
        | 0x133 => (c.trcpos, s)
        | _ =>
          if n ≤ 0x10B then (Table.rd i.g.pcsel 0 (n - 0x108), s)
          else
            let v := Table.rd i.g.pcnt 0 ((n - 0x110) / 2)
            (if n % 2 = 0 then lo v else hi v, s)
    else match n with
      | 0x000 => (c.tvec.extractLsb' 0 32, s)
      | 0x001 => (c.tvec.extractLsb' 32 32, s)
      | 0x002 => (i.g.tcause, s)
      | 0x003 => (i.g.tepc.extractLsb' 0 32, s)
      | 0x004 => (i.g.tepc.extractLsb' 32 32, s)
      | 0x005 => (i.g.taddr.extractLsb' 0 32, s)
      | 0x006 => (i.g.taddr.extractLsb' 32 32, s)
      | 0x007 => (i.g.tmask.extractLsb' 0 32, s)
      | 0x008 => (i.g.tmask.extractLsb' 32 32, s)
      | 0x010 =>
        let t := gtOf s i.g.die
        (lo t, updGroup s i.gid fun g => { g with gtime := BitVec.ofNat 64 t })
      | 0x011 => (i.g.gtime.extractLsb' 32 32, s)
      | 0x012 => (c.lease, s)
      | 0x013 => (c.fairt, s)
      | 0x014 => (lo i.k.wdog, s)
      | 0x018 => (c.rngctl, s)
      | 0x019 => (c.rngbase.extractLsb' 0 32, s)
      | 0x01A => (c.rngbase.extractLsb' 32 32, s)
      | 0x01B => (c.rngseg, s)
      | 0x020 => (c.opaq, s)
      | 0x021 => (c.gwin, s)
      | 0x022 => (c.dens, s)
      | 0x023 => (c.outl, s)
      | 0x024 => (c.hotthr, s)
      | _ => (0, s)

/-- A 64-bit register with one half written. -/
def setHalf (x : DWord) (high : Bool) (v : Word) : DWord :=
  if high then v ++ x.extractLsb' 0 32 else x.extractLsb' 32 32 ++ v

/-- RNGCTL written (R146): HFAIL and EXH clear where 1 is written, a MODE of 0b11 leaves MODE. -/
def writeRngctl (old v : Word) : Word :=
  let flags := old &&& 0xC0000000 &&& ~~~v
  let mode := if v &&& 3 = 3 then old &&& 3 else v &&& 3
  flags ||| mode

/-- A register as WRSR writes it (00 R6, R7; R143 to R146, R386): reserved bits ignore what is written. -/
def writeSys (s : State) (i : Iss) (n : Nat) (v : Word) : State :=
  let ctx (f : Context → Context) : State := updCtx s i.k.ctx f
  let grp (f : Group → Group) : State := updGroup s i.gid f
  if 0x100 ≤ n then
    if !debugWorks s i.k.ctx n then s
    else match n with
      | 0x120 => grp fun g => { g with dbgctl := v &&& 3 }
      | 0x122 => grp fun g => { g with brk := setHalf g.brk false v }
      | 0x123 => grp fun g => { g with brk := setHalf g.brk true v }
      | 0x130 => ctx fun c => { c with trcb := setHalf c.trcb false (v &&& 0xFFFFFFC0) }
      | 0x131 => ctx fun c => { c with trcb := setHalf c.trcb true v }
      | 0x132 => ctx fun c => { c with trcsz := v &&& 0xFFFFFFC0 }
      | _ =>
        if n ≤ 0x10B then grp fun g =>
          { g with pcsel := Table.wr g.pcsel 0 (n - 0x108) (v &&& 0xFF), pcnt := Table.del g.pcnt (n - 0x108) }
        else s
  else match n with
    | 0x000 => ctx fun c => { c with tvec := setHalf c.tvec false (v &&& 0xFFFFFFFC) }
    | 0x001 => ctx fun c => { c with tvec := setHalf c.tvec true v }
    | 0x003 => grp fun g => { g with tepc := setHalf g.tepc false v }
    | 0x004 => grp fun g => { g with tepc := setHalf g.tepc true v }
    | 0x012 => ctx fun c => { c with lease := v &&& 0x00FFFFFF }
    | 0x013 => ctx fun c => { c with fairt := BitVec.ofNat 32 (max 100 (min 65535 v.toNat)) }
    | 0x018 => ctx fun c => { c with rngctl := writeRngctl c.rngctl v }
    | 0x019 => ctx fun c => { c with rngbase := setHalf c.rngbase false (v &&& 0xFFFFFFC0) }
    | 0x01A => ctx fun c => { c with rngbase := setHalf c.rngbase true v }
    | 0x01B => ctx fun c => { c with rngseg := v &&& 0xFFFFFFC0 }
    | 0x020 => ctx fun c => { c with opaq := v }
    | 0x021 => ctx fun c => { c with gwin := v &&& 0xFFFF }
    | 0x022 => ctx fun c => { c with dens := v &&& 0xFFFF }
    | 0x023 => ctx fun c => { c with outl := v }
    | 0x024 => ctx fun c => { c with hotthr := v &&& 0xFF }
    | _ => s

/-- RDSR (R142). No rule gives TADDR and TMASK of trap 0x02; they are 0 (log entry 61). -/
def execRdsr (d : BitVec 6) (n : BitVec 18) (s : State) : Out :=
  uniform s (fun i => (directory s i.k.ctx n.toNat i.f.handler.isSome).isSome) [d.toNat] fun i =>
    match directory s i.k.ctx n.toNat i.f.handler.isSome with
    | some .none => trapHere s i 0x02 0 0
    | _ => let (x, s) := readSys s i n.toNat; putS s i d x

/-- WRSR (R142). Trap 0x02 as in RDSR (log entry 61). -/
def execWrsr (d : BitVec 6) (n : BitVec 18) (s : State) : Out :=
  uniform s (fun i => (directory s i.k.ctx n.toNat i.f.handler.isSome).isSome) [d.toNat] fun i =>
    match directory s i.k.ctx n.toNat i.f.handler.isSome with
    | some .rw => finish (writeSys s i n.toNat (i.g.readS d.toNat)) i
    | _ => trapHere s i 0x02 0 0

end Sys2Proof.Machine
end

