-- ==== Sys2Proof/Machine/Dispatch.lean ====
section
/-! DEFINITION. The meaning of every instruction and event, one arm for each. -/

namespace Sys2Proof.Machine

/-- What an instruction word, issued by the fibre `cur` names, or an event does. -/
def exec (i : Instr) (s : State) : Host.Outcome State Fault Refusal :=
  match i with
  | .iadd d a b => Sys2Proof.Machine.execIadd d a b s
  | .isub d a b => Sys2Proof.Machine.execIsub d a b s
  | .imul d a b => Sys2Proof.Machine.execImul d a b s
  | .imulh d a b => Sys2Proof.Machine.execImulh d a b s
  | .umulh d a b => Sys2Proof.Machine.execUmulh d a b s
  | .imad d a b => Sys2Proof.Machine.execImad d a b s
  | .imin d a b => Sys2Proof.Machine.execImin d a b s
  | .imax d a b => Sys2Proof.Machine.execImax d a b s
  | .umin d a b => Sys2Proof.Machine.execUmin d a b s
  | .umax d a b => Sys2Proof.Machine.execUmax d a b s
  | .and d a b => Sys2Proof.Machine.execAnd d a b s
  | .or d a b => Sys2Proof.Machine.execOr d a b s
  | .xor d a b => Sys2Proof.Machine.execXor d a b s
  | .andn d a b => Sys2Proof.Machine.execAndn d a b s
  | .shl d a b => Sys2Proof.Machine.execShl d a b s
  | .shr d a b => Sys2Proof.Machine.execShr d a b s
  | .sar d a b => Sys2Proof.Machine.execSar d a b s
  | .rol d a b => Sys2Proof.Machine.execRol d a b s
  | .popc d a => Sys2Proof.Machine.execPopc d a s
  | .clz d a => Sys2Proof.Machine.execClz d a s
  | .brev d a => Sys2Proof.Machine.execBrev d a s
  | .bfx d a b => Sys2Proof.Machine.execBfx d a b s
  | .bfi d a b => Sys2Proof.Machine.execBfi d a b s
  | .icmp c p a b => Sys2Proof.Machine.execIcmp c p a b s
  | .ucmp c p a b => Sys2Proof.Machine.execUcmp c p a b s
  | .mov d a => Sys2Proof.Machine.execMov d a s
  | .sel d a b => Sys2Proof.Machine.execSel d a b s
  | .iaddi d a x2 => Sys2Proof.Machine.execIaddi d a x2 s
  | .shli d a x2 => Sys2Proof.Machine.execShli d a x2 s
  | .shri d a x2 => Sys2Proof.Machine.execShri d a x2 s
  | .sari d a x2 => Sys2Proof.Machine.execSari d a x2 s
  | .andi d a x2 => Sys2Proof.Machine.execAndi d a x2 s
  | .ori d a x2 => Sys2Proof.Machine.execOri d a x2 s
  | .xori d a x2 => Sys2Proof.Machine.execXori d a x2 s
  | .movi d x1 => Sys2Proof.Machine.execMovi d x1 s
  | .fadd d a b => Sys2Proof.Machine.execFadd d a b s
  | .fsub d a b => Sys2Proof.Machine.execFsub d a b s
  | .fmul d a b => Sys2Proof.Machine.execFmul d a b s
  | .ffma d a b => Sys2Proof.Machine.execFfma d a b s
  | .fmin d a b => Sys2Proof.Machine.execFmin d a b s
  | .fmax d a b => Sys2Proof.Machine.execFmax d a b s
  | .fcmp c p a b => Sys2Proof.Machine.execFcmp c p a b s
  | .fclass d a => Sys2Proof.Machine.execFclass d a s
  | .frcp d a => Sys2Proof.Machine.execFrcp d a s
  | .frsq d a => Sys2Proof.Machine.execFrsq d a s
  | .fsqrt d a => Sys2Proof.Machine.execFsqrt d a s
  | .fexp2 d a => Sys2Proof.Machine.execFexp2 d a s
  | .flog2 d a => Sys2Proof.Machine.execFlog2 d a s
  | .fsin d a => Sys2Proof.Machine.execFsin d a s
  | .fcos d a => Sys2Proof.Machine.execFcos d a s
  | .ftanh d a => Sys2Proof.Machine.execFtanh d a s
  | .hadd2 d a b => Sys2Proof.Machine.execHadd2 d a b s
  | .hmul2 d a b => Sys2Proof.Machine.execHmul2 d a b s
  | .hfma2 d a b => Sys2Proof.Machine.execHfma2 d a b s
  | .hmin2 d a b => Sys2Proof.Machine.execHmin2 d a b s
  | .hmax2 d a b => Sys2Proof.Machine.execHmax2 d a b s
  | .dot4 d a b => Sys2Proof.Machine.execDot4 d a b s
  | .fdot2 d a b => Sys2Proof.Machine.execFdot2 d a b s
  | .frnd d a => Sys2Proof.Machine.execFrnd d a s
  | .cvtif d a => Sys2Proof.Machine.execCvtif d a s
  | .cvtfi d a => Sys2Proof.Machine.execCvtfi d a s
  | .cvtfh d a b => Sys2Proof.Machine.execCvtfh d a b s
  | .cvthf d a => Sys2Proof.Machine.execCvthf d a s
  | .cvt8p d a => Sys2Proof.Machine.execCvt8p d a s
  | .cvt8u d a => Sys2Proof.Machine.execCvt8u d a s
  | .qswapx d a => Sys2Proof.Machine.execQswapx d a s
  | .qswapy d a => Sys2Proof.Machine.execQswapy d a s
  | .qswapd d a => Sys2Proof.Machine.execQswapd d a s
  | .qbcast d a b => Sys2Proof.Machine.execQbcast d a b s
  | .shfl d a b => Sys2Proof.Machine.execShfl d a b s
  | .shflup d a b => Sys2Proof.Machine.execShflup d a b s
  | .shfldn d a b => Sys2Proof.Machine.execShfldn d a b s
  | .reorder b k x2 c => Sys2Proof.Machine.execReorder b k x2 c s
  | .ld8u d a f => Sys2Proof.Machine.execLd8u d a f s
  | .ld8s d a f => Sys2Proof.Machine.execLd8s d a f s
  | .ld16u d a f => Sys2Proof.Machine.execLd16u d a f s
  | .ld32 d a f => Sys2Proof.Machine.execLd32 d a f s
  | .ld64 d a f => Sys2Proof.Machine.execLd64 d a f s
  | .ld128 d a f => Sys2Proof.Machine.execLd128 d a f s
  | .st8 d a f => Sys2Proof.Machine.execSt8 d a f s
  | .st16 d a f => Sys2Proof.Machine.execSt16 d a f s
  | .st32 d a f => Sys2Proof.Machine.execSt32 d a f s
  | .st64 d a f => Sys2Proof.Machine.execSt64 d a f s
  | .st128 d a f => Sys2Proof.Machine.execSt128 d a f s
  | .lcpy d a f => Sys2Proof.Machine.execLcpy d a f s
  | .lds32 d a f => Sys2Proof.Machine.execLds32 d a f s
  | .lds64 d a f => Sys2Proof.Machine.execLds64 d a f s
  | .lds128 d a f => Sys2Proof.Machine.execLds128 d a f s
  | .sts32 d a f => Sys2Proof.Machine.execSts32 d a f s
  | .sts64 d a f => Sys2Proof.Machine.execSts64 d a f s
  | .sts128 d a f => Sys2Proof.Machine.execSts128 d a f s
  | .atadd d a b => Sys2Proof.Machine.execAtadd d a b s
  | .atfadd d a b => Sys2Proof.Machine.execAtfadd d a b s
  | .atmin d a b => Sys2Proof.Machine.execAtmin d a b s
  | .atmax d a b => Sys2Proof.Machine.execAtmax d a b s
  | .atand d a b => Sys2Proof.Machine.execAtand d a b s
  | .ator d a b => Sys2Proof.Machine.execAtor d a b s
  | .atxor d a b => Sys2Proof.Machine.execAtxor d a b s
  | .atxchg d a b => Sys2Proof.Machine.execAtxchg d a b s
  | .atcas d a b => Sys2Proof.Machine.execAtcas d a b s
  | .atinc d a b => Sys2Proof.Machine.execAtinc d a b s
  | .redadd a b => Sys2Proof.Machine.execRedadd a b s
  | .redfadd a b => Sys2Proof.Machine.execRedfadd a b s
  | .redmin a b => Sys2Proof.Machine.execRedmin a b s
  | .redmax a b => Sys2Proof.Machine.execRedmax a b s
  | .mma y t a b => Sys2Proof.Machine.execMma y t a b s
  | .accrd r t g => Sys2Proof.Machine.execAccrd r t g s
  | .accwr r t g => Sys2Proof.Machine.execAccwr r t g s
  | .neval d a h => Sys2Proof.Machine.execNeval d a h s
  | .tex d c x2 => Sys2Proof.Machine.execTex d c x2 s
  | .splat r f => Sys2Proof.Machine.execSplat r f s
  | .sumq a v => Sys2Proof.Machine.execSumq a v s
  | .sumh a v => Sys2Proof.Machine.execSumh a v s
  | .sumd a v => Sys2Proof.Machine.execSumd a v s
  | .clause w a b l => Sys2Proof.Machine.execClause w a b l s
  | .pfx c m z r t x5 o f => Sys2Proof.Machine.execPfx c m z r t x5 o f s
  | .pfxi x0 => Sys2Proof.Machine.execPfxi x0 s
  | .rep c d a b => Sys2Proof.Machine.execRep c d a b s
  | .nop => Sys2Proof.Machine.execNop s
  | .bra o => Sys2Proof.Machine.execBra o s
  | .brc x0 n o => Sys2Proof.Machine.execBrc x0 n o s
  | .brp p n o => Sys2Proof.Machine.execBrp p n o s
  | .call o => Sys2Proof.Machine.execCall o s
  | .ret => Sys2Proof.Machine.execRet s
  | .fork p o => Sys2Proof.Machine.execFork p o s
  | .fdone => Sys2Proof.Machine.execFdone s
  | .join p => Sys2Proof.Machine.execJoin p s
  | .yield => Sys2Proof.Machine.execYield s
  | .waitf m => Sys2Proof.Machine.execWaitf m s
  | .exit => Sys2Proof.Machine.execExit s
  | .sadd d a b => Sys2Proof.Machine.execSadd d a b s
  | .ssub d a b => Sys2Proof.Machine.execSsub d a b s
  | .smul d a b => Sys2Proof.Machine.execSmul d a b s
  | .smulh d a b u => Sys2Proof.Machine.execSmulh d a b u s
  | .sand d a b => Sys2Proof.Machine.execSand d a b s
  | .sor d a b => Sys2Proof.Machine.execSor d a b s
  | .sxor d a b => Sys2Proof.Machine.execSxor d a b s
  | .sshl d a b => Sys2Proof.Machine.execSshl d a b s
  | .sshlImm d a n => Sys2Proof.Machine.execSshlImm d a n s
  | .sshr d a b => Sys2Proof.Machine.execSshr d a b s
  | .sshrImm d a n => Sys2Proof.Machine.execSshrImm d a n s
  | .ssar d a b => Sys2Proof.Machine.execSsar d a b s
  | .ssarImm d a n => Sys2Proof.Machine.execSsarImm d a n s
  | .smin d a b u => Sys2Proof.Machine.execSmin d a b u s
  | .smax d a b u => Sys2Proof.Machine.execSmax d a b u s
  | .scmp d a b u c => Sys2Proof.Machine.execScmp d a b u c s
  | .ssel d a b c => Sys2Proof.Machine.execSsel d a b c s
  | .spopc d a => Sys2Proof.Machine.execSpopc d a s
  | .sclz d a => Sys2Proof.Machine.execSclz d a s
  | .smov d a => Sys2Proof.Machine.execSmov d a s
  | .smovi d x1 => Sys2Proof.Machine.execSmovi d x1 s
  | .smovh d x1 => Sys2Proof.Machine.execSmovh d x1 s
  | .saddi d x1 => Sys2Proof.Machine.execSaddi d x1 s
  | .sadd64 d a b => Sys2Proof.Machine.execSadd64 d a b s
  | .sballot p a => Sys2Proof.Machine.execSballot p a s
  | .sballotToS d p => Sys2Proof.Machine.execSballotToS d p s
  | .pand d a b => Sys2Proof.Machine.execPand d a b s
  | .por d a b => Sys2Proof.Machine.execPor d a b s
  | .pxor d a b => Sys2Proof.Machine.execPxor d a b s
  | .pnot d a => Sys2Proof.Machine.execPnot d a s
  | .rdlane d a v => Sys2Proof.Machine.execRdlane d a v s
  | .wrlane d a v => Sys2Proof.Machine.execWrlane d a v s
  | .sld d a b z o => Sys2Proof.Machine.execSld d a b z o s
  | .sst d a b z o => Sys2Proof.Machine.execSst d a b z o s
  | .satom d a b o p => Sys2Proof.Machine.execSatom d a b o p s
  | .fence f => Sys2Proof.Machine.execFence f s
  | .icinv a b => Sys2Proof.Machine.execIcinv a b s
  | .isync => Sys2Proof.Machine.execIsync s
  | .cwb a b => Sys2Proof.Machine.execCwb a b s
  | .cwbAll => Sys2Proof.Machine.execCwbAll s
  | .pref a b => Sys2Proof.Machine.execPref a b s
  | .prefHome a b => Sys2Proof.Machine.execPrefHome a b s
  | .pcopy t d k f => Sys2Proof.Machine.execPcopy t d k f s
  | .ptile t d k f => Sys2Proof.Machine.execPtile t d k f s
  | .pstore t d k f => Sys2Proof.Machine.execPstore t d k f s
  | .pgath t d k f => Sys2Proof.Machine.execPgath t d k f s
  | .pscat t d k f => Sys2Proof.Machine.execPscat t d k f s
  | .pfill t d k f => Sys2Proof.Machine.execPfill t d k f s
  | .mloop d f => Sys2Proof.Machine.execMloop d f s
  | .accz t => Sys2Proof.Machine.execAccz t s
  | .accld t a f => Sys2Proof.Machine.execAccld t a f s
  | .accst t a f => Sys2Proof.Machine.execAccst t a f s
  | .mlink l n => Sys2Proof.Machine.execMlink l n s
  | .barr d l n => Sys2Proof.Machine.execBarr d l n s
  | .barw a l n => Sys2Proof.Machine.execBarw a l n s
  | .barrw l n => Sys2Proof.Machine.execBarrw l n s
  | .barq d l n => Sys2Proof.Machine.execBarq d l n s
  | .spinh a => Sys2Proof.Machine.execSpinh a s
  | .suminit k a f => Sys2Proof.Machine.execSuminit k a f s
  | .summerge a b f => Sys2Proof.Machine.execSummerge a b f s
  | .sumrd d a b q => Sys2Proof.Machine.execSumrd d a b q s
  | .nbind d a => Sys2Proof.Machine.execNbind d a s
  | .nbindRel d a => Sys2Proof.Machine.execNbindRel d a s
  | .spflush d a f => Sys2Proof.Machine.execSpflush d a f s
  | .sptile d a => Sys2Proof.Machine.execSptile d a s
  | .cstart d a f => Sys2Proof.Machine.execCstart d a f s
  | .carm a b n => Sys2Proof.Machine.execCarm a b n s
  | .cquery d a n => Sys2Proof.Machine.execCquery d a n s
  | .cqueryState d a => Sys2Proof.Machine.execCqueryState d a s
  | .trap x0 => Sys2Proof.Machine.execTrap x0 s
  | .rdsr d x1 => Sys2Proof.Machine.execRdsr d x1 s
  | .wrsr d x1 => Sys2Proof.Machine.execWrsr d x1 s
  | .rdtime d => Sys2Proof.Machine.execRdtime d s
  | .rng d => Sys2Proof.Machine.execRng d s
  | .region => Sys2Proof.Machine.execRegion s
  | .launch d a b f => Sys2Proof.Machine.execLaunch d a b f s
  | .fibreWaitMet g f => Sys2Proof.Machine.execFibreWaitMet g f s
  | .fibreDue g f => Sys2Proof.Machine.execFibreDue g f s
  | .abortedFibreResume g f => Sys2Proof.Machine.execAbortedFibreResume g f s
  | .trapDelivery g f => Sys2Proof.Machine.execTrapDelivery g f s
  | .loadReturn op => Sys2Proof.Machine.execLoadReturn op s
  | .ldsReturn op => Sys2Proof.Machine.execLdsReturn op s
  | .lcpyComplete op => Sys2Proof.Machine.execLcpyComplete op s
  | .atomicReturn op => Sys2Proof.Machine.execAtomicReturn op s
  | .sldReturn op => Sys2Proof.Machine.execSldReturn op s
  | .homeFill op line => Sys2Proof.Machine.execHomeFill op line s
  | .fillInstall fill => Sys2Proof.Machine.execFillInstall fill s
  | .leaseExpiry core line => Sys2Proof.Machine.execLeaseExpiry core line s
  | .homeWriteApply wr => Sys2Proof.Machine.execHomeWriteApply wr s
  | .writeAck wr => Sys2Proof.Machine.execWriteAck wr s
  | .l1Eviction core line => Sys2Proof.Machine.execL1Eviction core line s
  | .updateOnlyGrant wr => Sys2Proof.Machine.execUpdateOnlyGrant wr s
  | .partialFold part => Sys2Proof.Machine.execPartialFold part s
  | .recallReply line => Sys2Proof.Machine.execRecallReply line s
  | .pageWalk core ctx va => Sys2Proof.Machine.execPageWalk core ctx va s
  | .stagingDone job => Sys2Proof.Machine.execStagingDone job s
  | .evictionDone job => Sys2Proof.Machine.execEvictionDone job s
  | .collapseDone job => Sys2Proof.Machine.execCollapseDone job s
  | .migrationBegin ctx va die frame => Sys2Proof.Machine.execMigrationBegin ctx va die frame s
  | .migrationDone job => Sys2Proof.Machine.execMigrationDone job s
  | .uncorrectableError line => Sys2Proof.Machine.execUncorrectableError line s
  | .hotnessHalve die => Sys2Proof.Machine.execHotnessHalve die s
  | .porterStart cmd => Sys2Proof.Machine.execPorterStart cmd s
  | .porterComplete cmd => Sys2Proof.Machine.execPorterComplete cmd s
  | .mmaComplete g op => Sys2Proof.Machine.execMmaComplete g op s
  | .accrdComplete g op => Sys2Proof.Machine.execAccrdComplete g op s
  | .accMoveComplete g op => Sys2Proof.Machine.execAccMoveComplete g op s
  | .mloopStart block quartet => Sys2Proof.Machine.execMloopStart block quartet s
  | .mloopComplete g op => Sys2Proof.Machine.execMloopComplete g op s
  | .barrierRelease bar => Sys2Proof.Machine.execBarrierRelease bar s
  | .summaryStep g op => Sys2Proof.Machine.execSummaryStep g op s
  | .summaryComplete g op => Sys2Proof.Machine.execSummaryComplete g op s
  | .sumrdResult g f => Sys2Proof.Machine.execSumrdResult g f s
  | .holdRecall line => Sys2Proof.Machine.execHoldRecall line s
  | .nbindResolve g f => Sys2Proof.Machine.execNbindResolve g f s
  | .caravanLanePlace ev => Sys2Proof.Machine.execCaravanLanePlace ev s
  | .caravanWindowExpiry tile => Sys2Proof.Machine.execCaravanWindowExpiry tile s
  | .caravanTileDone tile => Sys2Proof.Machine.execCaravanTileDone tile s
  | .nevalComplete ev => Sys2Proof.Machine.execNevalComplete ev s
  | .texComplete ev => Sys2Proof.Machine.execTexComplete ev s
  | .splatSubmit op => Sys2Proof.Machine.execSplatSubmit op s
  | .splatComplete op => Sys2Proof.Machine.execSplatComplete op s
  | .waystationFile recd => Sys2Proof.Machine.execWaystationFile recd s
  | .flushRequest fl die => Sys2Proof.Machine.execFlushRequest fl die s
  | .flushListsForward fl => Sys2Proof.Machine.execFlushListsForward fl s
  | .tileComposite fl tile => Sys2Proof.Machine.execTileComposite fl tile s
  | .spflushComplete fl => Sys2Proof.Machine.execSpflushComplete fl s
  | .launchAppend la => Sys2Proof.Machine.execLaunchAppend la s
  | .courierSetup cmd => Sys2Proof.Machine.execCourierSetup cmd s
  | .courierProgramBegin slot => Sys2Proof.Machine.execCourierProgramBegin slot s
  | .cstepSend slot rank stp => Sys2Proof.Machine.execCstepSend slot rank stp s
  | .cstepRecv slot rank stp => Sys2Proof.Machine.execCstepRecv slot rank stp s
  | .cstepRred slot rank stp => Sys2Proof.Machine.execCstepRred slot rank stp s
  | .cstepRacc slot rank stp => Sys2Proof.Machine.execCstepRacc slot rank stp s
  | .cstepCopy slot rank stp => Sys2Proof.Machine.execCstepCopy slot rank stp s
  | .cstepWait slot rank stp => Sys2Proof.Machine.execCstepWait slot rank stp s
  | .cstepLoop slot rank stp => Sys2Proof.Machine.execCstepLoop slot rank stp s
  | .cstepNext slot rank stp => Sys2Proof.Machine.execCstepNext slot rank stp s
  | .cstepArm slot rank stp => Sys2Proof.Machine.execCstepArm slot rank stp s
  | .cstepSig slot rank stp => Sys2Proof.Machine.execCstepSig slot rank stp s
  | .cstepHalt slot rank stp => Sys2Proof.Machine.execCstepHalt slot rank stp s
  | .courierDelivery dl => Sys2Proof.Machine.execCourierDelivery dl s
  | .courierFailure slot rank stp code => Sys2Proof.Machine.execCourierFailure slot rank stp code s
  | .courierProgramEnd slot => Sys2Proof.Machine.execCourierProgramEnd slot s
  | .gangPlace k => Sys2Proof.Machine.execGangPlace k s
  | .groupRetire g => Sys2Proof.Machine.execGroupRetire g s
  | .groupSave g => Sys2Proof.Machine.execGroupSave g s
  | .groupRestore g => Sys2Proof.Machine.execGroupRestore g s
  | .drainTokenReturn die room slot => Sys2Proof.Machine.execDrainTokenReturn die room slot s
  | .starvIssue g => Sys2Proof.Machine.execStarvIssue g s
  | .starvRestore g => Sys2Proof.Machine.execStarvRestore g s
  | .spinhTimeout g f => Sys2Proof.Machine.execSpinhTimeout g f s
  | .watchdogExpiry k => Sys2Proof.Machine.execWatchdogExpiry k s
  | .watchdogFinal k => Sys2Proof.Machine.execWatchdogFinal k s
  | .kernelRecordRead k => Sys2Proof.Machine.execKernelRecordRead k s
  | .kernelRelease k => Sys2Proof.Machine.execKernelRelease k s
  | .kernelStaged k => Sys2Proof.Machine.execKernelStaged k s
  | .stagingTimeout k => Sys2Proof.Machine.execStagingTimeout k s
  | .kernelComplete k => Sys2Proof.Machine.execKernelComplete k s
  | .doorbell ctx q kick => Sys2Proof.Machine.execDoorbell ctx q kick s
  | .acceptReread ctx q => Sys2Proof.Machine.execAcceptReread ctx q s
  | .staleKick ctx q => Sys2Proof.Machine.execStaleKick ctx q s
  | .packetAccept ctx q => Sys2Proof.Machine.execPacketAccept ctx q s
  | .pktLaunch ctx q sn => Sys2Proof.Machine.execPktLaunch ctx q sn s
  | .pktCopy ctx q sn => Sys2Proof.Machine.execPktCopy ctx q sn s
  | .pktWait ctx q sn => Sys2Proof.Machine.execPktWait ctx q sn s
  | .pktWaitReread ctx q sn => Sys2Proof.Machine.execPktWaitReread ctx q sn s
  | .pktSignal ctx q sn => Sys2Proof.Machine.execPktSignal ctx q sn s
  | .pktStage ctx q sn => Sys2Proof.Machine.execPktStage ctx q sn s
  | .pktInvalidate ctx q sn => Sys2Proof.Machine.execPktInvalidate ctx q sn s
  | .pktResync ctx q sn => Sys2Proof.Machine.execPktResync ctx q sn s
  | .pktNop ctx q sn => Sys2Proof.Machine.execPktNop ctx q sn s
  | .packetEnd ctx q sn => Sys2Proof.Machine.execPacketEnd ctx q sn s
  | .pcreate vf x0 y0 w h starv => Sys2Proof.Machine.execPcreate vf x0 y0 w h starv s
  | .pdestroy vf p => Sys2Proof.Machine.execPdestroy vf p s
  | .ccreate vf p addr => Sys2Proof.Machine.execCcreate vf p addr s
  | .cupdate vf p n addr => Sys2Proof.Machine.execCupdate vf p n addr s
  | .crun vf p n => Sys2Proof.Machine.execCrun vf p n s
  | .csave vf p n => Sys2Proof.Machine.execCsave vf p n s
  | .crestore vf p n => Sys2Proof.Machine.execCrestore vf p n s
  | .cdestroy vf p n => Sys2Proof.Machine.execCdestroy vf p n s
  | .logread vf die addr => Sys2Proof.Machine.execLogread vf die addr s
  | .mailboxUnknownCode vf code => Sys2Proof.Machine.execMailboxUnknownCode vf code s
  | .registerWrite reg val => Sys2Proof.Machine.execRegisterWrite reg val s
  | .partFail part => Sys2Proof.Machine.execPartFail part s
  | .getVersion link => Sys2Proof.Machine.execGetVersion link s
  | .getCapabilities link => Sys2Proof.Machine.execGetCapabilities link s
  | .negotiateAlgorithms link algs => Sys2Proof.Machine.execNegotiateAlgorithms link algs s
  | .getDigests link => Sys2Proof.Machine.execGetDigests link s
  | .getCertificate link cslot => Sys2Proof.Machine.execGetCertificate link cslot s
  | .challenge link nonce => Sys2Proof.Machine.execChallenge link nonce s
  | .getMeasurements link idx nonce => Sys2Proof.Machine.execGetMeasurements link idx nonce s
  | .keyExchange link req => Sys2Proof.Machine.execKeyExchange link req s
  | .finish link ok => Sys2Proof.Machine.execFinish link ok s
  | .endSession link => Sys2Proof.Machine.execEndSession link s
  | .heartbeat link => Sys2Proof.Machine.execHeartbeat link s
  | .setkey link p kslot key => Sys2Proof.Machine.execSetkey link p kslot key s
  | .getnonce link p => Sys2Proof.Machine.execGetnonce link p s
  | .pkeys link p ed ml => Sys2Proof.Machine.execPkeys link p ed ml s
  | .ppinst link p pass => Sys2Proof.Machine.execPpinst link p pass s
  | .ppdel link p => Sys2Proof.Machine.execPpdel link p s
  | .passportExpiry p => Sys2Proof.Machine.execPassportExpiry p s
  | .lockInterface link vf => Sys2Proof.Machine.execLockInterface link vf s
  | .startInterface link vf => Sys2Proof.Machine.execStartInterface link vf s
  | .stopInterface link vf => Sys2Proof.Machine.execStopInterface link vf s
  | .getDeviceInterfaceReport link vf => Sys2Proof.Machine.execGetDeviceInterfaceReport link vf s
  | .ideKm link vf strm => Sys2Proof.Machine.execIdeKm link vf strm s
  | .tlpOutsideIdeStream vf => Sys2Proof.Machine.execTlpOutsideIdeStream vf s
  | .timeExchange die => Sys2Proof.Machine.execTimeExchange die s
  | .timeReply die => Sys2Proof.Machine.execTimeReply die s
  | .timeCorrection die => Sys2Proof.Machine.execTimeCorrection die s
  | .timeExchangeRetry die ok => Sys2Proof.Machine.execTimeExchangeRetry die ok s
  | .flitReceive bnd dir flit => Sys2Proof.Machine.execFlitReceive bnd dir flit s
  | .replayRequest bnd dir sn => Sys2Proof.Machine.execReplayRequest bnd dir sn s
  | .trainingComplete bnd bad => Sys2Proof.Machine.execTrainingComplete bnd bad s
  | .trainingTimeout bnd => Sys2Proof.Machine.execTrainingTimeout bnd s
  | .ethFrameReceive port frame => Sys2Proof.Machine.execEthFrameReceive port frame s
  | .ethResendTimeout port => Sys2Proof.Machine.execEthResendTimeout port s
  | .ethLinkLoss port => Sys2Proof.Machine.execEthLinkLoss port s
  | .cxlSnoop line => Sys2Proof.Machine.execCxlSnoop line s
  | .hostLinkReset link => Sys2Proof.Machine.execHostLinkReset link s
  | .vfFlr vf => Sys2Proof.Machine.execVfFlr vf s
  | .pfFlr => Sys2Proof.Machine.execPfFlr s
  | .healthTestFail core => Sys2Proof.Machine.execHealthTestFail core s
  | .healthTestPass core => Sys2Proof.Machine.execHealthTestPass core s
  | .healthFailLog core => Sys2Proof.Machine.execHealthFailLog core s
  | .powerEnRise => Sys2Proof.Machine.execPowerEnRise s
  | .powerEnFall => Sys2Proof.Machine.execPowerEnFall s
  | .resetNAssert => Sys2Proof.Machine.execResetNAssert s
  | .thermalThrottle die => Sys2Proof.Machine.execThermalThrottle die s
  | .thermalShutdown die => Sys2Proof.Machine.execThermalShutdown die s
  | .undervoltage => Sys2Proof.Machine.execUndervoltage s
  | .flitAcknowledge bnd dir sn => Sys2Proof.Machine.execFlitAcknowledge bnd dir sn s
  | .frameAcknowledge port sn => Sys2Proof.Machine.execFrameAcknowledge port sn s
  | .handOverAnnouncement die => Sys2Proof.Machine.execHandOverAnnouncement die s
  | .barrierSidebandFailure bnd => Sys2Proof.Machine.execBarrierSidebandFailure bnd s
  | .transientFault part => Sys2Proof.Machine.execTransientFault part s
  | .scoreboardWriteComplete g => Sys2Proof.Machine.execScoreboardWriteComplete g s
  | .clearingComplete g => Sys2Proof.Machine.execClearingComplete g s
  | .cqueryResult g f => Sys2Proof.Machine.execCqueryResult g f s
  | .bringUpEnd dead bad => Sys2Proof.Machine.execBringUpEnd dead bad s

end Sys2Proof.Machine
end

