-- ==== Sys2Proof/Machine/Landing.lean ====
section
/-! DEFINITION. Registers that a counting operation writes before its flag drains (04 R85): each register of each lane by
itself, at a time that the specification leaves open. -/

namespace Sys2Proof.Machine

/-- The cell of a lane of a destination's `j`th register. -/
def destCell (r : LReg) (j l : Nat) : Option Nat :=
  match regPlus r j with
  | .v k => some (vCell k.val l)
  | .o k => some (oCell k.val l)
  | _ => none

/-- The cells of some lanes of `n` registers. -/
def destCells (r : LReg) (n : Nat) (lanes : Mask) : List Nat :=
  (Mask.lanes lanes).flatMap fun l => (List.range n).filterMap fun j => destCell r j l

/-- The registers and lanes of an operation whose data are there: of a load all of them once its bytes are, of an atomic
once it is applied. -/
def Op.cells (o : Op) (s : State) (id : Nat) : List Nat :=
  match o.dest with
  | .lane r n =>
    if !(if o.kind = .atomic then !atomicPending s id else o.complete) then []
    else destCells r n (o.lanes ||| o.zero)
  | _ => []

/-- The registers of the lanes that an evaluation has results for. -/
def Eval.cells (e : Eval) : List Nat :=
  e.results.flatMap fun r => (List.range r.2.length).map fun j => vCell (e.out + j) r.1

/-- The registers that an ACCRD whose turn has come writes. -/
def TileOp.cells (o : TileOp) (g : Group) : List Nat :=
  match o.kind with
  | .accrd reg _ lanes zero => if tileFree g.tileOps o then destCells reg 8 (lanes ||| zero) else []
  | _ => []

/-- A counting operation of a group that may write a cell, and the group with all of its registers written. -/
def writerOf (s : State) (gid op c : Nat) (g : Group) : Option Group :=
  match Table.look s.evals op, Table.look s.ops op with
  | some e, _ => if e.gid = gid ∧ e.cells.contains c then some (e.writeOut g) else none
  | none, some o =>
    if o.gid = gid ∧ (o.cells s op).contains c then some (if o.kind = .tex then o.writeTex g else o.writeDest op g) else none
  | none, none =>
    match g.tileOps.find? fun o => o.id = op && (o.cells g).contains c, kernelAt s g.kernel with
    | some o, some k => groupAt (applyTileOp s gid k g o) gid
    | _, _ => none

/-- One register of one lane written by a counting operation whose flag has not drained. -/
def land (s : State) (gid op c : Nat) : State :=
  match groupAt s gid with
  | none => s
  | some g =>
    if g.landed.contains (op, c) then s
    else match writerOf s gid op c g with
      | some h => updGroup s gid fun g => { g.setCell c (h.cell c) with landed := (op, c) :: g.landed }
      | none => s

/-- What may land: group, operation, cell. -/
def landings (s : State) : List (Nat × Nat × Nat) :=
  (s.ops.flatMap fun o => (o.2.cells s o.1).map fun c => (o.2.gid, o.1, c)) ++
  (s.evals.flatMap fun e => e.2.cells.map fun c => (e.2.gid, e.1, c)) ++
  (s.groups.flatMap fun g => g.2.tileOps.flatMap fun o => (o.cells g.2).map fun c => (g.1, o.id, c))

end Sys2Proof.Machine
end

