-- ==== Sys2Proof/Machine/Agenda.lean ====
section
/-! DEFINITION. The events that the part may bring about by itself, as the default schedule takes them (log entry 6). -/

namespace Sys2Proof.Machine

/-- What an event does. -/
abbrev Act := State → Out

/-- The events of a fibre, by what it waits for. -/
def fibreEvents (g f : Nat) (x : Fibre) : List Act :=
  match x.state with
  | .ended => []
  | .aborted _ => [execAbortedFibreResume g f]
  | .waiting .trap => [execTrapDelivery g f]
  | .waiting (.nbind ..) => [execNbindResolve g f]
  | .waiting (.sumrd _) => [execSumrdResult g f]
  | .waiting (.cquery ..) => [execCqueryResult g f]
  | .waiting (.spin ..) => [execFibreWaitMet g f, execSpinhTimeout g f]
  | .waiting _ => [execFibreWaitMet g f]
  | .stalled _ => [execFibreWaitMet g f, execFibreDue g f]
  | .ready => [execFibreDue g f]
  | _ => []

/-- The events of a group and of its operations. -/
def groupEvents (n : Nat) (g : Group) : List Act :=
  g.fibres.flatMap (fun f => fibreEvents n f.1 f.2) ++
  (g.tileOps.flatMap fun o => [execMmaComplete n o.id, execAccrdComplete n o.id, execAccMoveComplete n o.id, execMloopComplete n o.id]) ++
  (g.sumOps.flatMap fun o => [execSummaryStep n o.id, execSummaryComplete n o.id]) ++
  [execScoreboardWriteComplete n, execClearingComplete n, execGroupRetire n, execGroupSave n, execGroupRestore n, execStarvIssue n,
   execStarvRestore n, execMloopStart g.block (g.s1 / 4)]

/-- The events of memory in flight. -/
def memoryEvents (s : State) : List Act :=
  (s.ops.flatMap fun o => (o.2.missing.map fun l => execHomeFill o.1 l) ++
    [execLoadReturn o.1, execLdsReturn o.1, execLcpyComplete o.1, execAtomicReturn o.1, execSldReturn o.1]) ++
  (s.fills.map fun f => execFillInstall f.1) ++
  (s.writes.flatMap fun w => [execHomeWriteApply w.1, execWriteAck w.1, execUpdateOnlyGrant w.1]) ++
  (s.partials.map fun p => execPartialFold p.1) ++
  (s.homes.flatMap fun h => (if h.2.recalling then [execRecallReply h.1] else []) ++ if h.2.hold.isSome then [execHoldRecall h.1] else []) ++
  ((dedup (s.l1.map fun e => (e.1 / 2 ^ 48, e.1 % 2 ^ 48 / 128))).flatMap fun x => [execLeaseExpiry x.1 x.2, execL1Eviction x.1 x.2])

/-- The events of pages and of the engines. -/
def engineEvents (s : State) : List Act :=
  (s.jobs.flatMap fun j => [execStagingDone j.1, execEvictionDone j.1, execCollapseDone j.1, execMigrationDone j.1]) ++
  (s.porter.flatMap fun c => [execPorterStart c.1, execPorterComplete c.1]) ++
  (s.evals.flatMap fun e => [execCaravanLanePlace e.1, if e.2.tex then execTexComplete e.1 else execNevalComplete e.1]) ++
  ((s.ops.filter fun o => o.2.kind = .tex && (Table.look s.evals o.1).isNone).map fun o => execTexComplete o.1) ++
  (s.tiles.flatMap fun t => [execCaravanWindowExpiry t.1, execCaravanTileDone t.1]) ++
  (s.splats.flatMap fun x => [execSplatSubmit x.1, execSplatComplete x.1]) ++
  (s.recs.map fun r => execWaystationFile r.1) ++
  (s.flushes.flatMap fun x =>
    ((ctxRanks s x.2.ctx).map fun d => execFlushRequest x.1 d) ++
    ((s.frames.filter fun f => f.2.flush = some x.1).flatMap fun f =>
      (ownedTiles s x.2.ctx f.2).map fun t => execTileComposite x.1 t) ++
    [execFlushListsForward x.1, execSpflushComplete x.1]) ++
  (s.barriers.map fun b => execBarrierRelease b.1) ++
  (s.launches.map fun l => execLaunchAppend l.1)

/-- The events of kernels, of queues and their packets, and of partitions. -/
def kernelEvents (s : State) : List Act :=
  (s.kernels.flatMap fun k => [execKernelRecordRead k.1, execKernelRelease k.1, execKernelStaged k.1, execStagingTimeout k.1,
    execGangPlace k.1, execWatchdogExpiry k.1, execWatchdogFinal k.1, execKernelComplete k.1]) ++
  (s.contexts.flatMap fun c => c.2.queues.flatMap fun q =>
    [execAcceptReread c.1 q.1, execStaleKick c.1 q.1, execPacketAccept c.1 q.1] ++
    q.2.journal.flatMap fun p =>
      [execPktLaunch c.1 q.1 p.seq, execPktNop c.1 q.1 p.seq, execPktCopy c.1 q.1 p.seq, execPktWait c.1 q.1 p.seq,
       execPktWaitReread c.1 q.1 p.seq, execPktSignal c.1 q.1 p.seq, execPktStage c.1 q.1 p.seq, execPktInvalidate c.1 q.1 p.seq,
       execPktResync c.1 q.1 p.seq, execPacketEnd c.1 q.1 p.seq]) ++
  (s.partitions.map fun p => execPassportExpiry p.1)

/-- The event of an instance's step, by its kind. -/
def stepEvent (slot rank stp : Nat) (w : Option DWord) : Act :=
  match w.map stKind with
  | some 0 => execCstepSend slot rank stp
  | some 1 => execCstepRecv slot rank stp
  | some 2 => execCstepRred slot rank stp
  | some 3 => execCstepRacc slot rank stp
  | some 4 => execCstepCopy slot rank stp
  | some 5 => execCstepWait slot rank stp
  | some 6 => execCstepLoop slot rank stp
  | some 7 => execCstepNext slot rank stp
  | some 8 => execCstepArm slot rank stp
  | some 9 => execCstepSig slot rank stp
  | some 10 => execCstepHalt slot rank stp
  | _ => execCourierFailure slot rank stp 3

/-- The events of the Couriers. -/
def courierEvents (s : State) : List Act :=
  (s.cqueue.map fun c => execCourierSetup c.1) ++
  (s.slots.flatMap fun x => [execCourierProgramBegin x.1, execCourierProgramEnd x.1] ++
    if x.2.state = .stopped then [execCourierFailure x.1 x.2.rank x.2.step x.2.code] else []) ++
  (s.insts.flatMap fun i => (i.pc :: i.fired.map (·.1)).map fun n => stepEvent i.slotKey i.rank n (i.steps[n]?)) ++
  (s.deliveries.map fun d => execCourierDelivery d.1) ++
  ((List.range 8).map fun e => execEthResendTimeout e)

/-- The events of the dies and of their boundaries. -/
def dieEvents (s : State) : List Act :=
  ((s.dies.mapIdx fun d x => (d, x)).flatMap fun e =>
    [execTimeExchange e.1, execTimeReply e.1, execTimeCorrection e.1, execHandOverAnnouncement e.1, execHotnessHalve e.1] ++
    (e.2.draining.map fun n => execDrainTokenReturn e.1 (n.1 / 32) (n.1 % 32)) ++
    e.2.healthFail.map fun h => execHealthFailLog (coreKey e.1 h.1)) ++
  ((List.range 60).map fun b => execTrainingTimeout b)

/-- The events that may be due. -/
def pendingEvents (s : State) : List Act :=
  (s.groups.flatMap fun g => groupEvents g.1 g.2) ++ memoryEvents s ++ engineEvents s ++ kernelEvents s ++
    courierEvents s ++ dieEvents s

/-- Whether an event happens in a module that is not on (26 R436 to R438): one off or silent answers to its power alone, one
in panel reset trains and tests besides. -/
def eventAllowed (p : Power) (i : Instr) : Bool :=
  match i with
  | .powerEnRise => true
  | .powerEnFall => true
  | .resetNAssert => true
  | .undervoltage => true
  | .thermalShutdown _ => true
  | .trainingComplete _ _ => p = .boot || p = .on
  | .bringUpEnd _ _ => p = .boot || p = .on
  | _ => p = .on

end Sys2Proof.Machine
end

