-- ==== Sys2Proof/Machine/Limits.lean ====
section
/-! DEFINITION. What happens by itself at a stated time: time does not pass beyond it without that (01 R24, R26; 07 R165;
10 R228; 14 R310; 16 R343, R348; 17 R354, R359, R360; 18 R369, R385; 19 R391; 20 R414). -/

namespace Sys2Proof.Machine

/-- What happens at a time at the latest: the nanoseconds left until then, and the event. -/
abbrev Limit := Nat × Act

/-- The limits of a die's correction exchange (01 R24, R26): the exchange every 10 µs, or at once; the parent's stamps and
the correction when the reply arrives; the new parent within 2 µs of an announcement. How long a request is on its way is
the model's choice, below the microsecond of R26 (log entry 37). -/
def exchangeLimits (s : State) (d : Nat) (x : Die) : List Limit :=
  if !dieActive s d ∨ d = s.root then []
  else if x.handOver then [(x.nsTo (x.announced + 2000), execHandOverAnnouncement d)]
  else match x.parent with
    | none => []
    | some p =>
      if !sidebandOpen s d p then []
      else match x.req with
        | none => [(match x.lastExchange with | none => 0 | some t => x.nsTo (t + 10000), execTimeExchange d)]
        | some r =>
          if r.t2.isNone then [(r.sent + 400 - s.refNs, execTimeReply d)]
          else if r.t3.isNone then [(r.arrived + 100 - s.refNs, execTimeReply d)]
          else [(r.backAt - s.refNs, execTimeCorrection d)]

/-- The limits of a die: its exchange, the halving of its hotness table, the log of a failed noise source. -/
def dieLimits (s : State) (d : Nat) (x : Die) : List Limit :=
  if !x.active then []
  else
    exchangeLimits s d x ++
    (if x.hot = [] then [] else [(x.nsTo ((x.halved + 1) * 1000000), execHotnessHalve d)]) ++
    (x.healthFail.filter fun h => !h.2.2).map fun h => (x.nsTo (h.2.1 + 1000000), execHealthFailLog (coreKey d h.1))

/-- The limits of a group: the end of a SPINH, a restore at STARV, or at once where a timed-out SPINH helps it (17 R359, R360). -/
def groupLimits (s : State) (gid : Nat) (g : Group) : List Limit :=
  (g.fibres.filterMap fun f => match f.2.state with
    | .waiting (.spin _ until_ _) => some (nsUntil s g.die until_, execSpinhTimeout gid f.1)
    | _ => none) ++
  (match g.state, kernelAt s g.kernel with
    | .saved, some k =>
      [(if helpedCtx s k.ctx then 0 else nsUntil s g.die (g.savedAt + starvOf s k.ctx), execStarvRestore gid)]
    | _, _ => [])

/-- The limits of a kernel: its staging, its watchdog, the end after its watchdog. -/
def kernelLimits (s : State) (kid : Nat) (k : Kernel) : List Limit :=
  let die := ctxDie s k.ctx
  (if k.state = .staging then [(nsUntil s die (k.stageStart + 1000 * k.wdog), execStagingTimeout kid)] else []) ++
  (if watchdogRuns s k then [(nsUntil s die (gtOf s die + (1000 * k.wdog - k.count)), execWatchdogExpiry kid)] else []) ++
  (match k.expired with
    | some t => if k.state = .launched ∨ k.state = .running then [(nsUntil s die (t + 1000 * k.wdog), execWatchdogFinal kid)] else []
    | none => [])

/-- The limits of a context's queues: a kick that goes stale. -/
def queueLimits (s : State) (ctx : Nat) (c : Context) : List Limit :=
  c.queues.filterMap fun q =>
    if q.2.kicked then some (nsUntil s (ctxDie s ctx) (q.2.lastKick + 1000 * q.2.stale), execStaleKick ctx q.1) else none

/-- Every limit of the part. -/
def limits (s : State) : List Limit :=
  (s.dies.mapIdx fun d x => dieLimits s d x).flatten ++
  (s.groups.flatMap fun g => groupLimits s g.1 g.2) ++
  (s.kernels.flatMap fun k => kernelLimits s k.1 k.2) ++
  (s.contexts.flatMap fun c => queueLimits s c.1 c.2) ++
  (s.tiles.flatMap fun t => if t.2.closed then [] else
    [(nsUntil s (coreDie t.2.core) (t.2.openedAt + t.2.window), execCaravanWindowExpiry t.1)]) ++
  (s.partitions.filterMap fun p => p.2.passport.map fun y =>
    (nsUntil s ((ranks s p.2).headD 0) y.expiry, execPassportExpiry p.1)) ++
  ((s.boundaries.mapIdx fun b x => (b, x)).filterMap fun b =>
    if b.2.state = .retraining then some (nsUntil s (boundaryDie s b.1) (b.2.since + 50000), execTrainingTimeout b.1) else none) ++
  ((s.ethPorts.mapIdx fun e x => (e, x)).filterMap fun e =>
    if e.2.failed ∨ e.2.unacked = [] then none
    else some (nsUntil s (ethDie e.1) (e.2.lastSend + 20000), execEthResendTimeout e.1))

/-- An event taken at once; one that cannot be, or that a closed way holds, leaves the state. -/
def takeNow (s : State) (a : Act) : State :=
  match a { s with cur := none } with
  | .next t => orStay s t
  | _ => s

end Sys2Proof.Machine
end

