-- ==== Sys2Proof/Machine/Place.lean ====
section
/-! DEFINITION. A word put where the next step fetches it (log entry 11). -/

namespace Sys2Proof.Machine

/-- The effective record of the kernel that `placeWord` sets up: 64 lanes, a window of 192, one group per block, 16
tiles, every hand-off queue 4 deep, every barrier declared. -/
def placedRecord : List Byte :=
  toBytes 4 1 ++ toBytes 4 (3 + 5 * 4 + 16 * 2 ^ 9 + 2 ^ 14 + 2 ^ 16) ++ toBytes 8 0x10000 ++ toBytes 4 16 ++
  toBytes 20 0 ++ (List.replicate 8 (toBytes 2 4)).flatten ++ toBytes 4 0xFFFF ++ toBytes 4 0 ++
  (List.replicate 16 (toBytes 2 1)).flatten ++ toBytes 416 0

/-- The kernel that `placeWord` sets up. -/
def placedKernel : Kernel :=
  { ctx := 0, queue := 0, seq := 0, state := .running, readDone := true, recordAt := 0, record := placedRecord,
    arg := 0, crec := 0, sampled := [(1, 1)], gtStart := 0, count := 1, restarts := 0, stageStart := 0,
    expired := none, wdEnded := 0, code := 0, info := 0, pendingGroups := [], tileCount := [], placedAny := true,
    wct := 0, isEnded := false, tilesOver := false, named := [] }

/-- The partition that `placeWord` sets up: the whole panel, with key slot 0 loaded. -/
def placedPartition : Partition :=
  { x0 := 0, y0 := 0, w := 6, h := 6, starv := 1000, keys := [(0, 0)], nonce := 0, edKey := none, mlKey := none,
    passport := none, reserve := none, gone := [], closing := false }

/-- The context that `placeWord` sets up, running. -/
def placedContext : Context :=
  { part := 0, num := 0, vf := 0, state := .running, desc := toBytes 256 0,
    mapped := toBytes 256 0, live := [], wct := 0, cpWct := 0, tvec := 0x100000000, lease := 0,
    fairt := 1000, rngctl := 0, rngbase := 0, rngseg := 0, opaq := 0x3F7F0000, gwin := 0, dens := 0x2000,
    outl := 0x400, hotthr := 192, trcb := 0, trcsz := 0, trcpos := 0, ranges := [], queues := [], nets := [],
    evProd := 0, evOver := 0, saveABad := false, saveBBad := false, saved := none, tdi := .unlocked, ide := [] }

/-- The block that `placeWord` sets up. -/
def placedBlock : Block :=
  { kernel := 0, s2 := 0, s3 := 0, die := 0, core := 0, placed := true, size := 65536, scratch := [], queues := [],
    shared := [], retired := 0 }

/-- The fibre that `placeWord` sets up: all 64 lanes, inside a clause that holds the word, or at a clause start where
the word is a CLAUSE. -/
def placedFibre (w : Word) : Fibre :=
  { pc := 0x10004, p0 := BitVec.allOnes 64, state := .ready
    clause := if field w 24 8 = 0x80 then none
      else some { start := 0x10000, flagA := 1, flagB := 2, words := [some w] }
    chain := none, branch := none, last := [], stack := [0x10000], wct := [], buffer := [], regionStart := 0x10004
    regionClause := none, fresh := true, handler := none, trapClause := none, traps := [], owed := []
    yieldMark := none, readySince := some 0, due := false, doomed := false }

/-- The group that `placeWord` sets up; a CLAUSE word stands fetched ahead with the 16 words of zeros after it. -/
def placedGroup (w : Word) : Group :=
  { kernel := 0, block := 0, width := 64, window := 192, tiles := 16, s1 := 0, s2 := 0, s3 := 0
    given := BitVec.allOnes 64, helpers := 0, state := .begun, clearing := false, die := 0, core := 0, room := 0
    slot := 0, gen := 0, v := [], o := [], s := [], p := [], acc := [], flags := [], fibres := [(0, placedFibre w)]
    nextFibre := 1, tcause := 0, tepc := 0, taddr := 0, tmask := 0, gtime := 0, pcsel := [], pcnt := [], dbgctl := 0
    brk := 0, segPos := 0, logStopped := false, logQueue := [], tokens := [], board := [], landed := [], tileOps := []
    mloopSeq := 0, links := [], sumOps := [], wctMax := 0
    ahead := if field w 24 8 = 0x80 then
        (0x10004, w) :: (List.range 16).map fun j => (0x10008 + 4 * j, 0) else []
    beganAt := 0, savedAt := 0, starved := false, lastIssue := 0, watchdogTrap := false, placedSeq := 0
    starvRestored := 0, preempt := false, base := 0, accSet := 0, owed := [], lentBy := [] }

/-- The state with one running kernel of one group, whose single fibre's next word is `w` and which issues next. It stands for
the launch of a program by the host. -/
def placeWord (s : State) (w : Word) : State :=
  { s with
    agenda := [.issue 0], cur := none, power := .on
    partitions := [(0, placedPartition)], contexts := [(0, placedContext)], kernels := [(0, placedKernel)]
    blocks := [(0, placedBlock)], groups := [(0, placedGroup w)] }

end Sys2Proof.Machine
end

