-- ==== Sys2Proof/Machine/Schedule.lean ====
section
/-! DEFINITION. What a step does with a move, and the default schedule (log entry 6). -/

namespace Sys2Proof.Machine

/-- Whether a write by the host to lines of tier 2 waits: a home answers its snoop on a CXL link, once GT has passed the line's
latest lease expiry by 4 (19 R400). -/
def snoopHeld (s : State) (a n : Nat) : Bool :=
  keyTier a = 2 && (linesOf a n).any fun l =>
    let e := (homeOf s l).eMax
    decide (e ≠ 0 ∧ (!tierOpen s (lineCtx s l) (l * 128) ∨ gtOf s (lineDie s l) ≤ e + 4))

/-- A write by the host to memory it shares with the part (01 R16; 09 R187): whole at its instant. A home slice that holds
the line holds it dirty from then on. -/
def hostWrite (s : State) (a : Nat) (bs : List Byte) : State :=
  if snoopHeld s a bs.length then s else
  orStay s (
    let s := (linesOf a bs.length).foldl (fun s l => homeTouch (recallLine s l) 0 (homeDie s 0 a) l true) s
    (linesOf a bs.length).foldl wakeSpin (homeBytes s a bs))

/-- The slots that starved groups are owed (07 R165; 17 R359), as limits. -/
def slotLimits (s : State) : List Limit :=
  s.groups.filterMap fun e =>
    if mayIssue s e.2 then
      (starvesAt s e.2).map fun t => (nsUntil s e.2.die t, fun s => if roomTakes s e.1 then issueSlot exec s e.1 else .next s)
    else none

/-- What is due at once, taken one after another, again and again while that changes anything: what becomes due by another is not
passed over (01 R26; 07 R165). -/
def dueRounds : Nat → State → State
  | 0, s => s
  | fuel + 1, s =>
    let t := ((slotLimits s ++ limits s).filter fun l => l.1 = 0).foldl (fun s l => takeNow s l.2) s
    if t = s then s else dueRounds fuel t

/-- What is due now by itself: command processors write what no page holds up any longer, a
frame whose last tile is claimed asks for no more blocks (16 R341), and what has its time comes. -/
def takeDue (s : State) : State := dueRounds 4096 (latchTiles (if s.outbox = [] then s else flushOut s))

/-- The nanoseconds until something next happens by itself. -/
def nextLimit (s : State) : Option Nat :=
  minOf ((slotLimits s ++ limits s).filterMap fun l => if l.1 = 0 then none else some l.1)

/-- Time passes, and what happens by itself meanwhile happens at its time; `fuel` bounds how often time halts for it. -/
def passUpTo : Nat → State → Nat → State
  | 0, s, ns => tick s ns
  | fuel + 1, s, ns =>
    let s := takeDue s
    match nextLimit s with
    | none => tick s ns
    | some m => if m < ns then passUpTo fuel (tick s m) (ns - m) else tick s ns

/-- The passing of `ns` nanoseconds. -/
def letPass (s : State) (ns : Nat) : State := if s.power = .on ∧ ns ≠ 0 then passUpTo ns s ns else s

/-- What a move has done, unless a way through the mesh that it needs is closed: then it has done nothing (log entry 65). -/
def undone (s : State) (o : Out) : Out := match o with | .next t => .next (orStay s t) | _ => o

/-- One move: an event, one issue slot of a group alone or with others, an early write of a register, the passing of time, a
write by the host, a hop of a packet, a wander of a clock or of a path. -/
def perform (s : State) (m : Move) : Out :=
  match m with
  | .event i => if eventAllowed s.power i then undone s (exec i { s with cur := none }) else .next s
  | .issue gid => if roomTakes s gid then issueSlot exec s gid else .next s
  | .batch gid => if roomTakes s gid then issueBatch exec s gid else .next s
  | .land gid op c => .next (land s gid op c)
  | .tick ns => .next (letPass s ns)
  | .hostWrite a bs => .next (hostWrite s a bs)
  | .hop vnet id sub esc => .next (hop s vnet id sub esc)
  | .wander d n => .next (wander s d n)
  | .asymmetry b n => .next (setAsymmetry s b n)

/-- Whether what an event does is due: it would change something. -/
def eventDue (s : State) (a : Act) : Bool :=
  match a { s with cur := none } with
  | .next t => !t.held && decide (t ≠ s)
  | _ => false

/-- The early writes that may come (04 R85). -/
def earlyWrites (s : State) : List Act := (landings s).map fun x s => .next (land s x.1 x.2.1 x.2.2)

/-- The hops that packets may take (19 R397). -/
def hops (s : State) : List Act :=
  (travellers s).flatMap fun p => [false, true].map fun esc s => .next (hop s p.vnet p.id p.sub esc)

/-- What the default schedule chooses among: an issue slot of a group with room, an event that is due. -/
def defaultActs (s : State) : List Act :=
  (takenGroups s).map (fun g (s : State) => perform s (.issue g)) ++
  (takenGroups s).map (fun g (s : State) => perform s (.batch g)) ++
  ((earlyWrites s ++ hops s ++ pendingEvents s).filter (eventDue s)).map fun a (s : State) => a { s with cur := none }

/-- Time passes after a move of the default schedule, at least one nanosecond. -/
def passTime (s : State) : State := letPass { s with choices := s.choices + 1 } (1 + Config.ticks s.choices)

/-- A step with nothing on the agenda: one of the default acts, by a free choice where there are several; then time
passes. The events of a module that is not on do not come by themselves. -/
def defaultStep (s : State) : Out :=
  let acts := if s.power = .on then defaultActs s else []
  let (n, s) := choose s acts.length
  match acts[n]? with
  | none => .next (passTime s)
  | some a =>
    match a s with
    | .next t => .next (passTime t)
    | .fault r => .fault r
    | .refused r => .refused r

/-- Whether the module does nothing by itself (26 R436, R438). -/
def moduleDown (s : State) : Bool := s.power = .off || s.power = .silent

end Sys2Proof.Machine
end

