-- ==== Sys2Proof/Machine/Step.lean ====
section
/-! DEFINITION. One step of the panel, and the placing of a word for the next step. -/

namespace Sys2Proof.Machine

/-- One step: the head of the agenda, or with an empty agenda what the default schedule takes. -/
def step (s : State) : Host.Outcome State Fault Refusal :=
  match s.agenda with
  | m :: rest => perform { s with agenda := rest } m
  | [] => if moduleDown s then .fault .moduleOff else defaultStep s

/-- The state with the 32-bit word `w` as the one that the next step fetches and runs. -/
def State.withFetchWord (s : State) (_nbits w : Nat) : State := placeWord s (BitVec.ofNat 32 w)

end Sys2Proof.Machine
end

