-- ==== Sys2Proof/Laws/State.lean ====
section
/-! SUPPORT. What each update of the state leaves of every field: one lemma per field and update, so that no proof unfolds a
record update. -/

namespace Sys2Proof.Machine

/-! ## updGroup -/

@[simp] theorem updGroup_agenda (s : State) (g : Nat) (f : Group → Group) : (updGroup s g f).agenda = s.agenda := rfl
@[simp] theorem updGroup_cur (s : State) (g : Nat) (f : Group → Group) : (updGroup s g f).cur = s.cur := rfl
@[simp] theorem updGroup_choices (s : State) (g : Nat) (f : Group → Group) : (updGroup s g f).choices = s.choices := rfl
@[simp] theorem updGroup_nextId (s : State) (g : Nat) (f : Group → Group) : (updGroup s g f).nextId = s.nextId := rfl
@[simp] theorem updGroup_draws (s : State) (g : Nat) (f : Group → Group) : (updGroup s g f).draws = s.draws := rfl
@[simp] theorem updGroup_power (s : State) (g : Nat) (f : Group → Group) : (updGroup s g f).power = s.power := rfl
@[simp] theorem updGroup_root (s : State) (g : Nat) (f : Group → Group) : (updGroup s g f).root = s.root := rfl
@[simp] theorem updGroup_dies (s : State) (g : Nat) (f : Group → Group) : (updGroup s g f).dies = s.dies := rfl
@[simp] theorem updGroup_boundaries (s : State) (g : Nat) (f : Group → Group) : (updGroup s g f).boundaries = s.boundaries := rfl
@[simp] theorem updGroup_hostLinks (s : State) (g : Nat) (f : Group → Group) : (updGroup s g f).hostLinks = s.hostLinks := rfl
@[simp] theorem updGroup_ethPorts (s : State) (g : Nat) (f : Group → Group) : (updGroup s g f).ethPorts = s.ethPorts := rfl
@[simp] theorem updGroup_mailbox (s : State) (g : Nat) (f : Group → Group) : (updGroup s g f).mailbox = s.mailbox := rfl
@[simp] theorem updGroup_vfMail (s : State) (g : Nat) (f : Group → Group) : (updGroup s g f).vfMail = s.vfMail := rfl
@[simp] theorem updGroup_mailLog (s : State) (g : Nat) (f : Group → Group) : (updGroup s g f).mailLog = s.mailLog := rfl
@[simp] theorem updGroup_mem (s : State) (g : Nat) (f : Group → Group) : (updGroup s g f).mem = s.mem := rfl
@[simp] theorem updGroup_poison (s : State) (g : Nat) (f : Group → Group) : (updGroup s g f).poison = s.poison := rfl
@[simp] theorem updGroup_held (s : State) (g : Nat) (f : Group → Group) : (updGroup s g f).held = s.held := rfl
@[simp] theorem updGroup_routing (s : State) (g : Nat) (f : Group → Group) : (updGroup s g f).routing = s.routing := rfl
@[simp] theorem updGroup_mesh (s : State) (g : Nat) (f : Group → Group) : (updGroup s g f).mesh = s.mesh := rfl
@[simp] theorem updGroup_tdiErrors (s : State) (g : Nat) (f : Group → Group) : (updGroup s g f).tdiErrors = s.tdiErrors := rfl
@[simp] theorem updGroup_unsupported (s : State) (g : Nat) (f : Group → Group) : (updGroup s g f).unsupported = s.unsupported := rfl
@[simp] theorem updGroup_deadMem (s : State) (g : Nat) (f : Group → Group) : (updGroup s g f).deadMem = s.deadMem := rfl
@[simp] theorem updGroup_linkMap (s : State) (g : Nat) (f : Group → Group) : (updGroup s g f).linkMap = s.linkMap := rfl
@[simp] theorem updGroup_refNs (s : State) (g : Nat) (f : Group → Group) : (updGroup s g f).refNs = s.refNs := rfl
@[simp] theorem updGroup_images (s : State) (g : Nat) (f : Group → Group) : (updGroup s g f).images = s.images := rfl
@[simp] theorem updGroup_fuses (s : State) (g : Nat) (f : Group → Group) : (updGroup s g f).fuses = s.fuses := rfl
@[simp] theorem updGroup_mended (s : State) (g : Nat) (f : Group → Group) : (updGroup s g f).mended = s.mended := rfl
@[simp] theorem updGroup_l2 (s : State) (g : Nat) (f : Group → Group) : (updGroup s g f).l2 = s.l2 := rfl
@[simp] theorem updGroup_lodge (s : State) (g : Nat) (f : Group → Group) : (updGroup s g f).lodge = s.lodge := rfl
@[simp] theorem updGroup_lodgeDirty (s : State) (g : Nat) (f : Group → Group) : (updGroup s g f).lodgeDirty = s.lodgeDirty := rfl
@[simp] theorem updGroup_written (s : State) (g : Nat) (f : Group → Group) : (updGroup s g f).written = s.written := rfl
@[simp] theorem updGroup_outbox (s : State) (g : Nat) (f : Group → Group) : (updGroup s g f).outbox = s.outbox := rfl
@[simp] theorem updGroup_homes (s : State) (g : Nat) (f : Group → Group) : (updGroup s g f).homes = s.homes := rfl
@[simp] theorem updGroup_l1 (s : State) (g : Nat) (f : Group → Group) : (updGroup s g f).l1 = s.l1 := rfl
@[simp] theorem updGroup_partials (s : State) (g : Nat) (f : Group → Group) : (updGroup s g f).partials = s.partials := rfl
@[simp] theorem updGroup_writes (s : State) (g : Nat) (f : Group → Group) : (updGroup s g f).writes = s.writes := rfl
@[simp] theorem updGroup_ops (s : State) (g : Nat) (f : Group → Group) : (updGroup s g f).ops = s.ops := rfl
@[simp] theorem updGroup_fills (s : State) (g : Nat) (f : Group → Group) : (updGroup s g f).fills = s.fills := rfl
@[simp] theorem updGroup_tlb (s : State) (g : Nat) (f : Group → Group) : (updGroup s g f).tlb = s.tlb := rfl
@[simp] theorem updGroup_rangeTlb (s : State) (g : Nat) (f : Group → Group) : (updGroup s g f).rangeTlb = s.rangeTlb := rfl
@[simp] theorem updGroup_icache (s : State) (g : Nat) (f : Group → Group) : (updGroup s g f).icache = s.icache := rfl
@[simp] theorem updGroup_jobs (s : State) (g : Nat) (f : Group → Group) : (updGroup s g f).jobs = s.jobs := rfl
@[simp] theorem updGroup_asked (s : State) (g : Nat) (f : Group → Group) : (updGroup s g f).asked = s.asked := rfl
@[simp] theorem updGroup_helps (s : State) (g : Nat) (f : Group → Group) : (updGroup s g f).helps = s.helps := rfl
@[simp] theorem updGroup_porter (s : State) (g : Nat) (f : Group → Group) : (updGroup s g f).porter = s.porter := rfl
@[simp] theorem updGroup_blocks (s : State) (g : Nat) (f : Group → Group) : (updGroup s g f).blocks = s.blocks := rfl
@[simp] theorem updGroup_barriers (s : State) (g : Nat) (f : Group → Group) : (updGroup s g f).barriers = s.barriers := rfl
@[simp] theorem updGroup_kernels (s : State) (g : Nat) (f : Group → Group) : (updGroup s g f).kernels = s.kernels := rfl
@[simp] theorem updGroup_launches (s : State) (g : Nat) (f : Group → Group) : (updGroup s g f).launches = s.launches := rfl
@[simp] theorem updGroup_partitions (s : State) (g : Nat) (f : Group → Group) : (updGroup s g f).partitions = s.partitions := rfl
@[simp] theorem updGroup_contexts (s : State) (g : Nat) (f : Group → Group) : (updGroup s g f).contexts = s.contexts := rfl
@[simp] theorem updGroup_saves (s : State) (g : Nat) (f : Group → Group) : (updGroup s g f).saves = s.saves := rfl
@[simp] theorem updGroup_tiles (s : State) (g : Nat) (f : Group → Group) : (updGroup s g f).tiles = s.tiles := rfl
@[simp] theorem updGroup_evals (s : State) (g : Nat) (f : Group → Group) : (updGroup s g f).evals = s.evals := rfl
@[simp] theorem updGroup_splats (s : State) (g : Nat) (f : Group → Group) : (updGroup s g f).splats = s.splats := rfl
@[simp] theorem updGroup_frames (s : State) (g : Nat) (f : Group → Group) : (updGroup s g f).frames = s.frames := rfl
@[simp] theorem updGroup_recs (s : State) (g : Nat) (f : Group → Group) : (updGroup s g f).recs = s.recs := rfl
@[simp] theorem updGroup_flushes (s : State) (g : Nat) (f : Group → Group) : (updGroup s g f).flushes = s.flushes := rfl
@[simp] theorem updGroup_cqueue (s : State) (g : Nat) (f : Group → Group) : (updGroup s g f).cqueue = s.cqueue := rfl
@[simp] theorem updGroup_slots (s : State) (g : Nat) (f : Group → Group) : (updGroup s g f).slots = s.slots := rfl
@[simp] theorem updGroup_insts (s : State) (g : Nat) (f : Group → Group) : (updGroup s g f).insts = s.insts := rfl
@[simp] theorem updGroup_deliveries (s : State) (g : Nat) (f : Group → Group) : (updGroup s g f).deliveries = s.deliveries := rfl

/-! ## updFibre -/

@[simp] theorem updFibre_agenda (s : State) (g b : Nat) (f : Fibre → Fibre) : (updFibre s g b f).agenda = s.agenda := rfl
@[simp] theorem updFibre_cur (s : State) (g b : Nat) (f : Fibre → Fibre) : (updFibre s g b f).cur = s.cur := rfl
@[simp] theorem updFibre_choices (s : State) (g b : Nat) (f : Fibre → Fibre) : (updFibre s g b f).choices = s.choices := rfl
@[simp] theorem updFibre_nextId (s : State) (g b : Nat) (f : Fibre → Fibre) : (updFibre s g b f).nextId = s.nextId := rfl
@[simp] theorem updFibre_draws (s : State) (g b : Nat) (f : Fibre → Fibre) : (updFibre s g b f).draws = s.draws := rfl
@[simp] theorem updFibre_power (s : State) (g b : Nat) (f : Fibre → Fibre) : (updFibre s g b f).power = s.power := rfl
@[simp] theorem updFibre_root (s : State) (g b : Nat) (f : Fibre → Fibre) : (updFibre s g b f).root = s.root := rfl
@[simp] theorem updFibre_dies (s : State) (g b : Nat) (f : Fibre → Fibre) : (updFibre s g b f).dies = s.dies := rfl
@[simp] theorem updFibre_boundaries (s : State) (g b : Nat) (f : Fibre → Fibre) : (updFibre s g b f).boundaries = s.boundaries := rfl
@[simp] theorem updFibre_hostLinks (s : State) (g b : Nat) (f : Fibre → Fibre) : (updFibre s g b f).hostLinks = s.hostLinks := rfl
@[simp] theorem updFibre_ethPorts (s : State) (g b : Nat) (f : Fibre → Fibre) : (updFibre s g b f).ethPorts = s.ethPorts := rfl
@[simp] theorem updFibre_mailbox (s : State) (g b : Nat) (f : Fibre → Fibre) : (updFibre s g b f).mailbox = s.mailbox := rfl
@[simp] theorem updFibre_vfMail (s : State) (g b : Nat) (f : Fibre → Fibre) : (updFibre s g b f).vfMail = s.vfMail := rfl
@[simp] theorem updFibre_mailLog (s : State) (g b : Nat) (f : Fibre → Fibre) : (updFibre s g b f).mailLog = s.mailLog := rfl
@[simp] theorem updFibre_mem (s : State) (g b : Nat) (f : Fibre → Fibre) : (updFibre s g b f).mem = s.mem := rfl
@[simp] theorem updFibre_poison (s : State) (g b : Nat) (f : Fibre → Fibre) : (updFibre s g b f).poison = s.poison := rfl
@[simp] theorem updFibre_held (s : State) (g b : Nat) (f : Fibre → Fibre) : (updFibre s g b f).held = s.held := rfl
@[simp] theorem updFibre_routing (s : State) (g b : Nat) (f : Fibre → Fibre) : (updFibre s g b f).routing = s.routing := rfl
@[simp] theorem updFibre_mesh (s : State) (g b : Nat) (f : Fibre → Fibre) : (updFibre s g b f).mesh = s.mesh := rfl
@[simp] theorem updFibre_tdiErrors (s : State) (g b : Nat) (f : Fibre → Fibre) : (updFibre s g b f).tdiErrors = s.tdiErrors := rfl
@[simp] theorem updFibre_unsupported (s : State) (g b : Nat) (f : Fibre → Fibre) : (updFibre s g b f).unsupported = s.unsupported := rfl
@[simp] theorem updFibre_deadMem (s : State) (g b : Nat) (f : Fibre → Fibre) : (updFibre s g b f).deadMem = s.deadMem := rfl
@[simp] theorem updFibre_linkMap (s : State) (g b : Nat) (f : Fibre → Fibre) : (updFibre s g b f).linkMap = s.linkMap := rfl
@[simp] theorem updFibre_refNs (s : State) (g b : Nat) (f : Fibre → Fibre) : (updFibre s g b f).refNs = s.refNs := rfl
@[simp] theorem updFibre_images (s : State) (g b : Nat) (f : Fibre → Fibre) : (updFibre s g b f).images = s.images := rfl
@[simp] theorem updFibre_fuses (s : State) (g b : Nat) (f : Fibre → Fibre) : (updFibre s g b f).fuses = s.fuses := rfl
@[simp] theorem updFibre_mended (s : State) (g b : Nat) (f : Fibre → Fibre) : (updFibre s g b f).mended = s.mended := rfl
@[simp] theorem updFibre_l2 (s : State) (g b : Nat) (f : Fibre → Fibre) : (updFibre s g b f).l2 = s.l2 := rfl
@[simp] theorem updFibre_lodge (s : State) (g b : Nat) (f : Fibre → Fibre) : (updFibre s g b f).lodge = s.lodge := rfl
@[simp] theorem updFibre_lodgeDirty (s : State) (g b : Nat) (f : Fibre → Fibre) : (updFibre s g b f).lodgeDirty = s.lodgeDirty := rfl
@[simp] theorem updFibre_written (s : State) (g b : Nat) (f : Fibre → Fibre) : (updFibre s g b f).written = s.written := rfl
@[simp] theorem updFibre_outbox (s : State) (g b : Nat) (f : Fibre → Fibre) : (updFibre s g b f).outbox = s.outbox := rfl
@[simp] theorem updFibre_homes (s : State) (g b : Nat) (f : Fibre → Fibre) : (updFibre s g b f).homes = s.homes := rfl
@[simp] theorem updFibre_l1 (s : State) (g b : Nat) (f : Fibre → Fibre) : (updFibre s g b f).l1 = s.l1 := rfl
@[simp] theorem updFibre_partials (s : State) (g b : Nat) (f : Fibre → Fibre) : (updFibre s g b f).partials = s.partials := rfl
@[simp] theorem updFibre_writes (s : State) (g b : Nat) (f : Fibre → Fibre) : (updFibre s g b f).writes = s.writes := rfl
@[simp] theorem updFibre_ops (s : State) (g b : Nat) (f : Fibre → Fibre) : (updFibre s g b f).ops = s.ops := rfl
@[simp] theorem updFibre_fills (s : State) (g b : Nat) (f : Fibre → Fibre) : (updFibre s g b f).fills = s.fills := rfl
@[simp] theorem updFibre_tlb (s : State) (g b : Nat) (f : Fibre → Fibre) : (updFibre s g b f).tlb = s.tlb := rfl
@[simp] theorem updFibre_rangeTlb (s : State) (g b : Nat) (f : Fibre → Fibre) : (updFibre s g b f).rangeTlb = s.rangeTlb := rfl
@[simp] theorem updFibre_icache (s : State) (g b : Nat) (f : Fibre → Fibre) : (updFibre s g b f).icache = s.icache := rfl
@[simp] theorem updFibre_jobs (s : State) (g b : Nat) (f : Fibre → Fibre) : (updFibre s g b f).jobs = s.jobs := rfl
@[simp] theorem updFibre_asked (s : State) (g b : Nat) (f : Fibre → Fibre) : (updFibre s g b f).asked = s.asked := rfl
@[simp] theorem updFibre_helps (s : State) (g b : Nat) (f : Fibre → Fibre) : (updFibre s g b f).helps = s.helps := rfl
@[simp] theorem updFibre_porter (s : State) (g b : Nat) (f : Fibre → Fibre) : (updFibre s g b f).porter = s.porter := rfl
@[simp] theorem updFibre_blocks (s : State) (g b : Nat) (f : Fibre → Fibre) : (updFibre s g b f).blocks = s.blocks := rfl
@[simp] theorem updFibre_barriers (s : State) (g b : Nat) (f : Fibre → Fibre) : (updFibre s g b f).barriers = s.barriers := rfl
@[simp] theorem updFibre_kernels (s : State) (g b : Nat) (f : Fibre → Fibre) : (updFibre s g b f).kernels = s.kernels := rfl
@[simp] theorem updFibre_launches (s : State) (g b : Nat) (f : Fibre → Fibre) : (updFibre s g b f).launches = s.launches := rfl
@[simp] theorem updFibre_partitions (s : State) (g b : Nat) (f : Fibre → Fibre) : (updFibre s g b f).partitions = s.partitions := rfl
@[simp] theorem updFibre_contexts (s : State) (g b : Nat) (f : Fibre → Fibre) : (updFibre s g b f).contexts = s.contexts := rfl
@[simp] theorem updFibre_saves (s : State) (g b : Nat) (f : Fibre → Fibre) : (updFibre s g b f).saves = s.saves := rfl
@[simp] theorem updFibre_tiles (s : State) (g b : Nat) (f : Fibre → Fibre) : (updFibre s g b f).tiles = s.tiles := rfl
@[simp] theorem updFibre_evals (s : State) (g b : Nat) (f : Fibre → Fibre) : (updFibre s g b f).evals = s.evals := rfl
@[simp] theorem updFibre_splats (s : State) (g b : Nat) (f : Fibre → Fibre) : (updFibre s g b f).splats = s.splats := rfl
@[simp] theorem updFibre_frames (s : State) (g b : Nat) (f : Fibre → Fibre) : (updFibre s g b f).frames = s.frames := rfl
@[simp] theorem updFibre_recs (s : State) (g b : Nat) (f : Fibre → Fibre) : (updFibre s g b f).recs = s.recs := rfl
@[simp] theorem updFibre_flushes (s : State) (g b : Nat) (f : Fibre → Fibre) : (updFibre s g b f).flushes = s.flushes := rfl
@[simp] theorem updFibre_cqueue (s : State) (g b : Nat) (f : Fibre → Fibre) : (updFibre s g b f).cqueue = s.cqueue := rfl
@[simp] theorem updFibre_slots (s : State) (g b : Nat) (f : Fibre → Fibre) : (updFibre s g b f).slots = s.slots := rfl
@[simp] theorem updFibre_insts (s : State) (g b : Nat) (f : Fibre → Fibre) : (updFibre s g b f).insts = s.insts := rfl
@[simp] theorem updFibre_deliveries (s : State) (g b : Nat) (f : Fibre → Fibre) : (updFibre s g b f).deliveries = s.deliveries := rfl

/-! ## updKernel -/

@[simp] theorem updKernel_agenda (s : State) (k : Nat) (f : Kernel → Kernel) : (updKernel s k f).agenda = s.agenda := rfl
@[simp] theorem updKernel_cur (s : State) (k : Nat) (f : Kernel → Kernel) : (updKernel s k f).cur = s.cur := rfl
@[simp] theorem updKernel_choices (s : State) (k : Nat) (f : Kernel → Kernel) : (updKernel s k f).choices = s.choices := rfl
@[simp] theorem updKernel_nextId (s : State) (k : Nat) (f : Kernel → Kernel) : (updKernel s k f).nextId = s.nextId := rfl
@[simp] theorem updKernel_draws (s : State) (k : Nat) (f : Kernel → Kernel) : (updKernel s k f).draws = s.draws := rfl
@[simp] theorem updKernel_power (s : State) (k : Nat) (f : Kernel → Kernel) : (updKernel s k f).power = s.power := rfl
@[simp] theorem updKernel_root (s : State) (k : Nat) (f : Kernel → Kernel) : (updKernel s k f).root = s.root := rfl
@[simp] theorem updKernel_dies (s : State) (k : Nat) (f : Kernel → Kernel) : (updKernel s k f).dies = s.dies := rfl
@[simp] theorem updKernel_boundaries (s : State) (k : Nat) (f : Kernel → Kernel) : (updKernel s k f).boundaries = s.boundaries := rfl
@[simp] theorem updKernel_hostLinks (s : State) (k : Nat) (f : Kernel → Kernel) : (updKernel s k f).hostLinks = s.hostLinks := rfl
@[simp] theorem updKernel_ethPorts (s : State) (k : Nat) (f : Kernel → Kernel) : (updKernel s k f).ethPorts = s.ethPorts := rfl
@[simp] theorem updKernel_mailbox (s : State) (k : Nat) (f : Kernel → Kernel) : (updKernel s k f).mailbox = s.mailbox := rfl
@[simp] theorem updKernel_vfMail (s : State) (k : Nat) (f : Kernel → Kernel) : (updKernel s k f).vfMail = s.vfMail := rfl
@[simp] theorem updKernel_mailLog (s : State) (k : Nat) (f : Kernel → Kernel) : (updKernel s k f).mailLog = s.mailLog := rfl
@[simp] theorem updKernel_mem (s : State) (k : Nat) (f : Kernel → Kernel) : (updKernel s k f).mem = s.mem := rfl
@[simp] theorem updKernel_poison (s : State) (k : Nat) (f : Kernel → Kernel) : (updKernel s k f).poison = s.poison := rfl
@[simp] theorem updKernel_held (s : State) (k : Nat) (f : Kernel → Kernel) : (updKernel s k f).held = s.held := rfl
@[simp] theorem updKernel_routing (s : State) (k : Nat) (f : Kernel → Kernel) : (updKernel s k f).routing = s.routing := rfl
@[simp] theorem updKernel_mesh (s : State) (k : Nat) (f : Kernel → Kernel) : (updKernel s k f).mesh = s.mesh := rfl
@[simp] theorem updKernel_tdiErrors (s : State) (k : Nat) (f : Kernel → Kernel) : (updKernel s k f).tdiErrors = s.tdiErrors := rfl
@[simp] theorem updKernel_unsupported (s : State) (k : Nat) (f : Kernel → Kernel) : (updKernel s k f).unsupported = s.unsupported := rfl
@[simp] theorem updKernel_deadMem (s : State) (k : Nat) (f : Kernel → Kernel) : (updKernel s k f).deadMem = s.deadMem := rfl
@[simp] theorem updKernel_linkMap (s : State) (k : Nat) (f : Kernel → Kernel) : (updKernel s k f).linkMap = s.linkMap := rfl
@[simp] theorem updKernel_refNs (s : State) (k : Nat) (f : Kernel → Kernel) : (updKernel s k f).refNs = s.refNs := rfl
@[simp] theorem updKernel_images (s : State) (k : Nat) (f : Kernel → Kernel) : (updKernel s k f).images = s.images := rfl
@[simp] theorem updKernel_fuses (s : State) (k : Nat) (f : Kernel → Kernel) : (updKernel s k f).fuses = s.fuses := rfl
@[simp] theorem updKernel_mended (s : State) (k : Nat) (f : Kernel → Kernel) : (updKernel s k f).mended = s.mended := rfl
@[simp] theorem updKernel_l2 (s : State) (k : Nat) (f : Kernel → Kernel) : (updKernel s k f).l2 = s.l2 := rfl
@[simp] theorem updKernel_lodge (s : State) (k : Nat) (f : Kernel → Kernel) : (updKernel s k f).lodge = s.lodge := rfl
@[simp] theorem updKernel_lodgeDirty (s : State) (k : Nat) (f : Kernel → Kernel) : (updKernel s k f).lodgeDirty = s.lodgeDirty := rfl
@[simp] theorem updKernel_written (s : State) (k : Nat) (f : Kernel → Kernel) : (updKernel s k f).written = s.written := rfl
@[simp] theorem updKernel_outbox (s : State) (k : Nat) (f : Kernel → Kernel) : (updKernel s k f).outbox = s.outbox := rfl
@[simp] theorem updKernel_homes (s : State) (k : Nat) (f : Kernel → Kernel) : (updKernel s k f).homes = s.homes := rfl
@[simp] theorem updKernel_l1 (s : State) (k : Nat) (f : Kernel → Kernel) : (updKernel s k f).l1 = s.l1 := rfl
@[simp] theorem updKernel_partials (s : State) (k : Nat) (f : Kernel → Kernel) : (updKernel s k f).partials = s.partials := rfl
@[simp] theorem updKernel_writes (s : State) (k : Nat) (f : Kernel → Kernel) : (updKernel s k f).writes = s.writes := rfl
@[simp] theorem updKernel_ops (s : State) (k : Nat) (f : Kernel → Kernel) : (updKernel s k f).ops = s.ops := rfl
@[simp] theorem updKernel_fills (s : State) (k : Nat) (f : Kernel → Kernel) : (updKernel s k f).fills = s.fills := rfl
@[simp] theorem updKernel_tlb (s : State) (k : Nat) (f : Kernel → Kernel) : (updKernel s k f).tlb = s.tlb := rfl
@[simp] theorem updKernel_rangeTlb (s : State) (k : Nat) (f : Kernel → Kernel) : (updKernel s k f).rangeTlb = s.rangeTlb := rfl
@[simp] theorem updKernel_icache (s : State) (k : Nat) (f : Kernel → Kernel) : (updKernel s k f).icache = s.icache := rfl
@[simp] theorem updKernel_jobs (s : State) (k : Nat) (f : Kernel → Kernel) : (updKernel s k f).jobs = s.jobs := rfl
@[simp] theorem updKernel_asked (s : State) (k : Nat) (f : Kernel → Kernel) : (updKernel s k f).asked = s.asked := rfl
@[simp] theorem updKernel_helps (s : State) (k : Nat) (f : Kernel → Kernel) : (updKernel s k f).helps = s.helps := rfl
@[simp] theorem updKernel_porter (s : State) (k : Nat) (f : Kernel → Kernel) : (updKernel s k f).porter = s.porter := rfl
@[simp] theorem updKernel_groups (s : State) (k : Nat) (f : Kernel → Kernel) : (updKernel s k f).groups = s.groups := rfl
@[simp] theorem updKernel_blocks (s : State) (k : Nat) (f : Kernel → Kernel) : (updKernel s k f).blocks = s.blocks := rfl
@[simp] theorem updKernel_barriers (s : State) (k : Nat) (f : Kernel → Kernel) : (updKernel s k f).barriers = s.barriers := rfl
@[simp] theorem updKernel_launches (s : State) (k : Nat) (f : Kernel → Kernel) : (updKernel s k f).launches = s.launches := rfl
@[simp] theorem updKernel_partitions (s : State) (k : Nat) (f : Kernel → Kernel) : (updKernel s k f).partitions = s.partitions := rfl
@[simp] theorem updKernel_contexts (s : State) (k : Nat) (f : Kernel → Kernel) : (updKernel s k f).contexts = s.contexts := rfl
@[simp] theorem updKernel_saves (s : State) (k : Nat) (f : Kernel → Kernel) : (updKernel s k f).saves = s.saves := rfl
@[simp] theorem updKernel_tiles (s : State) (k : Nat) (f : Kernel → Kernel) : (updKernel s k f).tiles = s.tiles := rfl
@[simp] theorem updKernel_evals (s : State) (k : Nat) (f : Kernel → Kernel) : (updKernel s k f).evals = s.evals := rfl
@[simp] theorem updKernel_splats (s : State) (k : Nat) (f : Kernel → Kernel) : (updKernel s k f).splats = s.splats := rfl
@[simp] theorem updKernel_frames (s : State) (k : Nat) (f : Kernel → Kernel) : (updKernel s k f).frames = s.frames := rfl
@[simp] theorem updKernel_recs (s : State) (k : Nat) (f : Kernel → Kernel) : (updKernel s k f).recs = s.recs := rfl
@[simp] theorem updKernel_flushes (s : State) (k : Nat) (f : Kernel → Kernel) : (updKernel s k f).flushes = s.flushes := rfl
@[simp] theorem updKernel_cqueue (s : State) (k : Nat) (f : Kernel → Kernel) : (updKernel s k f).cqueue = s.cqueue := rfl
@[simp] theorem updKernel_slots (s : State) (k : Nat) (f : Kernel → Kernel) : (updKernel s k f).slots = s.slots := rfl
@[simp] theorem updKernel_insts (s : State) (k : Nat) (f : Kernel → Kernel) : (updKernel s k f).insts = s.insts := rfl
@[simp] theorem updKernel_deliveries (s : State) (k : Nat) (f : Kernel → Kernel) : (updKernel s k f).deliveries = s.deliveries := rfl

/-! ## updBlock -/

@[simp] theorem updBlock_agenda (s : State) (b : Nat) (f : Block → Block) : (updBlock s b f).agenda = s.agenda := rfl
@[simp] theorem updBlock_cur (s : State) (b : Nat) (f : Block → Block) : (updBlock s b f).cur = s.cur := rfl
@[simp] theorem updBlock_choices (s : State) (b : Nat) (f : Block → Block) : (updBlock s b f).choices = s.choices := rfl
@[simp] theorem updBlock_nextId (s : State) (b : Nat) (f : Block → Block) : (updBlock s b f).nextId = s.nextId := rfl
@[simp] theorem updBlock_draws (s : State) (b : Nat) (f : Block → Block) : (updBlock s b f).draws = s.draws := rfl
@[simp] theorem updBlock_power (s : State) (b : Nat) (f : Block → Block) : (updBlock s b f).power = s.power := rfl
@[simp] theorem updBlock_root (s : State) (b : Nat) (f : Block → Block) : (updBlock s b f).root = s.root := rfl
@[simp] theorem updBlock_dies (s : State) (b : Nat) (f : Block → Block) : (updBlock s b f).dies = s.dies := rfl
@[simp] theorem updBlock_boundaries (s : State) (b : Nat) (f : Block → Block) : (updBlock s b f).boundaries = s.boundaries := rfl
@[simp] theorem updBlock_hostLinks (s : State) (b : Nat) (f : Block → Block) : (updBlock s b f).hostLinks = s.hostLinks := rfl
@[simp] theorem updBlock_ethPorts (s : State) (b : Nat) (f : Block → Block) : (updBlock s b f).ethPorts = s.ethPorts := rfl
@[simp] theorem updBlock_mailbox (s : State) (b : Nat) (f : Block → Block) : (updBlock s b f).mailbox = s.mailbox := rfl
@[simp] theorem updBlock_vfMail (s : State) (b : Nat) (f : Block → Block) : (updBlock s b f).vfMail = s.vfMail := rfl
@[simp] theorem updBlock_mailLog (s : State) (b : Nat) (f : Block → Block) : (updBlock s b f).mailLog = s.mailLog := rfl
@[simp] theorem updBlock_mem (s : State) (b : Nat) (f : Block → Block) : (updBlock s b f).mem = s.mem := rfl
@[simp] theorem updBlock_poison (s : State) (b : Nat) (f : Block → Block) : (updBlock s b f).poison = s.poison := rfl
@[simp] theorem updBlock_held (s : State) (b : Nat) (f : Block → Block) : (updBlock s b f).held = s.held := rfl
@[simp] theorem updBlock_routing (s : State) (b : Nat) (f : Block → Block) : (updBlock s b f).routing = s.routing := rfl
@[simp] theorem updBlock_mesh (s : State) (b : Nat) (f : Block → Block) : (updBlock s b f).mesh = s.mesh := rfl
@[simp] theorem updBlock_tdiErrors (s : State) (b : Nat) (f : Block → Block) : (updBlock s b f).tdiErrors = s.tdiErrors := rfl
@[simp] theorem updBlock_unsupported (s : State) (b : Nat) (f : Block → Block) : (updBlock s b f).unsupported = s.unsupported := rfl
@[simp] theorem updBlock_deadMem (s : State) (b : Nat) (f : Block → Block) : (updBlock s b f).deadMem = s.deadMem := rfl
@[simp] theorem updBlock_linkMap (s : State) (b : Nat) (f : Block → Block) : (updBlock s b f).linkMap = s.linkMap := rfl
@[simp] theorem updBlock_refNs (s : State) (b : Nat) (f : Block → Block) : (updBlock s b f).refNs = s.refNs := rfl
@[simp] theorem updBlock_images (s : State) (b : Nat) (f : Block → Block) : (updBlock s b f).images = s.images := rfl
@[simp] theorem updBlock_fuses (s : State) (b : Nat) (f : Block → Block) : (updBlock s b f).fuses = s.fuses := rfl
@[simp] theorem updBlock_mended (s : State) (b : Nat) (f : Block → Block) : (updBlock s b f).mended = s.mended := rfl
@[simp] theorem updBlock_l2 (s : State) (b : Nat) (f : Block → Block) : (updBlock s b f).l2 = s.l2 := rfl
@[simp] theorem updBlock_lodge (s : State) (b : Nat) (f : Block → Block) : (updBlock s b f).lodge = s.lodge := rfl
@[simp] theorem updBlock_lodgeDirty (s : State) (b : Nat) (f : Block → Block) : (updBlock s b f).lodgeDirty = s.lodgeDirty := rfl
@[simp] theorem updBlock_written (s : State) (b : Nat) (f : Block → Block) : (updBlock s b f).written = s.written := rfl
@[simp] theorem updBlock_outbox (s : State) (b : Nat) (f : Block → Block) : (updBlock s b f).outbox = s.outbox := rfl
@[simp] theorem updBlock_homes (s : State) (b : Nat) (f : Block → Block) : (updBlock s b f).homes = s.homes := rfl
@[simp] theorem updBlock_l1 (s : State) (b : Nat) (f : Block → Block) : (updBlock s b f).l1 = s.l1 := rfl
@[simp] theorem updBlock_partials (s : State) (b : Nat) (f : Block → Block) : (updBlock s b f).partials = s.partials := rfl
@[simp] theorem updBlock_writes (s : State) (b : Nat) (f : Block → Block) : (updBlock s b f).writes = s.writes := rfl
@[simp] theorem updBlock_ops (s : State) (b : Nat) (f : Block → Block) : (updBlock s b f).ops = s.ops := rfl
@[simp] theorem updBlock_fills (s : State) (b : Nat) (f : Block → Block) : (updBlock s b f).fills = s.fills := rfl
@[simp] theorem updBlock_tlb (s : State) (b : Nat) (f : Block → Block) : (updBlock s b f).tlb = s.tlb := rfl
@[simp] theorem updBlock_rangeTlb (s : State) (b : Nat) (f : Block → Block) : (updBlock s b f).rangeTlb = s.rangeTlb := rfl
@[simp] theorem updBlock_icache (s : State) (b : Nat) (f : Block → Block) : (updBlock s b f).icache = s.icache := rfl
@[simp] theorem updBlock_jobs (s : State) (b : Nat) (f : Block → Block) : (updBlock s b f).jobs = s.jobs := rfl
@[simp] theorem updBlock_asked (s : State) (b : Nat) (f : Block → Block) : (updBlock s b f).asked = s.asked := rfl
@[simp] theorem updBlock_helps (s : State) (b : Nat) (f : Block → Block) : (updBlock s b f).helps = s.helps := rfl
@[simp] theorem updBlock_porter (s : State) (b : Nat) (f : Block → Block) : (updBlock s b f).porter = s.porter := rfl
@[simp] theorem updBlock_groups (s : State) (b : Nat) (f : Block → Block) : (updBlock s b f).groups = s.groups := rfl
@[simp] theorem updBlock_barriers (s : State) (b : Nat) (f : Block → Block) : (updBlock s b f).barriers = s.barriers := rfl
@[simp] theorem updBlock_kernels (s : State) (b : Nat) (f : Block → Block) : (updBlock s b f).kernels = s.kernels := rfl
@[simp] theorem updBlock_launches (s : State) (b : Nat) (f : Block → Block) : (updBlock s b f).launches = s.launches := rfl
@[simp] theorem updBlock_partitions (s : State) (b : Nat) (f : Block → Block) : (updBlock s b f).partitions = s.partitions := rfl
@[simp] theorem updBlock_contexts (s : State) (b : Nat) (f : Block → Block) : (updBlock s b f).contexts = s.contexts := rfl
@[simp] theorem updBlock_saves (s : State) (b : Nat) (f : Block → Block) : (updBlock s b f).saves = s.saves := rfl
@[simp] theorem updBlock_tiles (s : State) (b : Nat) (f : Block → Block) : (updBlock s b f).tiles = s.tiles := rfl
@[simp] theorem updBlock_evals (s : State) (b : Nat) (f : Block → Block) : (updBlock s b f).evals = s.evals := rfl
@[simp] theorem updBlock_splats (s : State) (b : Nat) (f : Block → Block) : (updBlock s b f).splats = s.splats := rfl
@[simp] theorem updBlock_frames (s : State) (b : Nat) (f : Block → Block) : (updBlock s b f).frames = s.frames := rfl
@[simp] theorem updBlock_recs (s : State) (b : Nat) (f : Block → Block) : (updBlock s b f).recs = s.recs := rfl
@[simp] theorem updBlock_flushes (s : State) (b : Nat) (f : Block → Block) : (updBlock s b f).flushes = s.flushes := rfl
@[simp] theorem updBlock_cqueue (s : State) (b : Nat) (f : Block → Block) : (updBlock s b f).cqueue = s.cqueue := rfl
@[simp] theorem updBlock_slots (s : State) (b : Nat) (f : Block → Block) : (updBlock s b f).slots = s.slots := rfl
@[simp] theorem updBlock_insts (s : State) (b : Nat) (f : Block → Block) : (updBlock s b f).insts = s.insts := rfl
@[simp] theorem updBlock_deliveries (s : State) (b : Nat) (f : Block → Block) : (updBlock s b f).deliveries = s.deliveries := rfl

/-! ## updDie -/

@[simp] theorem updDie_agenda (s : State) (d : Nat) (f : Die → Die) : (updDie s d f).agenda = s.agenda := rfl
@[simp] theorem updDie_cur (s : State) (d : Nat) (f : Die → Die) : (updDie s d f).cur = s.cur := rfl
@[simp] theorem updDie_choices (s : State) (d : Nat) (f : Die → Die) : (updDie s d f).choices = s.choices := rfl
@[simp] theorem updDie_nextId (s : State) (d : Nat) (f : Die → Die) : (updDie s d f).nextId = s.nextId := rfl
@[simp] theorem updDie_draws (s : State) (d : Nat) (f : Die → Die) : (updDie s d f).draws = s.draws := rfl
@[simp] theorem updDie_power (s : State) (d : Nat) (f : Die → Die) : (updDie s d f).power = s.power := rfl
@[simp] theorem updDie_root (s : State) (d : Nat) (f : Die → Die) : (updDie s d f).root = s.root := rfl
@[simp] theorem updDie_boundaries (s : State) (d : Nat) (f : Die → Die) : (updDie s d f).boundaries = s.boundaries := rfl
@[simp] theorem updDie_hostLinks (s : State) (d : Nat) (f : Die → Die) : (updDie s d f).hostLinks = s.hostLinks := rfl
@[simp] theorem updDie_ethPorts (s : State) (d : Nat) (f : Die → Die) : (updDie s d f).ethPorts = s.ethPorts := rfl
@[simp] theorem updDie_mailbox (s : State) (d : Nat) (f : Die → Die) : (updDie s d f).mailbox = s.mailbox := rfl
@[simp] theorem updDie_vfMail (s : State) (d : Nat) (f : Die → Die) : (updDie s d f).vfMail = s.vfMail := rfl
@[simp] theorem updDie_mailLog (s : State) (d : Nat) (f : Die → Die) : (updDie s d f).mailLog = s.mailLog := rfl
@[simp] theorem updDie_mem (s : State) (d : Nat) (f : Die → Die) : (updDie s d f).mem = s.mem := rfl
@[simp] theorem updDie_poison (s : State) (d : Nat) (f : Die → Die) : (updDie s d f).poison = s.poison := rfl
@[simp] theorem updDie_held (s : State) (d : Nat) (f : Die → Die) : (updDie s d f).held = s.held := rfl
@[simp] theorem updDie_routing (s : State) (d : Nat) (f : Die → Die) : (updDie s d f).routing = s.routing := rfl
@[simp] theorem updDie_mesh (s : State) (d : Nat) (f : Die → Die) : (updDie s d f).mesh = s.mesh := rfl
@[simp] theorem updDie_tdiErrors (s : State) (d : Nat) (f : Die → Die) : (updDie s d f).tdiErrors = s.tdiErrors := rfl
@[simp] theorem updDie_unsupported (s : State) (d : Nat) (f : Die → Die) : (updDie s d f).unsupported = s.unsupported := rfl
@[simp] theorem updDie_deadMem (s : State) (d : Nat) (f : Die → Die) : (updDie s d f).deadMem = s.deadMem := rfl
@[simp] theorem updDie_linkMap (s : State) (d : Nat) (f : Die → Die) : (updDie s d f).linkMap = s.linkMap := rfl
@[simp] theorem updDie_refNs (s : State) (d : Nat) (f : Die → Die) : (updDie s d f).refNs = s.refNs := rfl
@[simp] theorem updDie_images (s : State) (d : Nat) (f : Die → Die) : (updDie s d f).images = s.images := rfl
@[simp] theorem updDie_fuses (s : State) (d : Nat) (f : Die → Die) : (updDie s d f).fuses = s.fuses := rfl
@[simp] theorem updDie_mended (s : State) (d : Nat) (f : Die → Die) : (updDie s d f).mended = s.mended := rfl
@[simp] theorem updDie_l2 (s : State) (d : Nat) (f : Die → Die) : (updDie s d f).l2 = s.l2 := rfl
@[simp] theorem updDie_lodge (s : State) (d : Nat) (f : Die → Die) : (updDie s d f).lodge = s.lodge := rfl
@[simp] theorem updDie_lodgeDirty (s : State) (d : Nat) (f : Die → Die) : (updDie s d f).lodgeDirty = s.lodgeDirty := rfl
@[simp] theorem updDie_written (s : State) (d : Nat) (f : Die → Die) : (updDie s d f).written = s.written := rfl
@[simp] theorem updDie_outbox (s : State) (d : Nat) (f : Die → Die) : (updDie s d f).outbox = s.outbox := rfl
@[simp] theorem updDie_homes (s : State) (d : Nat) (f : Die → Die) : (updDie s d f).homes = s.homes := rfl
@[simp] theorem updDie_l1 (s : State) (d : Nat) (f : Die → Die) : (updDie s d f).l1 = s.l1 := rfl
@[simp] theorem updDie_partials (s : State) (d : Nat) (f : Die → Die) : (updDie s d f).partials = s.partials := rfl
@[simp] theorem updDie_writes (s : State) (d : Nat) (f : Die → Die) : (updDie s d f).writes = s.writes := rfl
@[simp] theorem updDie_ops (s : State) (d : Nat) (f : Die → Die) : (updDie s d f).ops = s.ops := rfl
@[simp] theorem updDie_fills (s : State) (d : Nat) (f : Die → Die) : (updDie s d f).fills = s.fills := rfl
@[simp] theorem updDie_tlb (s : State) (d : Nat) (f : Die → Die) : (updDie s d f).tlb = s.tlb := rfl
@[simp] theorem updDie_rangeTlb (s : State) (d : Nat) (f : Die → Die) : (updDie s d f).rangeTlb = s.rangeTlb := rfl
@[simp] theorem updDie_icache (s : State) (d : Nat) (f : Die → Die) : (updDie s d f).icache = s.icache := rfl
@[simp] theorem updDie_jobs (s : State) (d : Nat) (f : Die → Die) : (updDie s d f).jobs = s.jobs := rfl
@[simp] theorem updDie_asked (s : State) (d : Nat) (f : Die → Die) : (updDie s d f).asked = s.asked := rfl
@[simp] theorem updDie_helps (s : State) (d : Nat) (f : Die → Die) : (updDie s d f).helps = s.helps := rfl
@[simp] theorem updDie_porter (s : State) (d : Nat) (f : Die → Die) : (updDie s d f).porter = s.porter := rfl
@[simp] theorem updDie_groups (s : State) (d : Nat) (f : Die → Die) : (updDie s d f).groups = s.groups := rfl
@[simp] theorem updDie_blocks (s : State) (d : Nat) (f : Die → Die) : (updDie s d f).blocks = s.blocks := rfl
@[simp] theorem updDie_barriers (s : State) (d : Nat) (f : Die → Die) : (updDie s d f).barriers = s.barriers := rfl
@[simp] theorem updDie_kernels (s : State) (d : Nat) (f : Die → Die) : (updDie s d f).kernels = s.kernels := rfl
@[simp] theorem updDie_launches (s : State) (d : Nat) (f : Die → Die) : (updDie s d f).launches = s.launches := rfl
@[simp] theorem updDie_partitions (s : State) (d : Nat) (f : Die → Die) : (updDie s d f).partitions = s.partitions := rfl
@[simp] theorem updDie_contexts (s : State) (d : Nat) (f : Die → Die) : (updDie s d f).contexts = s.contexts := rfl
@[simp] theorem updDie_saves (s : State) (d : Nat) (f : Die → Die) : (updDie s d f).saves = s.saves := rfl
@[simp] theorem updDie_tiles (s : State) (d : Nat) (f : Die → Die) : (updDie s d f).tiles = s.tiles := rfl
@[simp] theorem updDie_evals (s : State) (d : Nat) (f : Die → Die) : (updDie s d f).evals = s.evals := rfl
@[simp] theorem updDie_splats (s : State) (d : Nat) (f : Die → Die) : (updDie s d f).splats = s.splats := rfl
@[simp] theorem updDie_frames (s : State) (d : Nat) (f : Die → Die) : (updDie s d f).frames = s.frames := rfl
@[simp] theorem updDie_recs (s : State) (d : Nat) (f : Die → Die) : (updDie s d f).recs = s.recs := rfl
@[simp] theorem updDie_flushes (s : State) (d : Nat) (f : Die → Die) : (updDie s d f).flushes = s.flushes := rfl
@[simp] theorem updDie_cqueue (s : State) (d : Nat) (f : Die → Die) : (updDie s d f).cqueue = s.cqueue := rfl
@[simp] theorem updDie_slots (s : State) (d : Nat) (f : Die → Die) : (updDie s d f).slots = s.slots := rfl
@[simp] theorem updDie_insts (s : State) (d : Nat) (f : Die → Die) : (updDie s d f).insts = s.insts := rfl
@[simp] theorem updDie_deliveries (s : State) (d : Nat) (f : Die → Die) : (updDie s d f).deliveries = s.deliveries := rfl

/-! ## updCtx -/

@[simp] theorem updCtx_agenda (s : State) (c : Nat) (f : Context → Context) : (updCtx s c f).agenda = s.agenda := rfl
@[simp] theorem updCtx_cur (s : State) (c : Nat) (f : Context → Context) : (updCtx s c f).cur = s.cur := rfl
@[simp] theorem updCtx_choices (s : State) (c : Nat) (f : Context → Context) : (updCtx s c f).choices = s.choices := rfl
@[simp] theorem updCtx_nextId (s : State) (c : Nat) (f : Context → Context) : (updCtx s c f).nextId = s.nextId := rfl
@[simp] theorem updCtx_draws (s : State) (c : Nat) (f : Context → Context) : (updCtx s c f).draws = s.draws := rfl
@[simp] theorem updCtx_power (s : State) (c : Nat) (f : Context → Context) : (updCtx s c f).power = s.power := rfl
@[simp] theorem updCtx_root (s : State) (c : Nat) (f : Context → Context) : (updCtx s c f).root = s.root := rfl
@[simp] theorem updCtx_dies (s : State) (c : Nat) (f : Context → Context) : (updCtx s c f).dies = s.dies := rfl
@[simp] theorem updCtx_boundaries (s : State) (c : Nat) (f : Context → Context) : (updCtx s c f).boundaries = s.boundaries := rfl
@[simp] theorem updCtx_hostLinks (s : State) (c : Nat) (f : Context → Context) : (updCtx s c f).hostLinks = s.hostLinks := rfl
@[simp] theorem updCtx_ethPorts (s : State) (c : Nat) (f : Context → Context) : (updCtx s c f).ethPorts = s.ethPorts := rfl
@[simp] theorem updCtx_mailbox (s : State) (c : Nat) (f : Context → Context) : (updCtx s c f).mailbox = s.mailbox := rfl
@[simp] theorem updCtx_vfMail (s : State) (c : Nat) (f : Context → Context) : (updCtx s c f).vfMail = s.vfMail := rfl
@[simp] theorem updCtx_mailLog (s : State) (c : Nat) (f : Context → Context) : (updCtx s c f).mailLog = s.mailLog := rfl
@[simp] theorem updCtx_mem (s : State) (c : Nat) (f : Context → Context) : (updCtx s c f).mem = s.mem := rfl
@[simp] theorem updCtx_poison (s : State) (c : Nat) (f : Context → Context) : (updCtx s c f).poison = s.poison := rfl
@[simp] theorem updCtx_held (s : State) (c : Nat) (f : Context → Context) : (updCtx s c f).held = s.held := rfl
@[simp] theorem updCtx_routing (s : State) (c : Nat) (f : Context → Context) : (updCtx s c f).routing = s.routing := rfl
@[simp] theorem updCtx_mesh (s : State) (c : Nat) (f : Context → Context) : (updCtx s c f).mesh = s.mesh := rfl
@[simp] theorem updCtx_tdiErrors (s : State) (c : Nat) (f : Context → Context) : (updCtx s c f).tdiErrors = s.tdiErrors := rfl
@[simp] theorem updCtx_unsupported (s : State) (c : Nat) (f : Context → Context) : (updCtx s c f).unsupported = s.unsupported := rfl
@[simp] theorem updCtx_deadMem (s : State) (c : Nat) (f : Context → Context) : (updCtx s c f).deadMem = s.deadMem := rfl
@[simp] theorem updCtx_linkMap (s : State) (c : Nat) (f : Context → Context) : (updCtx s c f).linkMap = s.linkMap := rfl
@[simp] theorem updCtx_refNs (s : State) (c : Nat) (f : Context → Context) : (updCtx s c f).refNs = s.refNs := rfl
@[simp] theorem updCtx_images (s : State) (c : Nat) (f : Context → Context) : (updCtx s c f).images = s.images := rfl
@[simp] theorem updCtx_fuses (s : State) (c : Nat) (f : Context → Context) : (updCtx s c f).fuses = s.fuses := rfl
@[simp] theorem updCtx_mended (s : State) (c : Nat) (f : Context → Context) : (updCtx s c f).mended = s.mended := rfl
@[simp] theorem updCtx_l2 (s : State) (c : Nat) (f : Context → Context) : (updCtx s c f).l2 = s.l2 := rfl
@[simp] theorem updCtx_lodge (s : State) (c : Nat) (f : Context → Context) : (updCtx s c f).lodge = s.lodge := rfl
@[simp] theorem updCtx_lodgeDirty (s : State) (c : Nat) (f : Context → Context) : (updCtx s c f).lodgeDirty = s.lodgeDirty := rfl
@[simp] theorem updCtx_written (s : State) (c : Nat) (f : Context → Context) : (updCtx s c f).written = s.written := rfl
@[simp] theorem updCtx_outbox (s : State) (c : Nat) (f : Context → Context) : (updCtx s c f).outbox = s.outbox := rfl
@[simp] theorem updCtx_homes (s : State) (c : Nat) (f : Context → Context) : (updCtx s c f).homes = s.homes := rfl
@[simp] theorem updCtx_l1 (s : State) (c : Nat) (f : Context → Context) : (updCtx s c f).l1 = s.l1 := rfl
@[simp] theorem updCtx_partials (s : State) (c : Nat) (f : Context → Context) : (updCtx s c f).partials = s.partials := rfl
@[simp] theorem updCtx_writes (s : State) (c : Nat) (f : Context → Context) : (updCtx s c f).writes = s.writes := rfl
@[simp] theorem updCtx_ops (s : State) (c : Nat) (f : Context → Context) : (updCtx s c f).ops = s.ops := rfl
@[simp] theorem updCtx_fills (s : State) (c : Nat) (f : Context → Context) : (updCtx s c f).fills = s.fills := rfl
@[simp] theorem updCtx_tlb (s : State) (c : Nat) (f : Context → Context) : (updCtx s c f).tlb = s.tlb := rfl
@[simp] theorem updCtx_rangeTlb (s : State) (c : Nat) (f : Context → Context) : (updCtx s c f).rangeTlb = s.rangeTlb := rfl
@[simp] theorem updCtx_icache (s : State) (c : Nat) (f : Context → Context) : (updCtx s c f).icache = s.icache := rfl
@[simp] theorem updCtx_jobs (s : State) (c : Nat) (f : Context → Context) : (updCtx s c f).jobs = s.jobs := rfl
@[simp] theorem updCtx_asked (s : State) (c : Nat) (f : Context → Context) : (updCtx s c f).asked = s.asked := rfl
@[simp] theorem updCtx_helps (s : State) (c : Nat) (f : Context → Context) : (updCtx s c f).helps = s.helps := rfl
@[simp] theorem updCtx_porter (s : State) (c : Nat) (f : Context → Context) : (updCtx s c f).porter = s.porter := rfl
@[simp] theorem updCtx_groups (s : State) (c : Nat) (f : Context → Context) : (updCtx s c f).groups = s.groups := rfl
@[simp] theorem updCtx_blocks (s : State) (c : Nat) (f : Context → Context) : (updCtx s c f).blocks = s.blocks := rfl
@[simp] theorem updCtx_barriers (s : State) (c : Nat) (f : Context → Context) : (updCtx s c f).barriers = s.barriers := rfl
@[simp] theorem updCtx_kernels (s : State) (c : Nat) (f : Context → Context) : (updCtx s c f).kernels = s.kernels := rfl
@[simp] theorem updCtx_launches (s : State) (c : Nat) (f : Context → Context) : (updCtx s c f).launches = s.launches := rfl
@[simp] theorem updCtx_partitions (s : State) (c : Nat) (f : Context → Context) : (updCtx s c f).partitions = s.partitions := rfl
@[simp] theorem updCtx_saves (s : State) (c : Nat) (f : Context → Context) : (updCtx s c f).saves = s.saves := rfl
@[simp] theorem updCtx_tiles (s : State) (c : Nat) (f : Context → Context) : (updCtx s c f).tiles = s.tiles := rfl
@[simp] theorem updCtx_evals (s : State) (c : Nat) (f : Context → Context) : (updCtx s c f).evals = s.evals := rfl
@[simp] theorem updCtx_splats (s : State) (c : Nat) (f : Context → Context) : (updCtx s c f).splats = s.splats := rfl
@[simp] theorem updCtx_frames (s : State) (c : Nat) (f : Context → Context) : (updCtx s c f).frames = s.frames := rfl
@[simp] theorem updCtx_recs (s : State) (c : Nat) (f : Context → Context) : (updCtx s c f).recs = s.recs := rfl
@[simp] theorem updCtx_flushes (s : State) (c : Nat) (f : Context → Context) : (updCtx s c f).flushes = s.flushes := rfl
@[simp] theorem updCtx_cqueue (s : State) (c : Nat) (f : Context → Context) : (updCtx s c f).cqueue = s.cqueue := rfl
@[simp] theorem updCtx_slots (s : State) (c : Nat) (f : Context → Context) : (updCtx s c f).slots = s.slots := rfl
@[simp] theorem updCtx_insts (s : State) (c : Nat) (f : Context → Context) : (updCtx s c f).insts = s.insts := rfl
@[simp] theorem updCtx_deliveries (s : State) (c : Nat) (f : Context → Context) : (updCtx s c f).deliveries = s.deliveries := rfl

/-! ## setGroup -/

@[simp] theorem setGroup_agenda (s : State) (g : Nat) (x : Group) : (setGroup s g x).agenda = s.agenda := rfl
@[simp] theorem setGroup_cur (s : State) (g : Nat) (x : Group) : (setGroup s g x).cur = s.cur := rfl
@[simp] theorem setGroup_choices (s : State) (g : Nat) (x : Group) : (setGroup s g x).choices = s.choices := rfl
@[simp] theorem setGroup_nextId (s : State) (g : Nat) (x : Group) : (setGroup s g x).nextId = s.nextId := rfl
@[simp] theorem setGroup_draws (s : State) (g : Nat) (x : Group) : (setGroup s g x).draws = s.draws := rfl
@[simp] theorem setGroup_power (s : State) (g : Nat) (x : Group) : (setGroup s g x).power = s.power := rfl
@[simp] theorem setGroup_root (s : State) (g : Nat) (x : Group) : (setGroup s g x).root = s.root := rfl
@[simp] theorem setGroup_dies (s : State) (g : Nat) (x : Group) : (setGroup s g x).dies = s.dies := rfl
@[simp] theorem setGroup_boundaries (s : State) (g : Nat) (x : Group) : (setGroup s g x).boundaries = s.boundaries := rfl
@[simp] theorem setGroup_hostLinks (s : State) (g : Nat) (x : Group) : (setGroup s g x).hostLinks = s.hostLinks := rfl
@[simp] theorem setGroup_ethPorts (s : State) (g : Nat) (x : Group) : (setGroup s g x).ethPorts = s.ethPorts := rfl
@[simp] theorem setGroup_mailbox (s : State) (g : Nat) (x : Group) : (setGroup s g x).mailbox = s.mailbox := rfl
@[simp] theorem setGroup_vfMail (s : State) (g : Nat) (x : Group) : (setGroup s g x).vfMail = s.vfMail := rfl
@[simp] theorem setGroup_mailLog (s : State) (g : Nat) (x : Group) : (setGroup s g x).mailLog = s.mailLog := rfl
@[simp] theorem setGroup_mem (s : State) (g : Nat) (x : Group) : (setGroup s g x).mem = s.mem := rfl
@[simp] theorem setGroup_poison (s : State) (g : Nat) (x : Group) : (setGroup s g x).poison = s.poison := rfl
@[simp] theorem setGroup_held (s : State) (g : Nat) (x : Group) : (setGroup s g x).held = s.held := rfl
@[simp] theorem setGroup_routing (s : State) (g : Nat) (x : Group) : (setGroup s g x).routing = s.routing := rfl
@[simp] theorem setGroup_mesh (s : State) (g : Nat) (x : Group) : (setGroup s g x).mesh = s.mesh := rfl
@[simp] theorem setGroup_tdiErrors (s : State) (g : Nat) (x : Group) : (setGroup s g x).tdiErrors = s.tdiErrors := rfl
@[simp] theorem setGroup_unsupported (s : State) (g : Nat) (x : Group) : (setGroup s g x).unsupported = s.unsupported := rfl
@[simp] theorem setGroup_deadMem (s : State) (g : Nat) (x : Group) : (setGroup s g x).deadMem = s.deadMem := rfl
@[simp] theorem setGroup_linkMap (s : State) (g : Nat) (x : Group) : (setGroup s g x).linkMap = s.linkMap := rfl
@[simp] theorem setGroup_refNs (s : State) (g : Nat) (x : Group) : (setGroup s g x).refNs = s.refNs := rfl
@[simp] theorem setGroup_images (s : State) (g : Nat) (x : Group) : (setGroup s g x).images = s.images := rfl
@[simp] theorem setGroup_fuses (s : State) (g : Nat) (x : Group) : (setGroup s g x).fuses = s.fuses := rfl
@[simp] theorem setGroup_mended (s : State) (g : Nat) (x : Group) : (setGroup s g x).mended = s.mended := rfl
@[simp] theorem setGroup_l2 (s : State) (g : Nat) (x : Group) : (setGroup s g x).l2 = s.l2 := rfl
@[simp] theorem setGroup_lodge (s : State) (g : Nat) (x : Group) : (setGroup s g x).lodge = s.lodge := rfl
@[simp] theorem setGroup_lodgeDirty (s : State) (g : Nat) (x : Group) : (setGroup s g x).lodgeDirty = s.lodgeDirty := rfl
@[simp] theorem setGroup_written (s : State) (g : Nat) (x : Group) : (setGroup s g x).written = s.written := rfl
@[simp] theorem setGroup_outbox (s : State) (g : Nat) (x : Group) : (setGroup s g x).outbox = s.outbox := rfl
@[simp] theorem setGroup_homes (s : State) (g : Nat) (x : Group) : (setGroup s g x).homes = s.homes := rfl
@[simp] theorem setGroup_l1 (s : State) (g : Nat) (x : Group) : (setGroup s g x).l1 = s.l1 := rfl
@[simp] theorem setGroup_partials (s : State) (g : Nat) (x : Group) : (setGroup s g x).partials = s.partials := rfl
@[simp] theorem setGroup_writes (s : State) (g : Nat) (x : Group) : (setGroup s g x).writes = s.writes := rfl
@[simp] theorem setGroup_ops (s : State) (g : Nat) (x : Group) : (setGroup s g x).ops = s.ops := rfl
@[simp] theorem setGroup_fills (s : State) (g : Nat) (x : Group) : (setGroup s g x).fills = s.fills := rfl
@[simp] theorem setGroup_tlb (s : State) (g : Nat) (x : Group) : (setGroup s g x).tlb = s.tlb := rfl
@[simp] theorem setGroup_rangeTlb (s : State) (g : Nat) (x : Group) : (setGroup s g x).rangeTlb = s.rangeTlb := rfl
@[simp] theorem setGroup_icache (s : State) (g : Nat) (x : Group) : (setGroup s g x).icache = s.icache := rfl
@[simp] theorem setGroup_jobs (s : State) (g : Nat) (x : Group) : (setGroup s g x).jobs = s.jobs := rfl
@[simp] theorem setGroup_asked (s : State) (g : Nat) (x : Group) : (setGroup s g x).asked = s.asked := rfl
@[simp] theorem setGroup_helps (s : State) (g : Nat) (x : Group) : (setGroup s g x).helps = s.helps := rfl
@[simp] theorem setGroup_porter (s : State) (g : Nat) (x : Group) : (setGroup s g x).porter = s.porter := rfl
@[simp] theorem setGroup_blocks (s : State) (g : Nat) (x : Group) : (setGroup s g x).blocks = s.blocks := rfl
@[simp] theorem setGroup_barriers (s : State) (g : Nat) (x : Group) : (setGroup s g x).barriers = s.barriers := rfl
@[simp] theorem setGroup_kernels (s : State) (g : Nat) (x : Group) : (setGroup s g x).kernels = s.kernels := rfl
@[simp] theorem setGroup_launches (s : State) (g : Nat) (x : Group) : (setGroup s g x).launches = s.launches := rfl
@[simp] theorem setGroup_partitions (s : State) (g : Nat) (x : Group) : (setGroup s g x).partitions = s.partitions := rfl
@[simp] theorem setGroup_contexts (s : State) (g : Nat) (x : Group) : (setGroup s g x).contexts = s.contexts := rfl
@[simp] theorem setGroup_saves (s : State) (g : Nat) (x : Group) : (setGroup s g x).saves = s.saves := rfl
@[simp] theorem setGroup_tiles (s : State) (g : Nat) (x : Group) : (setGroup s g x).tiles = s.tiles := rfl
@[simp] theorem setGroup_evals (s : State) (g : Nat) (x : Group) : (setGroup s g x).evals = s.evals := rfl
@[simp] theorem setGroup_splats (s : State) (g : Nat) (x : Group) : (setGroup s g x).splats = s.splats := rfl
@[simp] theorem setGroup_frames (s : State) (g : Nat) (x : Group) : (setGroup s g x).frames = s.frames := rfl
@[simp] theorem setGroup_recs (s : State) (g : Nat) (x : Group) : (setGroup s g x).recs = s.recs := rfl
@[simp] theorem setGroup_flushes (s : State) (g : Nat) (x : Group) : (setGroup s g x).flushes = s.flushes := rfl
@[simp] theorem setGroup_cqueue (s : State) (g : Nat) (x : Group) : (setGroup s g x).cqueue = s.cqueue := rfl
@[simp] theorem setGroup_slots (s : State) (g : Nat) (x : Group) : (setGroup s g x).slots = s.slots := rfl
@[simp] theorem setGroup_insts (s : State) (g : Nat) (x : Group) : (setGroup s g x).insts = s.insts := rfl
@[simp] theorem setGroup_deliveries (s : State) (g : Nat) (x : Group) : (setGroup s g x).deliveries = s.deliveries := rfl

end Sys2Proof.Machine
end

