-- ==== Sys2Proof/Laws/Table.lean ====
section
/-! SUPPORT. The laws of sparse tables: what a key reads as after each operation, and the canonical form kept. -/

namespace Sys2Proof

variable {α : Type}

@[simp] theorem Table.look_nil (k : Nat) : Table.look ([] : Table α) k = none := rfl

theorem Table.look_cons (j : Nat) (v : α) (t : Table α) (k : Nat) :
    Table.look ((j, v) :: t) k = if j = k then some v else Table.look t k := rfl

@[simp] theorem Table.look_ins_same (t : Table α) (k : Nat) (v : α) : Table.look (Table.ins t k v) k = some v := by
  induction t with
  | nil => simp [Table.ins, Table.look]
  | cons e t ih =>
    obtain ⟨j, w⟩ := e
    simp only [Table.ins]
    split
    · simp [Table.look]
    · split
      · simp [Table.look]
      · rename_i h1 h2
        simp only [Table.look]
        rw [if_neg (Ne.symm h2), ih]

theorem Table.look_ins_other (t : Table α) {k l : Nat} (v : α) (h : k ≠ l) :
    Table.look (Table.ins t k v) l = Table.look t l := by
  induction t with
  | nil => simp [Table.ins, Table.look, h]
  | cons e t ih =>
    obtain ⟨j, w⟩ := e
    simp only [Table.ins]
    split
    · simp [Table.look, h]
    · split
      · rename_i h2
        subst h2
        simp [Table.look, h]
      · simp [Table.look, ih]

/-- What a key reads as after an entry is set. -/
theorem Table.look_ins (t : Table α) (k l : Nat) (v : α) :
    Table.look (Table.ins t k v) l = if k = l then some v else Table.look t l := by
  split
  · rename_i h; subst h; simp
  · rename_i h; exact Table.look_ins_other t v h

@[simp] theorem Table.ins_ins (t : Table α) (k : Nat) (v w : α) : Table.ins (Table.ins t k v) k w = Table.ins t k w := by
  induction t with
  | nil => simp [Table.ins]
  | cons e t ih =>
    obtain ⟨j, x⟩ := e
    simp only [Table.ins]
    split
    · simp [Table.ins]
    · split
      · simp [Table.ins]
      · rename_i h1 h2
        simp [Table.ins, h1, h2, ih]

/-- An entry changed where there is one. -/
theorem Table.upd_eq (t : Table α) {k : Nat} {v : α} (f : α → α) (h : Table.look t k = some v) :
    Table.upd t k f = Table.ins t k (f v) := by
  simp [Table.upd, h]

theorem Table.upd_absent (t : Table α) {k : Nat} (f : α → α) (h : Table.look t k = none) : Table.upd t k f = t := by
  simp [Table.upd, h]

/-- What a key reads as after an entry is changed. -/
theorem Table.look_upd (t : Table α) (k l : Nat) (f : α → α) :
    Table.look (Table.upd t k f) l = if k = l then (Table.look t l).map f else Table.look t l := by
  unfold Table.upd
  split
  · rename_i v hv
    rw [Table.look_ins]
    split
    · rename_i h; subst h; simp [hv]
    · rfl
  · rename_i hv
    split
    · rename_i h; subst h; simp [hv]
    · rfl

/-- The keys of a table in canonical form rise strictly. -/
def Table.rising (t : Table α) : Prop := (t.map (·.1)).Pairwise (· < ·)

theorem Table.look_none_of_small {t : Table α} {k : Nat} (h : ∀ e ∈ t, k < e.1) : Table.look t k = none := by
  induction t with
  | nil => rfl
  | cons e t ih =>
    obtain ⟨j, w⟩ := e
    have hj : k < j := h (j, w) (by simp)
    simp only [Table.look]
    rw [if_neg (by omega)]
    exact ih fun e he => h e (by simp [he])

theorem Table.ins_keys (t : Table α) (k : Nat) (v : α) (e : Nat × α) (h : e ∈ Table.ins t k v) :
    e = (k, v) ∨ e ∈ t := by
  induction t with
  | nil => simpa [Table.ins] using h
  | cons x t ih =>
    obtain ⟨j, w⟩ := x
    simp only [Table.ins] at h
    split at h
    · simpa using h
    · split at h
      · simp only [List.mem_cons] at h ⊢
        tauto
      · simp only [List.mem_cons] at h ⊢
        rcases h with h | h
        · tauto
        · rcases ih h with h | h <;> tauto

theorem Table.del_sub (t : Table α) (k : Nat) (e : Nat × α) (h : e ∈ Table.del t k) : e ∈ t := by
  induction t with
  | nil => simp [Table.del] at h
  | cons x t ih =>
    obtain ⟨j, w⟩ := x
    simp only [Table.del] at h
    split at h
    · simp [h]
    · simp only [List.mem_cons] at h ⊢
      rcases h with h | h
      · exact .inl h
      · exact .inr (ih h)

theorem Table.rising_cons {e : Nat × α} {t : Table α} :
    Table.rising (e :: t) ↔ (∀ x ∈ t, e.1 < x.1) ∧ Table.rising t := by
  simp [Table.rising]

theorem Table.rising_ins {t : Table α} (h : Table.rising t) (k : Nat) (v : α) : Table.rising (Table.ins t k v) := by
  induction t with
  | nil => simp [Table.ins, Table.rising]
  | cons x t ih =>
    obtain ⟨j, w⟩ := x
    obtain ⟨h1, h2⟩ := Table.rising_cons.1 h
    simp only [Table.ins]
    split
    · rename_i hk
      refine Table.rising_cons.2 ⟨?_, h⟩
      intro e he
      simp only [List.mem_cons] at he
      rcases he with rfl | he
      · exact hk
      · exact lt_trans hk (h1 e he)
    · split
      · rename_i h4 h5
        subst h5
        exact Table.rising_cons.2 ⟨h1, h2⟩
      · rename_i h4 h5
        refine Table.rising_cons.2 ⟨?_, ih h2⟩
        intro e he
        rcases Table.ins_keys t k v e he with rfl | he
        · simp only; omega
        · exact h1 e he

theorem Table.rising_del {t : Table α} (h : Table.rising t) (k : Nat) : Table.rising (Table.del t k) := by
  induction t with
  | nil => simpa [Table.del] using h
  | cons x t ih =>
    obtain ⟨j, w⟩ := x
    obtain ⟨h1, h2⟩ := Table.rising_cons.1 h
    simp only [Table.del]
    split
    · exact h2
    · exact Table.rising_cons.2 ⟨fun e he => h1 e (Table.del_sub t k e he), ih h2⟩

theorem Table.look_del_same {t : Table α} (h : Table.rising t) (k : Nat) : Table.look (Table.del t k) k = none := by
  induction t with
  | nil => rfl
  | cons x t ih =>
    obtain ⟨j, w⟩ := x
    obtain ⟨h1, h2⟩ := Table.rising_cons.1 h
    simp only [Table.del]
    split
    · rename_i hk
      subst hk
      exact Table.look_none_of_small h1
    · rename_i hk
      simp [Table.look, hk, ih h2]

theorem Table.look_del_other (t : Table α) {k l : Nat} (h : k ≠ l) : Table.look (Table.del t k) l = Table.look t l := by
  induction t with
  | nil => rfl
  | cons x t ih =>
    obtain ⟨j, w⟩ := x
    simp only [Table.del]
    split
    · rename_i hk
      subst hk
      simp [Table.look, h]
    · simp [Table.look, ih]

variable [DecidableEq α]

theorem Table.wf_iff (t : Table α) (d : α) : Table.wf t d = true ↔ Table.rising t ∧ ∀ e ∈ t, e.2 ≠ d := by
  simp [Table.wf, Table.rising]

/-- A write keeps the canonical form. -/
theorem Table.wf_wr {t : Table α} {d : α} (h : Table.wf t d = true) (k : Nat) (v : α) :
    Table.wf (Table.wr t d k v) d = true := by
  rw [Table.wf_iff] at h ⊢
  unfold Table.wr
  split
  · exact ⟨Table.rising_del h.1 k, fun e he => h.2 e (Table.del_sub t k e he)⟩
  · rename_i hv
    refine ⟨Table.rising_ins h.1 k v, fun e he => ?_⟩
    rcases Table.ins_keys t k v e he with rfl | he
    · exact hv
    · exact h.2 e he

/-- A write is read back. -/
theorem Table.rd_wr_same {t : Table α} {d : α} (h : Table.wf t d = true) (k : Nat) (v : α) :
    Table.rd (Table.wr t d k v) d k = v := by
  rw [Table.wf_iff] at h
  unfold Table.rd Table.wr
  split
  · rename_i hv
    simp [Table.look_del_same h.1 k, hv]
  · simp

/-- A write leaves every other key alone. -/
theorem Table.rd_wr_other (t : Table α) (d : α) {k l : Nat} (v : α) (h : k ≠ l) :
    Table.rd (Table.wr t d k v) d l = Table.rd t d l := by
  unfold Table.rd Table.wr
  split
  · rw [Table.look_del_other t h]
  · rw [Table.look_ins_other t v h]

/-- A filter keeps the canonical form. -/
theorem Table.wf_filter {t : Table α} {d : α} (h : Table.wf t d = true) (p : Nat × α → Bool) :
    Table.wf (t.filter p) d = true := by
  rw [Table.wf_iff] at h ⊢
  refine ⟨?_, fun e he => h.2 e (List.mem_of_mem_filter he)⟩
  exact List.Pairwise.sublist (List.Sublist.map _ List.filter_sublist) h.1

end Sys2Proof
end

