-- ==== Sys2Proof/Safety.lean ====
section
/-! DEFINITION. What counts as a safe step: one that answers a next state, from a state whose tables are in canonical
form to another such state. -/

namespace Sys2Proof.Machine

/-- A step or a meaning that goes on. -/
def Safe (o : Out) : Prop := ∃ t, o = .next t

/-- The state's memory is in its canonical form: addresses rising, nothing listed that reads as an unlisted byte. -/
def State.memoryForm (s : State) : Prop := Memory.wf s.mem = true

/-- The panel has its 36 dies, 60 boundaries, 4 host links and 8 Ethernet ports (01 R12 to R15). -/
def State.panelForm (s : State) : Prop :=
  s.dies.length = 36 ∧ s.boundaries.length = 60 ∧ s.hostLinks.length = 4 ∧ s.ethPorts.length = 8

/-! ## The terms that the statements use -/

/-- The state with the issuing fibre's group in place of the old one. -/
def Iss.put (s : State) (i : Iss) (g : Group) : State := { s with groups := Table.ins s.groups i.gid g }

/-- The issuing fibre past its word (04 R82): the next word's address, no prefix, and no clause once its clause ends. -/
def Iss.passed (i : Iss) : Fibre :=
  { i.f with
      pc := i.f.pc + 4, chain := none, branch := none
      clause := i.f.clause.filter fun c => decide (i.f.pc + 4 ≠ c.limit) }

/-- A group with the issuing fibre's record in place of the old one. -/
def Iss.withFibre (i : Iss) (g : Group) (f : Fibre) : Group := { g with fibres := Table.ins g.fibres i.fid f }

/-- The state in which the issuing fibre has passed its word and its group's other parts are those of `g`: `g` differs
from the group before in what the word writes, and nothing else of the state differs. -/
def Iss.past (s : State) (i : Iss) (g : Group) : State := i.put s (i.withFibre g i.passed)

/-- No trap follows the word by itself: no STEP trap (18 R386), since the fibre is at handler level, or STEP is 0, or no
passport grants it; and none that was raised amid its chain and takes effect at its end (04 R96). -/
def Iss.quiet (s : State) (i : Iss) : Prop :=
  ¬(i.f.handler = none ∧ i.g.dbgctl.getLsbD 0 = true ∧ debugOn s i.k.ctx 2 = true) ∧
    (i.f.midChain = true → i.f.traps = [])

/-- A group with another scoreboard. -/
def Group.withBoard (g : Group) (b : List Nat) : Group := { g with board := b }

/-- The fibre `i` is issuing a word, after no REP and with the modifiers `m`, and no trap follows the word by itself. -/
def Iss.modified (s : State) (i : Iss) (m : Mods) : Prop :=
  issuing s = some i ∧ i.quiet s ∧ repOf i.f.chain = none ∧ (∀ c, i.f.chain = some c → c.done = 0 ∧ c.upto ≠ some 0) ∧ m = modsOf i.f.chain

/-- No S register of the list waits for a token (04 R85, 11 R254). -/
def Iss.settled (i : Iss) (ks : List Nat) : Prop := ∀ k ∈ ks, Table.look i.g.tokens k = none

end Sys2Proof.Machine
end

