-- ==== Sys2Proof/Laws/Issue.lean ====
section
/-! SUPPORT. What the issuing fibre's state says, and what passing a word and writing a uniform register do. -/

namespace Sys2Proof.Machine

/-- The parts of the issuing fibre are the state's own. -/
theorem issuing_parts {s : State} {i : Iss} (h : issuing s = some i) :
    s.cur = some (i.gid, i.fid) ∧ Table.look s.groups i.gid = some i.g ∧ Table.look i.g.fibres i.fid = some i.f ∧
      Table.look s.kernels i.g.kernel = some i.k ∧ Table.look s.blocks i.g.block = some i.b := by
  unfold issuing groupAt kernelAt blockAt at h
  split at h
  · cases h
  · rename_i gid fid hc
    split at h
    · cases h
    · rename_i g hg
      split at h
      · rename_i f k b hf hk hb
        cases h
        exact ⟨hc, hg, hf, hk, hb⟩
      · cases h

/-- A word's meaning is its action on the issuing fibre. -/
theorem withIssuing_eq {s : State} {i : Iss} (h : issuing s = some i) (act : Iss → State) :
    withIssuing s act = .next (act i) := by
  simp [withIssuing, h]

theorem pendingS_settled {i : Iss} {ks : List Nat} (h : i.settled ks) : pendingS i.g ks = none := by
  unfold pendingS
  rw [List.find?_eq_none]
  intro k hk
  simp [h k hk]

/-- A uniform instruction that nothing stops runs its action (06 R131). -/
theorem uniform_eq {s : State} {i : Iss} (h : issuing s = some i) {ok : Iss → Bool} {regs : List Nat} (act : Iss → State)
    (hc : i.f.chain = none) (hok : ok i = true) (ht : i.settled regs) : uniform s ok regs act = .next (act i) := by
  simp [uniform, withIssuing_eq h, hc, hok, pendingS_settled ht]

theorem updGroup_issuing {s : State} {i : Iss} (h : issuing s = some i) (f : Group → Group) :
    updGroup s i.gid f = i.put s (f i.g) := by
  simp [updGroup, Iss.put, Table.upd_eq _ f (issuing_parts h).2.1]

theorem put_put (s : State) (i : Iss) (g h : Group) : i.put (i.put s g) h = i.put s h := by
  simp [Iss.put]

theorem updGroup_put (s : State) (i : Iss) (g : Group) (f : Group → Group) : updGroup (i.put s g) i.gid f = i.put s (f g) := by
  simp [updGroup, Iss.put, Table.upd_eq _ f (Table.look_ins_same _ _ _)]

theorem groupAt_put (s : State) (i : Iss) (g : Group) : groupAt (i.put s g) i.gid = some g := by
  simp [groupAt, Iss.put]

/-- The issuing fibre's record changed, in a state whose group is `g` and still holds the fibre. -/
theorem updFibre_put (s : State) (i : Iss) (g : Group) (x : Fibre) (hx : Table.look g.fibres i.fid = some x)
    (f : Fibre → Fibre) : updFibre (i.put s g) i.gid i.fid f = i.put s (i.withFibre g (f x)) := by
  simp [updFibre, updGroup_put, Iss.withFibre, Table.upd_eq _ f hx]

theorem updFibre_issuing {s : State} {i : Iss} (h : issuing s = some i) (f : Fibre → Fibre) :
    updFibre s i.gid i.fid f = i.put s (i.withFibre i.g (f i.f)) := by
  simp [updFibre, updGroup_issuing h, Iss.withFibre, Table.upd_eq _ f (issuing_parts h).2.2.1]

/-- No STEP trap follows where none may. -/
theorem stepTrap_quiet {s : State} {i : Iss} {t : State} (hp : t.partitions = s.partitions) (hc : t.contexts = s.contexts)
    (hq : i.quiet s) : stepTrap t i = t := by
  have hd : debugOn t i.k.ctx 2 = debugOn s i.k.ctx 2 := by simp [debugOn, ctxAt, partAt, hp, hc]
  unfold stepTrap
  rw [if_neg]
  rw [hd]
  simpa using hq.1

/-- No trap is kept for the end of a chain where none was raised amid it. -/
theorem raisePending_quiet {s : State} {i : Iss} {t : State} (hf : ∀ f, fibreAt t i.gid i.fid = some f → f.traps = i.f.traps)
    (hq : i.quiet s) : raisePending t i = t := by
  unfold raisePending
  cases h : fibreAt t i.gid i.fid with
  | none => rfl
  | some f =>
    have : (!i.f.midChain) = true ∨ f.traps = [] := by
      cases hm : i.f.midChain with
      | false => exact .inl rfl
      | true => exact .inr ((hf f h).trans (hq.2 hm))
    simp only [if_pos this]

theorem fibreAt_put (s : State) (i : Iss) (g : Group) (f : Fibre) : fibreAt (i.put s (i.withFibre g f)) i.gid i.fid = some f := by
  simp [fibreAt, groupAt_put, Iss.withFibre]

theorem moveOn_passed (i : Iss) : moveOn i.f (i.f.pc + 4) = i.passed := by
  unfold moveOn Iss.passed
  congr 1
  cases i.f.clause with
  | none => rfl
  | some c => by_cases h : i.f.pc + 4 = c.limit <;> simp [Option.filter, *]

/-- Passing a word in a state whose group is `g` (04 R82). -/
theorem finish_put {s : State} {i : Iss} (g : Group) (hg : Table.look g.fibres i.fid = some i.f) (hq : i.quiet s) :
    finish (i.put s g) i = i.past s g := by
  unfold finish
  rw [updFibre_put s i g i.f hg, moveOn_passed, raisePending_quiet (s := s) ?_ hq]
  · exact stepTrap_quiet rfl rfl hq
  · intro f h
    rw [fibreAt_put] at h
    cases h
    rfl

/-- Passing a word that writes nothing. -/
theorem finish_issuing {s : State} {i : Iss} (h : issuing s = some i) (hq : i.quiet s) : finish s i = i.past s i.g := by
  unfold finish
  rw [updFibre_issuing h, moveOn_passed, raisePending_quiet (s := s) ?_ hq]
  · exact stepTrap_quiet rfl rfl hq
  · intro f h
    rw [fibreAt_put] at h
    cases h
    rfl

/-- A uniform register written and the word passed. -/
theorem putS_eq {s : State} {i : Iss} (h : issuing s = some i) (hq : i.quiet s) (d : BitVec 6) (x : Word) :
    putS s i d x = i.past s (i.g.writeS d.toNat x) := by
  unfold putS
  rw [updGroup_issuing h]
  exact finish_put _ (issuing_parts h).2.2.1 hq

/-- A uniform pair written and the word passed. -/
theorem putPair_eq {s : State} {i : Iss} (h : issuing s = some i) (hq : i.quiet s) (d : BitVec 6) (x : DWord) :
    putPair s i d x = i.past s (i.g.writePair d.toNat x) := by
  unfold putPair
  rw [updGroup_issuing h]
  exact finish_put _ (issuing_parts h).2.2.1 hq

end Sys2Proof.Machine
end

