-- ==== Sys2Proof/Certificates/Slice0/Obligations.lean ====
section
/-! DEFINITION. The statements for the provers: what the rules of the specification say of instructions, steps, reset and
encodings. The tables below write each rule's result once; the statements say where it comes to hold. -/

namespace Sys2Proof.Machine

/-! ## Terms of the statements -/

/-- The fibre `i` is issuing a word that no prefix precedes, and no STEP trap follows the word. -/
def Iss.plain (s : State) (i : Iss) : Prop := issuing s = some i ∧ i.f.chain = none ∧ i.quiet s

/-- The issuing fibre at another clause start, its return stack being `st` (04 R82, 06 R136, R138). -/
def Iss.moved (s : State) (i : Iss) (target : DWord) (st : List DWord) : State :=
  i.put s (i.withFibre i.g
    { i.f with pc := target, chain := none, clause := none, branch := some i.f.pc, stack := st })

/-- The register numbers of some fields. -/
def fieldNums (ds : List (BitVec 6)) : List Nat := ds.map BitVec.toNat

/-! ## Uniform results (06 R132 to R135, R145) -/

/-- Whether condition code `c` holds of two words (05 R116): EQ, NE, LT, LE, GT, GE. -/
def scalarCondition (uns : Bool) (c : Nat) (x y : Word) : Bool :=
  match c with
  | 0 => decide (x = y)
  | 1 => decide (x ≠ y)
  | 2 => if uns then x.ult y else x.slt y
  | 3 => if uns then x.ule y else x.sle y
  | 4 => if uns then y.ult x else y.slt x
  | _ => if uns then y.ule x else y.sle x

/-- The number of one bits of a word. -/
def onesOf (x : Word) : Word := BitVec.ofNat 32 ((List.range 32).countP fun j => x.getLsbD j)

/-- The number of zero bits above a word's highest one bit. -/
def leadingZeros (x : Word) : Word := BitVec.ofNat 32 ((List.range 32).countP fun j => decide (x.toNat < 2 ^ j))

/-- The scalar results of R132 and R133: the registers the word names, its destination, and the value it writes there. -/
def scalarValue (i : Iss) (w : Instr) : Option (List (BitVec 6) × BitVec 6 × Word) :=
  let r (k : BitVec 6) : Word := i.g.readS k.toNat
  match w with
  | .sadd d a b => some ([d, a, b], d, r a + r b)
  | .ssub d a b => some ([d, a, b], d, r a - r b)
  | .smul d a b => some ([d, a, b], d, r a * r b)
  | .smulh d a b u => some ([d, a, b], d,
      if u = 1 then ((r a).zeroExtend 64 * (r b).zeroExtend 64).extractLsb' 32 32
      else ((r a).signExtend 64 * (r b).signExtend 64).extractLsb' 32 32)
  | .sand d a b => some ([d, a, b], d, r a &&& r b)
  | .sor d a b => some ([d, a, b], d, r a ||| r b)
  | .sxor d a b => some ([d, a, b], d, r a ^^^ r b)
  | .sshl d a b => some ([d, a, b], d, if 32 ≤ (r b).toNat then 0 else r a <<< (r b).toNat)
  | .sshlImm d a n => some ([d, a], d, r a <<< n.toNat)
  | .sshr d a b => some ([d, a, b], d, if 32 ≤ (r b).toNat then 0 else r a >>> (r b).toNat)
  | .sshrImm d a n => some ([d, a], d, r a >>> n.toNat)
  | .ssar d a b => some ([d, a, b], d, (r a).sshiftRight (min (r b).toNat 32))
  | .ssarImm d a n => some ([d, a], d, (r a).sshiftRight n.toNat)
  | .smin d a b u => some ([d, a, b], d, if scalarCondition (u = 1) 3 (r a) (r b) then r a else r b)
  | .smax d a b u => some ([d, a, b], d, if scalarCondition (u = 1) 5 (r a) (r b) then r a else r b)
  | .scmp d a b u c =>
    if c.toNat ≤ 5 then some ([d, a, b], d, if scalarCondition (u = 1) c.toNat (r a) (r b) then 1 else 0) else none
  | .ssel d a b c => some ([d, a, b, c], d, if r c = 0 then r b else r a)
  | .spopc d a => some ([d, a], d, onesOf (r a))
  | .sclz d a => some ([d, a], d, leadingZeros (r a))
  | .smov d a => some ([d, a], d, r a)
  | .smovi d x => some ([d], d, x.signExtend 32)
  | .smovh d x => some ([d], d, x ++ (r d).extractLsb' 0 16)
  | .saddi d x => some ([d], d, r d + x.signExtend 32)
  | _ => none

/-- The 64-bit results of R132, R134 and R145: the even registers that the word names, its destination pair, the value. -/
def pairValue (s : State) (i : Iss) (w : Instr) : Option (List (BitVec 6) × BitVec 6 × DWord) :=
  match w with
  | .sadd64 d a b => some ([d, a, b], d, i.g.readPair a.toNat + i.g.readPair b.toNat)
  | .sballotToS d p => some ([d], d, i.g.readP i.f.p0 p.toNat &&& i.f.p0)
  | .rdtime d => some ([d], d, BitVec.ofNat 64 (gtOf s i.g.die))
  | _ => none

/-- The predicate results of R134: the even registers that the word names, its destination, the value before it is
restricted to the fibre's lanes. -/
def predicateValue (i : Iss) (w : Instr) : Option (List (BitVec 6) × BitVec 3 × Mask) :=
  let p (n : BitVec 3) : Mask := i.g.readP i.f.p0 n.toNat
  match w with
  | .sballot d a => some ([a], d, i.g.readPair a.toNat)
  | .pand d a b => some ([], d, p a &&& p b)
  | .por d a b => some ([], d, p a ||| p b)
  | .pxor d a b => some ([], d, p a ^^^ p b)
  | .pnot d a => some ([], d, ~~~p a)
  | _ => none

/-- The words whose fields the rules call illegal where they issue (02 R31, R40; 06 R132, R134, R135, R138). -/
def badUniformFields (i : Iss) (w : Instr) : Bool :=
  let odd (k : BitVec 6) : Bool := decide (k.toNat % 2 = 1)
  match w with
  | .scmp _ _ _ _ c => decide (5 < c.toNat)
  | .sadd64 d a b => odd d || odd a || odd b
  | .sballotToS d _ => odd d
  | .rdtime d => odd d
  | .sballot d a => decide (d = 0) || odd a
  | .pand d _ _ => decide (d = 0)
  | .por d _ _ => decide (d = 0)
  | .pxor d _ _ => decide (d = 0)
  | .pnot d _ => decide (d = 0)
  | .rdlane _ _ v => match v with | .v k => decide (i.g.window ≤ k.val) | .o _ => false | _ => true
  | .wrlane _ _ v => match v with | .v k => decide (i.g.window ≤ k.val) | .o _ => false | _ => true
  | .call _ => decide (16 ≤ i.f.stack.length)
  | .ret => decide (i.f.stack = [] ∧ i.f.handler = none)
  | _ => false

/-- A register that RDLANE or WRLANE may name, with no write to it in flight (06 R135; 04 R85). -/
def laneRegReady (g : Group) (v : LReg) : Prop :=
  match v with
  | .v k => k.val < g.window ∧ k.val ∉ g.board
  | .o k => 192 + k.val ∉ g.board
  | _ => False

/-- Where a branch word moves the whole fibre, and the return stack it then has; `none` where it falls through or divides
(04 R88; 06 R136 to R138). -/
def branchTo (i : Iss) (w : Instr) : Option (Option (DWord × List DWord)) :=
  let at_ {n : Nat} (o : BitVec n) : DWord := i.f.pc + 4 * o.signExtend 64
  let go (c : Bool) (t : DWord) : Option (Option (DWord × List DWord)) := some (if c then some (t, i.f.stack) else none)
  match w with
  | .bra o => go true (at_ o)
  | .brc r n o =>
    let x := i.g.readS r.toNat
    go (match n.toNat with | 0 => decide (x = 0) | 1 => decide (x ≠ 0) | 2 => x.slt 0 | _ => !x.slt 0) (at_ o)
  | .brp p n o =>
    let taken := i.g.readP i.f.p0 p.toNat &&& i.f.p0
    let rest := i.f.p0 &&& ~~~(i.g.readP i.f.p0 p.toNat)
    match n.toNat with
    | 0 => if rest = 0 then go true (at_ o) else if taken = 0 then go false 0 else none
    | 1 => go (taken ≠ 0) (at_ o)
    | 2 => go (rest = 0) (at_ o)
    | _ => go (taken = 0) (at_ o)
  | .call o => if i.f.stack.length < 16 then some (some (at_ o, (i.f.pc + 4) :: i.f.stack)) else none
  | .ret =>
    if i.f.handler = some i.f.stack.length then none
    else match i.f.stack with | a :: rest => some (some (a, rest)) | [] => none
  | _ => none

end Sys2Proof.Machine

open Sys2Proof Sys2Proof.Machine

/-- 06 R132, R133: a scalar word writes SD the value its row gives, the fibre passes the word, and nothing else of the
state changes. 06 R132 (SADD64), R134 (SBALLOT to S), R145 (RDTIME): a pair result over even registers. 06 R134: a
predicate word writes the bits of the lanes in the issuing fibre's P0 alone. 06 R135: RDLANE reads a lane of a quad that
the fibre holds, and any other lane index reads 0. 06 R135: WRLANE writes a lane of the fibre's own P0, and any other
lane index writes nothing. -/
def Obligations.UniformWordsWriteTheirResults : Prop :=
  (∀ (s : State) (i : Iss) (w : Instr) (rs : List (BitVec 6)) (d : BitVec 6) (x : Word),
      i.plain s → scalarValue i w = some (rs, d, x) → i.settled (fieldNums rs) →
        exec w s = .next (i.past s (i.g.writeS d.toNat x))) ∧
  (∀ (s : State) (i : Iss) (w : Instr) (rs : List (BitVec 6)) (d : BitVec 6) (x : DWord),
      i.plain s → pairValue s i w = some (rs, d, x) → (∀ k ∈ rs, k.toNat % 2 = 0) →
        i.settled (fieldNums rs ++ (fieldNums rs).map (· + 1)) →
        exec w s = .next (i.past s (i.g.writePair d.toNat x))) ∧
  (∀ (s : State) (i : Iss) (w : Instr) (rs : List (BitVec 6)) (d : BitVec 3) (x : Mask),
      i.plain s → predicateValue i w = some (rs, d, x) → d ≠ 0 → (∀ k ∈ rs, k.toNat % 2 = 0) →
        i.settled (fieldNums rs ++ (fieldNums rs).map (· + 1)) →
        exec w s = .next (i.past s
          { i.g with p := Table.wr i.g.p 0 d.toNat ((Table.rd i.g.p 0 d.toNat &&& ~~~i.f.p0) ||| (x &&& i.f.p0)) })) ∧
  (∀ (s : State) (i : Iss) (d a : BitVec 6) (v : LReg),
      i.plain s → laneRegReady i.g v → i.settled (fieldNums [d, a]) →
        exec (.rdlane d a v) s = .next (i.past s (i.g.writeS d.toNat
          (if (i.g.readS a.toNat).toNat < i.g.width ∧ (i.g.held i.f.p0).getLsbD (i.g.readS a.toNat).toNat = true
            then readReg i.g i.f v (i.g.readS a.toNat).toNat else 0)))) ∧
  (∀ (s : State) (i : Iss) (d a : BitVec 6) (v : LReg),
      i.plain s → laneRegReady i.g v → i.settled (fieldNums [d, a]) →
        exec (.wrlane d a v) s = .next (i.past s
          (if (i.g.readS a.toNat).toNat < i.g.width ∧ i.f.p0.getLsbD (i.g.readS a.toNat).toNat = true
            then writeReg i.g v (i.g.readS a.toNat).toNat (i.g.readS d.toNat) else i.g)))

/-- 04 R88; 06 R136 to R138: a branch that does not divide moves the whole fibre to its target, or falls through. -/
def Obligations.BranchMovesTheWholeFibre : Prop :=
  ∀ (s : State) (i : Iss) (w : Instr) (t : Option (DWord × List DWord)),
    i.plain s → branchTo i w = some t → (∀ r n o, w = .brc r n o → i.settled [r.toNat]) →
      exec w s = .next (match t with | some (a, st) => i.moved s a st | none => i.past s i.g)

namespace Sys2Proof.Machine

/-! ## Short-latency lane words (05 R108 to R125) -/

/-- What a lane word's row says under modifiers: its destination and its sources A, B and C with how each is used, and its
result in a lane, as one number over the destination's registers, from the numbers that its sources hold. -/
structure LaneRow where
  d : LReg
  du : Use
  a : LReg
  au : Use
  b : LReg
  bu : Use
  cu : Use
  val : Nat → Nat → Nat → Nat

/-- A result of 32 bits from 32-bit sources. -/
def onWords (f : Word → Word → Word → Word) (a b c : Nat) : Nat :=
  (f (BitVec.ofNat 32 a) (BitVec.ofNat 32 b) (BitVec.ofNat 32 c)).toNat

/-- The modifiers that every short-latency word accepts: a rounding mode of R59, no ordering, no flag B (04 R91 to R93). -/
def Mods.common (m : Mods) : Bool := decide (m.rnd ≤ 5 ∧ m.ord = 0) && !m.fb

/-- A row over registers D, A and B, whose B a PFXI may supply, sign-extended to `w` bits, where its field holds 0x00
(04 R94). -/
def Mods.rowB (m : Mods) (w : Nat) (d : LReg) (du : Use) (a b : LReg) (au bu cu : Use) (f : Nat → Nat → Nat → Nat) :
    Option LaneRow :=
  match m.imm with
  | none => some { d, du, a, au, b, bu, cu, val := f }
  | some y =>
    if b = .v 0 then some { d, du, a, au, b, bu := .imm, cu, val := fun x _ z => f x (y.signExtend w).toNat z } else none

/-- A row over D and A, which takes no PFXI. -/
def Mods.rowA (m : Mods) (d : LReg) (du : Use) (a : LReg) (au : Use) (f : Nat → Nat) : Option LaneRow :=
  if m.imm.isSome then none
  else some { d, du, a, au, b := .zero, bu := .unused, cu := .unused, val := fun x _ _ => f x }

/-- A row over D and A with the immediate `n` in place of B. -/
def rowImm (d : LReg) (du : Use) (a : LReg) (au : Use) (n : Nat) (f : Nat → Nat → Nat) : Option LaneRow :=
  some { d, du, a, au, b := .zero, bu := .imm, cu := .unused, val := fun x _ _ => f x n }

/-- A number of an integer TYPE (05 R112). -/
def typeInt (ty v : Nat) : Int :=
  match ty with
  | 7 => (BitVec.ofNat 32 v).toNat
  | 12 => (BitVec.ofNat 64 v).toInt
  | 13 => (BitVec.ofNat 64 v).toNat
  | _ => (BitVec.ofNat 32 v).toInt

/-- An exact result stored under an integer TYPE: clamped to its range under SAT, then wrapped (05 R112). -/
def typeStore (ty : Nat) (sat : Bool) (x : Int) : Nat :=
  let fit (lo hi : Int) : Int := if sat then max lo (min x hi) else x
  match ty with
  | 7 => (BitVec.ofInt 32 (fit 0 (2 ^ 32 - 1))).toNat
  | 12 => (BitVec.ofInt 64 (fit (-2 ^ 63) (2 ^ 63 - 1))).toNat
  | 13 => (BitVec.ofInt 64 (fit 0 (2 ^ 64 - 1))).toNat
  | _ => (BitVec.ofInt 32 (fit (-2 ^ 31) (2 ^ 31 - 1))).toNat

/-- A row of R111 over registers: an exact result over operands read per TYPE, an immediate always as signed. -/
def Mods.arithRow (m : Mods) (wide : Bool) (d a b : LReg) (cu : Use) (op : Int → Int → Int → Int) : Option LaneRow :=
  let big := decide (m.ty = 12 ∨ m.ty = 13)
  if m.ty = 0 ∨ m.ty = 6 ∨ m.ty = 7 ∨ (wide ∧ big) then
    m.rowB (if big then 64 else 32) d (if big then .dstPair else .dst) a b (if big then .srcPair else .src)
      (if big then .srcPair else .src) cu fun x y z =>
        let immediate := if big then (BitVec.ofNat 64 y).toInt else (BitVec.ofNat 32 y).toInt
        typeStore m.ty m.sat (op (typeInt m.ty x) (if m.imm.isSome then immediate else typeInt m.ty y) (typeInt m.ty z))
  else none

/-- A row of R114 or R118: 32 bits, TYPE 0, no SAT. -/
def Mods.wordRow (m : Mods) (d a b : LReg) (cu : Use) (f : Word → Word → Word → Word) : Option LaneRow :=
  if m.ty = 0 ∧ !m.sat then m.rowB 32 d .dst a b .src .src cu (onWords f) else none

/-- The same over A alone. -/
def Mods.wordRow1 (m : Mods) (d a : LReg) (f : Word → Word) : Option LaneRow :=
  if m.ty = 0 ∧ !m.sat then m.rowA d .dst a .src fun x => (f (BitVec.ofNat 32 x)).toNat else none

/-- The 32-bit immediate of an LI word, which a PFXI replaces where the word's own is 0 (04 R87, R94). -/
def Mods.immediate (m : Mods) (signed : Bool) (x : BitVec 8) : Option Word :=
  match m.imm with
  | none => some (if signed then x.signExtend 32 else x.zeroExtend 32)
  | some y => if x = 0 then some (if signed then y.signExtend 32 else y.zeroExtend 32) else none

/-- The shift count of an LI word (04 R87, R94). -/
def Mods.shiftCount (m : Mods) (x : BitVec 5) : Option Nat :=
  match m.imm with | none => some x.toNat | some y => if x = 0 ∧ y.toNat < 32 then some y.toNat else none

/-- The bits below position `n` of a word. -/
def lowOnes (n : Nat) : Word := BitVec.ofNat 32 (2 ^ n - 1)

/-- The integer and logic rows (05 R111 to R115, R118). -/
def integerRow (m : Mods) (w : Instr) : Option LaneRow :=
  if !m.common then none else
  match w with
  | .iadd d a b => m.arithRow true d a b .unused fun x y _ => x + y
  | .isub d a b => m.arithRow true d a b .unused fun x y _ => x - y
  | .imul d a b => m.arithRow false d a b .unused fun x y _ => x * y
  | .imad d a b => m.arithRow false d a b .src fun x y z => x * y + z
  | .iaddi d a x =>
    let big := decide (m.ty = 12 ∨ m.ty = 13)
    if m.ty = 0 ∨ m.ty = 6 ∨ m.ty = 7 ∨ big then
      (m.immediate true x).bind fun n =>
        rowImm d (if big then .dstPair else .dst) a (if big then .srcPair else .src) 0 fun v _ =>
          typeStore m.ty m.sat (typeInt m.ty v + n.toInt)
    else none
  | .imulh d a b => m.wordRow d a b .unused fun x y _ => (x.signExtend 64 * y.signExtend 64).extractLsb' 32 32
  | .umulh d a b => m.wordRow d a b .unused fun x y _ => (x.zeroExtend 64 * y.zeroExtend 64).extractLsb' 32 32
  | .imin d a b => m.wordRow d a b .unused fun x y _ => if x.sle y then x else y
  | .imax d a b => m.wordRow d a b .unused fun x y _ => if y.sle x then x else y
  | .umin d a b => m.wordRow d a b .unused fun x y _ => if x.ule y then x else y
  | .umax d a b => m.wordRow d a b .unused fun x y _ => if y.ule x then x else y
  | .and d a b => m.wordRow d a b .unused fun x y _ => x &&& y
  | .or d a b => m.wordRow d a b .unused fun x y _ => x ||| y
  | .xor d a b => m.wordRow d a b .unused fun x y _ => x ^^^ y
  | .andn d a b => m.wordRow d a b .unused fun x y _ => x &&& ~~~y
  | .shl d a b => m.wordRow d a b .unused fun x y _ => if 32 ≤ y.toNat then 0 else x <<< y.toNat
  | .shr d a b => m.wordRow d a b .unused fun x y _ => if 32 ≤ y.toNat then 0 else x >>> y.toNat
  | .sar d a b => m.wordRow d a b .unused fun x y _ => x.sshiftRight (min y.toNat 32)
  | .rol d a b => m.wordRow d a b .unused fun x y _ => x.rotateLeft (y.toNat % 32)
  | .popc d a => m.wordRow1 d a onesOf
  | .clz d a => m.wordRow1 d a leadingZeros
  | .brev d a => m.wordRow1 d a BitVec.reverse
  | .bfx d a b =>
    if (m.ty = 0 ∨ m.ty = 6 ∨ m.ty = 7) ∧ !m.sat then
      m.rowB 32 d .dst a b .src .src .unused (onWords fun x y _ =>
        let n := min (y.extractLsb' 8 6).toNat (32 - (y.extractLsb' 0 5).toNat)
        let f := (x >>> (y.extractLsb' 0 5).toNat) &&& lowOnes n
        if n = 0 then 0 else if m.ty = 6 then (f <<< (32 - n)).sshiftRight (32 - n) else f)
    else none
  | .bfi d a b => m.wordRow d a b .src fun x y z =>
      let pos := (y.extractLsb' 0 5).toNat
      let field := lowOnes (min (y.extractLsb' 8 6).toNat (32 - pos)) <<< pos
      (z &&& ~~~field) ||| ((x <<< pos) &&& field)
  | .sel d a b => m.wordRow d a b .src fun x y z => if z = 0 then y else x
  | .mov d a =>
    if (m.ty = 0 ∨ m.ty = 12) ∧ !m.sat then
      m.rowA d (if m.ty = 12 then .dstPair else .dst) a (if m.ty = 12 then .srcPair else .src) fun x => x
    else none
  | .andi d a x => if m.ty = 0 ∧ !m.sat then (m.immediate false x).bind fun n =>
      rowImm d .dst a .src n.toNat fun v k => (BitVec.ofNat 32 v &&& BitVec.ofNat 32 k).toNat else none
  | .ori d a x => if m.ty = 0 ∧ !m.sat then (m.immediate false x).bind fun n =>
      rowImm d .dst a .src n.toNat fun v k => (BitVec.ofNat 32 v ||| BitVec.ofNat 32 k).toNat else none
  | .xori d a x => if m.ty = 0 ∧ !m.sat then (m.immediate false x).bind fun n =>
      rowImm d .dst a .src n.toNat fun v k => (BitVec.ofNat 32 v ^^^ BitVec.ofNat 32 k).toNat else none
  | .shli d a x => if m.ty = 0 ∧ !m.sat then (m.shiftCount x).bind fun n =>
      rowImm d .dst a .src n fun v k => (BitVec.ofNat 32 v <<< k).toNat else none
  | .shri d a x => if m.ty = 0 ∧ !m.sat then (m.shiftCount x).bind fun n =>
      rowImm d .dst a .src n fun v k => (BitVec.ofNat 32 v >>> k).toNat else none
  | .sari d a x => if m.ty = 0 ∧ !m.sat then (m.shiftCount x).bind fun n =>
      rowImm d .dst a .src n fun v k => ((BitVec.ofNat 32 v).sshiftRight k).toNat else none
  | .movi d x =>
    if m.ty = 0 ∧ !m.sat then
      match m.imm with
      | none => some { d, du := .dst, a := .zero, au := .imm, b := .zero, bu := .imm, cu := .unused,
                       val := fun _ _ _ => (x.signExtend 32 : Word).toNat }
      | some y => if y.toNat < 65536 then
          some { d, du := .dst, a := .zero, au := .imm, b := .zero, bu := .imm, cu := .unused,
                 val := fun _ _ _ => (y.extractLsb' 0 16 ++ x : Word).toNat } else none
    else none
  | _ => none

/-- A float row: TYPE 0 or 1, the exact value rounded once to FP32 under RND and SAT (05 R119, R122). -/
def Mods.floatRow (m : Mods) (d a b : LReg) (cu : Use) (f : Ext → Ext → Ext → Ext) : Option LaneRow :=
  if m.ty ≤ 1 then
    m.rowB 32 d .dst a b .src .src cu fun x y z =>
      roundTo .fp32 m.rnd m.sat 0 (f (Fmt.fp32.value x) (Fmt.fp32.value y) (Fmt.fp32.value z)) % 2 ^ 32
  else none

/-- A special function's row (05 R122). -/
def Mods.specialRow (m : Mods) (d a : LReg) (fn : SpecialFn) : Option LaneRow :=
  if m.ty ≤ 1 then m.rowA d .dst a .src fun x => specialResult fn m.rnd m.sat 0 x else none

/-- The FP32 rows (05 R119 to R122), under every rounding mode but the stochastic one. -/
def floatRowOf (m : Mods) (w : Instr) : Option LaneRow :=
  if !m.common ∨ m.rnd = 5 then none else
  match w with
  | .fadd d a b => m.floatRow d a b .unused fun x y _ => Ext.add (m.rnd = 3) x y
  | .fsub d a b => m.floatRow d a b .unused fun x y _ => Ext.add (m.rnd = 3) x y.negate
  | .fmul d a b => m.floatRow d a b .unused fun x y _ => Ext.mul x y
  | .ffma d a b => m.floatRow d a b .src fun x y z => Ext.add (m.rnd = 3) (Ext.mul x y) z
  | .fmin d a b => if m.ty ≤ 1 ∧ !m.sat then m.rowB 32 d .dst a b .src .src .unused fun x y _ => minMax .fp32 false x y else none
  | .fmax d a b => if m.ty ≤ 1 ∧ !m.sat then m.rowB 32 d .dst a b .src .src .unused fun x y _ => minMax .fp32 true x y else none
  | .fclass d a => if m.ty ≤ 1 ∧ !m.sat then m.rowA d .dst a .src classMask else none
  | .frnd d a => if m.ty ≤ 1 then m.rowA d .dst a .src fun x => frndResult m.rnd m.sat 0 x else none
  | .frcp d a => m.specialRow d a .rcp
  | .frsq d a => m.specialRow d a .rsq
  | .fsqrt d a => m.specialRow d a .sqrt
  | .fexp2 d a => m.specialRow d a .exp2
  | .flog2 d a => m.specialRow d a .log2
  | .fsin d a => m.specialRow d a .sin
  | .fcos d a => m.specialRow d a .cos
  | .ftanh d a => m.specialRow d a .tanh
  | _ => none

/-- A packed-half row: each element from the elements at its place, rounded to the half format of TYPE (05 R123). -/
def Mods.halfRow (m : Mods) (d a b : LReg) (cu : Use) (f : Ext → Ext → Ext → Ext) : Option LaneRow :=
  if m.ty = 0 ∨ m.ty = 2 ∨ m.ty = 3 then
    let t : Fmt := if m.ty = 3 then .bf16 else .fp16
    let e (x j : Nat) : Ext := t.value (x / 65536 ^ j % 65536)
    m.rowB 32 d .dst a b .src .src cu fun x y z =>
      let r (j : Nat) : Nat := roundTo t m.rnd m.sat 0 (f (e x j) (e y j) (e z j))
      r 0 + 65536 * r 1
  else none

/-- A packed minimum or maximum (05 R123). -/
def Mods.halfPick (m : Mods) (d a b : LReg) (wantMax : Bool) : Option LaneRow :=
  if (m.ty = 0 ∨ m.ty = 2 ∨ m.ty = 3) ∧ !m.sat then
    let t : Fmt := if m.ty = 3 then .bf16 else .fp16
    let e (x j : Nat) : Nat := x / 65536 ^ j % 65536
    m.rowB 32 d .dst a b .src .src .unused fun x y _ =>
      minMax t wantMax (e x 0) (e y 0) + 65536 * minMax t wantMax (e x 1) (e y 1)
  else none

/-- The packed, dot-product and conversion rows (05 R123 to R125), under every rounding mode but the stochastic one. -/
def packedRow (m : Mods) (w : Instr) : Option LaneRow :=
  if !m.common ∨ m.rnd = 5 then none else
  let half : Fmt := if m.ty = 3 then .bf16 else .fp16
  let isHalf := decide (m.ty = 0 ∨ m.ty = 2 ∨ m.ty = 3)
  let isByte := decide (m.ty = 8 ∨ m.ty = 9)
  let fp8 : Fmt := if m.ty = 5 then .e5m2 else .e4m3
  match w with
  | .hadd2 d a b => m.halfRow d a b .unused fun x y _ => Ext.add (m.rnd = 3) x y
  | .hmul2 d a b => m.halfRow d a b .unused fun x y _ => Ext.mul x y
  | .hfma2 d a b => m.halfRow d a b .src fun x y z => Ext.add (m.rnd = 3) (Ext.mul x y) z
  | .hmin2 d a b => m.halfPick d a b false
  | .hmax2 d a b => m.halfPick d a b true
  | .dot4 d a b =>
    if m.ty = 0 ∨ isByte then
      m.rowB 32 d .dst a b .src .src .src fun x y z =>
        let e (v j : Nat) : Int := if m.ty = 9 then (BitVec.ofNat 8 (v / 256 ^ j)).toNat else (BitVec.ofNat 8 (v / 256 ^ j)).toInt
        typeStore (if m.ty = 9 then 7 else 6) m.sat
          (typeInt (if m.ty = 9 then 7 else 6) z + (e x 0 * e y 0 + e x 1 * e y 1 + e x 2 * e y 2 + e x 3 * e y 3))
    else none
  | .fdot2 d a b =>
    if isHalf then
      let e (x j : Nat) : Ext := half.value (x / 65536 ^ j % 65536)
      m.rowB 32 d .dst a b .src .src .src fun x y z =>
        roundTo .fp32 m.rnd m.sat 0
          (dot2Sum (m.rnd = 3) (Ext.mul (e x 0) (e y 0)) (Ext.mul (e x 1) (e y 1)) (Fmt.fp32.value z))
    else none
  | .cvtif d a =>
    if (m.ty = 0 ∨ m.ty = 6 ∨ m.ty = 7 ∨ isByte) ∧ !m.sat then
      m.rowA d .dst a .src fun x =>
        let v : Int := match m.ty with
          | 7 => (BitVec.ofNat 32 x).toNat
          | 8 => (BitVec.ofNat 8 x).toInt
          | 9 => (BitVec.ofNat 8 x).toNat
          | _ => (BitVec.ofNat 32 x).toInt
        roundTo .fp32 m.rnd false 0 (Ext.ofInt v)
    else none
  | .cvtfi d a =>
    if m.ty = 0 ∨ m.ty = 6 ∨ m.ty = 7 ∨ isByte then
      m.rowA d .dst a .src fun x =>
        let clampTo (lo hi : Int) : Nat := (BitVec.ofInt 32 (toInteger m.rnd 0 lo hi (Fmt.fp32.value x))).toNat
        match m.ty with
        | 7 => clampTo 0 (2 ^ 32 - 1)
        | 8 => clampTo (-128) 127
        | 9 => clampTo 0 255
        | _ => clampTo (-2 ^ 31) (2 ^ 31 - 1)
    else none
  | .cvtfh d a b =>
    if isHalf then
      m.rowB 32 d .dst a b .src .src .unused fun x y _ =>
        roundTo half m.rnd m.sat 0 (Fmt.fp32.value x) + 65536 * roundTo half m.rnd m.sat 0 (Fmt.fp32.value y)
    else none
  | .cvthf d a =>
    if isHalf ∧ !m.sat then
      m.rowA d (.vo 2) a .src fun x =>
        let r (j : Nat) : Nat := roundTo .fp32 0 false 0 (half.value (x / 65536 ^ j % 65536))
        r 0 + 2 ^ 32 * r 1
    else none
  | .cvt8p d a =>
    if m.ty = 0 ∨ m.ty = 4 ∨ m.ty = 5 ∨ isByte then
      m.rowA d .dst a (.vo 4) fun x =>
        let r (j : Nat) : Nat :=
          let v := x / 2 ^ (32 * j) % 2 ^ 32
          match m.ty with
          | 8 => (BitVec.ofInt 8 (if m.sat then max (-128) (min (BitVec.ofNat 32 v).toInt 127) else v)).toNat
          | 9 => (BitVec.ofInt 8 (if m.sat then max 0 (min (BitVec.ofNat 32 v).toInt 255) else v)).toNat
          | _ => roundTo fp8 m.rnd m.sat 0 (Fmt.fp32.value v)
        r 0 + 256 * r 1 + 256 ^ 2 * r 2 + 256 ^ 3 * r 3
    else none
  | .cvt8u d a =>
    if (m.ty = 0 ∨ m.ty = 4 ∨ m.ty = 5 ∨ isByte) ∧ !m.sat then
      m.rowA d (.vo 4) a .src fun x =>
        let r (j : Nat) : Nat :=
          let v := x / 256 ^ j % 256
          match m.ty with
          | 8 => ((BitVec.ofNat 8 v).signExtend 32 : Word).toNat
          | 9 => v
          | _ => roundTo .fp32 0 false 0 (fp8.value v)
        r 0 + 2 ^ 32 * r 1 + 2 ^ 64 * r 2 + 2 ^ 96 * r 3
    else none
  | _ => none

/-- The fields of a row are ones that their uses admit, none names a queue, no write to them is in flight and no token is
awaited in them (02 R35 to R37; 04 R85). -/
def LaneRow.ready (r : LaneRow) (i : Iss) (m : Mods) : Prop :=
  let fs := [(r.du, r.d), (r.au, r.a), (r.bu, r.b), (r.cu, m.c)]
  (∀ x ∈ fs, useOk i.g.window x.1 x.2 = true ∧ isQueue x.2 = false) ∧ onBoard i.g fs = false ∧
    pendingS i.g (sCodes fs) = none

/-- The lanes' results of a row: the fibre's lanes that the mask selects, ascending. -/
def LaneRow.results (r : LaneRow) (i : Iss) (m : Mods) : List (Nat × Nat) :=
  (Mask.lanes (i.f.p0 &&& i.g.readP i.f.p0 m.msel)).map fun l =>
    (l, r.val (readWide i.g i.f r.a l r.au.count) (readWide i.g i.f r.b l r.bu.count) (readWide i.g i.f m.c l r.cu.count))

/-- The group after a row: the results in D, zeros in the fibre's other lanes where MZ is 1 (00 R10), D on the
scoreboard. -/
def LaneRow.group (r : LaneRow) (i : Iss) (m : Mods) : Group :=
  let off := if m.mz then i.f.p0 &&& ~~~(i.f.p0 &&& i.g.readP i.f.p0 m.msel) else 0
  (writeResults i.g r.d r.du.count (r.results i m) (Mask.lanes off)).withBoard (i.g.board ++ boardCodes r.du r.d)

/-- The state after a row: the group's registers, one last-result entry for each register written (02 R39), the word
passed, and nothing else. -/
def LaneRow.after (r : LaneRow) (s : State) (i : Iss) (m : Mods) : State :=
  let g := r.group i m
  i.put s (i.withFibre g { i.passed with last := (pushResults g r.d r.du.count (r.results i m) i.f).last })

/-- Whether a compare's condition holds (05 R116). -/
def compares (w : Instr) : Option (BitVec 5 × BitVec 3 × LReg × LReg × (Word → Word → Bool)) :=
  match w with
  | .icmp c p a b => if c.toNat ≤ 5 then some (c, p, a, b, scalarCondition false c.toNat) else none
  | .ucmp c p a b => if c.toNat ≤ 5 then some (c, p, a, b, scalarCondition true c.toNat) else none
  | .fcmp c p a b =>
    if c.toNat ≤ 7 then some (c, p, a, b, fun x y =>
      let o := Ext.cmp (Fmt.fp32.value x.toNat) (Fmt.fp32.value y.toNat)
      match c.toNat with
      | 0 => decide (o = some .eq)
      | 1 => decide (o ≠ some .eq)
      | 2 => decide (o = some .lt)
      | 3 => decide (o = some .lt ∨ o = some .eq)
      | 4 => decide (o = some .gt)
      | 5 => decide (o = some .gt ∨ o = some .eq)
      | 6 => o.isSome
      | _ => o.isNone) else none
  | _ => none

end Sys2Proof.Machine

/-- 05 R111 to R115, R118: an integer, logic or move word writes its row's result in each active lane, under every mask,
TYPE, SAT, C operand and immediate that it accepts; profiling is off. That ZERO may stand for a 64-bit D or A is the
model's reading (log entry 24). -/
def Obligations.IntegerLaneWordWritesItsResult : Prop :=
  ∀ (s : State) (i : Iss) (m : Mods) (w : Instr) (r : LaneRow),
    i.modified s m → integerRow m w = some r → r.ready i m →
      exec w s = .next (r.after s i m)

/-- 05 R119 to R122: an FP32 word rounds its exact result once. 05 R123 to R125: packed halves, dot products and
conversions. A rounding that is not decided is a free value (log entry 5). -/
def Obligations.FloatLaneWordsWriteTheirResults : Prop :=
  (∀ (s : State) (i : Iss) (m : Mods) (w : Instr) (r : LaneRow),
      i.modified s m → floatRowOf m w = some r → r.ready i m →
        exec w s = .next (r.after s i m)) ∧
  (∀ (s : State) (i : Iss) (m : Mods) (w : Instr) (r : LaneRow),
      i.modified s m → packedRow m w = some r → r.ready i m →
        exec w s = .next (r.after s i m))

/-- 05 R116, R117: a compare sets bit l of Pn to the condition in each active lane, clears the fibre's other lanes where
MZ is 1, leaves every other lane's bit, and writes no last-result entry. -/
def Obligations.CompareWordWritesItsPredicate : Prop :=
  ∀ (s : State) (i : Iss) (m : Mods) (w : Instr) (c : BitVec 5) (p : BitVec 3) (a b : LReg) (f : Word → Word → Bool),
    i.modified s m → compares w = some (c, p, a, b, f) → p ≠ 0 →
    m.common = true → m.sat = false → m.c = .zero → (m.ty = 0 ∨ (m.ty = 1 ∧ ∃ c p a b, w = .fcmp c p a b)) →
    (m.imm ≠ none → b = .v 0) →
    let fs := [(Use.src, a), (if m.imm = none then Use.src else Use.imm, b)]
    (∀ x ∈ fs, useOk i.g.window x.1 x.2 = true ∧ isQueue x.2 = false) → onBoard i.g fs = false →
    pendingS i.g (sCodes fs) = none →
      ∃ x : Mask, exec w s = .next (i.past s { i.g with p := Table.wr i.g.p 0 p.toNat x }) ∧
        ∀ l : Nat, l < 64 → x.getLsbD l =
          if (i.f.p0 &&& i.g.readP i.f.p0 m.msel).getLsbD l then
            f (readReg i.g i.f a l) (match m.imm with | none => readReg i.g i.f b l | some y => y.signExtend 32)
          else if m.mz ∧ i.f.p0.getLsbD l then false else (Table.rd i.g.p 0 p.toNat).getLsbD l

namespace Sys2Proof.Machine

/-! ## Movement (05 R126 to R130) -/

/-- A movement word: its destination, its sources and how B is used, and the source lane σ of a lane `l` whose B holds
`n`; `none` stands for a σ below 0 (05 R127). -/
def movement (w : Instr) : Option (LReg × LReg × LReg × Use × (Nat → Nat → Option Nat)) :=
  match w with
  | .qswapx d a => some (d, a, .zero, .unused, fun l _ => some (l ^^^ 1))
  | .qswapy d a => some (d, a, .zero, .unused, fun l _ => some (l ^^^ 2))
  | .qswapd d a => some (d, a, .zero, .unused, fun l _ => some (l ^^^ 3))
  | .qbcast d a b => some (d, a, b, .src, fun l n => some (4 * (l / 4) + n % 4))
  | .shfl d a b => some (d, a, b, .src, fun _ n => some n)
  | .shflup d a b => some (d, a, b, .src, fun l n => if n ≤ l then some (l - n) else none)
  | .shfldn d a b => some (d, a, b, .src, fun l n => some (l + n))
  | _ => none

/-- Whether lane `t` may be read by a movement of the fibre: inside the width, in a quad that the fibre holds (05 R126). -/
def Iss.reads (i : Iss) (t : Nat) : Bool := decide (t < i.g.width) && (i.g.held i.f.p0).getLsbD t

/-- The row of a movement, whose result in a lane depends on the lane: D and the results of the active lanes. -/
def moveResults (i : Iss) (m : Mods) (a b : LReg) (σ : Nat → Nat → Option Nat) : List (Nat × Nat) :=
  (Mask.lanes (i.f.p0 &&& i.g.readP i.f.p0 m.msel)).map fun l =>
    let own := (readReg i.g i.f a l).toNat
    let n := match m.imm with | some y => (y.signExtend 32 : Word).toNat | none => (readReg i.g i.f b l).toNat
    (l, match σ l n with
      | some t => if i.reads t then (readReg i.g i.f a t).toNat else own
      | none => own)

/-! ## Prefixes (04 R90) -/

/-- The prefixes that stand before the issuing fibre's next word. -/
def Iss.prefixes (i : Iss) : Chain := i.f.chain.getD { start := i.f.pc, rep := none, pfx := none, pfxi := none, done := 0, upto := none }

/-- What a prefix word adds to the prefixes before it, where the order REP, PFX, PFXI admits it. -/
def addPrefix (c : Chain) (w : Instr) : Option Chain :=
  match w with
  | .rep n d a b => if c.rep = none ∧ c.pfx = none ∧ c.pfxi = none then some { c with rep := some (n, d, a, b) } else none
  | .pfx r m z k t x o f =>
    if c.pfx = none ∧ c.pfxi = none then some { c with pfx := some (r, m, z, k, t, x, o, f) } else none
  | .pfxi x => if c.pfxi = none then some { c with pfxi := some x } else none
  | _ => none

/-- The three prefix words. -/
def isPrefixWord (w : Instr) : Bool := match w with | .rep .. => true | .pfx .. => true | .pfxi _ => true | _ => false

/-! ## Dividing, parking, ending (06 R137, R140; 07 R155 to R158) -/

/-- The fibre that a division begins at `target` with the lanes `taken` (06 R137, 07 R155): a copy of the dividing
fibre's return stack, completion times and handler level, with nothing of its clause, region, results or traps. -/
def Iss.offspring (s : State) (i : Iss) (target : DWord) (taken : Mask) : Fibre :=
  { i.f with
      pc := target, p0 := taken, state := .ready, clause := none, chain := none, branch := some i.f.pc, last := []
      buffer := [], fresh := true, traps := [], owed := [], yieldMark := none
      readySince := some (gtOf s i.g.die), due := false }

/-- The state `t` after a division: a new fibre at `target` with `taken`, the issuing fibre as `f`, the O registers of
both zero in every lane, the writes on their way charged to both, and nothing else changed. -/
def Iss.divided (s : State) (i : Iss) (target : DWord) (taken : Mask) (f : Fibre) (t : State) : Prop :=
  let n := i.g.nextFibre
  ∃ g : Group,
    t = { s with
            groups := Table.ins s.groups i.gid g
            writes := s.writes.map fun e =>
              if e.2.gid = i.gid ∧ e.2.fibs.contains i.fid = true then (e.1, { e.2 with fibs := e.2.fibs ++ [n] }) else e } ∧
    g = { i.g with fibres := g.fibres, nextFibre := n + 1, o := i.g.o.filter fun e => !i.f.p0.getLsbD (e.1 % 64) } ∧
    Table.look g.fibres n = some (i.offspring s target taken) ∧
    Table.look g.fibres i.fid = some f ∧
    ∀ x : Nat, x ≠ n → x ≠ i.fid → Table.look g.fibres x = Table.look i.g.fibres x

/-- The lanes of Pn and the others, within the fibre's P0 (06 R137). -/
def Iss.split (i : Iss) (p : BitVec 3) : Mask × Mask :=
  (i.g.readP i.f.p0 p.toNat &&& i.f.p0, i.f.p0 &&& ~~~(i.g.readP i.f.p0 p.toNat))

/-- A fibre with its region just committed: nothing buffered, the next word begins a region (11 R240). -/
def Fibre.recommitted (f : Fibre) : Fibre := { f with buffer := [], fresh := true }

end Sys2Proof.Machine

/-- 05 R126, R127: a movement word gives each active lane A of lane σ where σ lies in the width and in a held quad, and
the lane's own A elsewhere. 05 R128 to R130: forward REORDER gives the active lanes, in ascending order, the range of
the active lanes sorted by (KEY[15:0], lane) and leaves that order in KEY; the inverse gives each active lane `t` the
range of the lowest active lane whose KEY[5:0] is `t`, and keeps KEY. Every lane that is not active keeps every
register, and every register outside the range and KEY is kept in every lane. One last-result entry is pushed for each
register of the range, ascending, and by the forward form one for KEY. A field, a prefix or a KEY that R128 does not
admit raises the illegal-encoding trap. -/
def Obligations.MovementWordsMoveLanes : Prop :=
  (∀ (s : State) (i : Iss) (m : Mods) (w : Instr) (d a b : LReg) (bu : Use) (σ : Nat → Nat → Option Nat),
      i.modified s m → movement w = some (d, a, b, bu, σ) →
      m.common = true → m.ty = 0 → m.sat = false → m.c = .zero → (m.imm = none ∨ (bu = .src ∧ b = .v 0)) →
      let r : LaneRow := { d, du := .dst, a, au := .src, b, bu := if m.imm.isSome then .imm else bu, cu := .unused, val := fun x _ _ => x }
      r.ready i m →
        let res := moveResults i m a b σ
        let off := if m.mz then i.f.p0 &&& ~~~(i.f.p0 &&& i.g.readP i.f.p0 m.msel) else 0
        let g := (writeResults i.g d 1 res (Mask.lanes off)).withBoard (i.g.board ++ boardCodes .dst d)
        exec w s = .next (i.put s (i.withFibre g { i.passed with last := (pushResults g d 1 res i.f).last }))) ∧
  ((∀ (s : State) (i : Iss) (m : Mods) (base : Fin 192) (k : LReg) (inv : BitVec 1) (cnt : BitVec 6),
      i.modified s m → Table.wf i.g.v 0 = true → Table.wf i.g.o 0 = true →
      m.common = true → m.ty = 0 → m.sat = false → m.mz = false → m.imm = none → m.c = .zero →
      base.val + cnt.toNat < i.g.window →
      (match k with | .v n => n.val < i.g.window ∧ (n.val < base.val ∨ base.val + cnt.toNat < n.val) | .o _ => True | _ => False) →
      onBoard i.g [(.vOnly (cnt.toNat + 1), .v base), (.src, k)] = false →
        let act := Mask.lanes (i.f.p0 &&& i.g.readP i.f.p0 m.msel)
        let key (l : Nat) : Nat := (readReg i.g i.f k l).toNat % 65536
        let pushed (g : Group) : Fibre :=
          let f := pushResults g (.v base) (cnt.toNat + 1) [] i.f
          if inv = 1 then f else pushResults g k 1 [] f
        ∃ g : Group,
          exec (.reorder (.v base) k inv cnt) s = .next (i.put s (i.withFibre g { i.passed with last := (pushed g).last })) ∧
          g = { i.g with v := g.v, o := g.o, board := i.g.board ++ boardCodes (.vOnly (cnt.toNat + 1)) (.v base) ++
            if inv = 1 then [] else boardCodes (.vo 1) k } ∧
          (∀ l n : Nat, l < 64 →
            (l ∉ act ∨ ((n < base.val ∨ base.val + cnt.toNat < n) ∧ (inv = 1 ∨ ∀ x : Fin 192, k = .v x → x.val ≠ n)) →
              g.readV n l = i.g.readV n l) ∧
            (l ∉ act ∨ inv = 1 ∨ (∀ x : Fin 16, k = .o x → x.val ≠ n) → g.readO n l = i.g.readO n l)) ∧
          (inv = 0 → ∃ ord : List Nat, ord.Perm act ∧ ord.Pairwise (fun x y => key x < key y ∨ (key x = key y ∧ x < y)) ∧
            ∀ p ∈ act.zip ord, readReg g i.f k p.1 = BitVec.ofNat 32 p.2 ∧
              ∀ j : Nat, j ≤ cnt.toNat → g.readV (base.val + j) p.1 = i.g.readV (base.val + j) p.2) ∧
          (inv = 1 → ∀ t ∈ act, ∀ j : Nat, j ≤ cnt.toNat → g.readV (base.val + j) t =
            match act.find? fun l => (readReg i.g i.f k l).toNat % 64 = t with
            | some l => i.g.readV (base.val + j) l
            | none => i.g.readV (base.val + j) t)) ∧
    (∀ (s : State) (i : Iss) (m : Mods) (b k : LReg) (inv : BitVec 1) (cnt : BitVec 6), i.modified s m →
      (m.mz = true ∨ m.ty ≠ 0 ∨ m.sat = true ∨ m.imm.isSome = true ∨ (isQueue m.c = false ∧ m.c ≠ .zero) ∨
        (isQueue b = false ∧ ∀ v : Fin 192, b = .v v → i.g.window ≤ v.val + cnt.toNat) ∨
        (isQueue k = false ∧ (∀ v : Fin 192, k ≠ .v v) ∧ ∀ o : Fin 16, k ≠ .o o) ∨
        (∃ v w : Fin 192, b = .v v ∧ k = .v w ∧ v.val ≤ w.val ∧ w.val ≤ v.val + cnt.toNat)) →
      ∃ mask : Mask, exec (.reorder b k inv cnt) s = .next (trapHere s i 0x01 0 mask)) ∧
    (∀ (s : State) (i : Iss) (x : Word), (field x 24 8).toNat = 0x4F → x.getLsbD 7 = true → queueBarred i.k x = false →
      ∃ mask : Mask, slotWord s i x = .done (trapHere s i 0x01 0 mask)))

/-- 04 R90: a prefix word in its order adds its fields to the prefixes of the word to come and changes nothing else; out
of order it raises the illegal-encoding trap at the first prefix. 04 R97; 06 R139; 07 R158; 10 R230: NOP, WAITF once
every flag of its mask reads 0, YIELD and ISYNC pass their word; YIELD marks the fibre with the GT at which it yielded,
and ISYNC discards what was fetched ahead. 06 R139; 07 R153: while a flag of its mask does not read 0, WAITF leaves its
fibre waiting on the mask, at its word. TMASK 0 of that trap is the model's choice (log entry 61). -/
def Obligations.PrefixAndQuietWordsPass : Prop :=
  (∀ (s : State) (i : Iss) (w : Instr), issuing s = some i → isPrefixWord w = true →
      exec w s = .next (match addPrefix i.prefixes w with
        | some c => i.put s (i.withFibre i.g { i.f with chain := some c, pc := i.f.pc + 4 })
        | none => takeTrap s i.gid i.fid 0x01 i.prefixes.start 0 0 i.f.clause)) ∧
  (∀ (s : State) (i : Iss), i.plain s →
      exec .nop s = .next (i.past s i.g) ∧
      (∀ m : BitVec 12, (∀ j : Nat, j < 12 → m.getLsbD j = true → Table.rd i.g.flags 0 (j + 1) = 0) →
        (∀ o ∈ i.g.owed ++ i.f.owed, m.getLsbD (o.flag - 1) = false) → exec (.waitf m) s = .next (i.past s i.g)) ∧
      exec .yield s = .next (i.put s (i.withFibre i.g { i.passed with yieldMark := some (gtOf s i.g.die) })) ∧
      exec .isync s = .next (i.past s { i.g with ahead := [] })) ∧
  (∀ (s : State) (i : Iss) (m : BitVec 12) (j : Nat), i.plain s → j < 12 → m.getLsbD j = true →
      Table.rd i.g.flags 0 (j + 1) ≠ 0 →
        exec (.waitf m) s = .next (i.put s (i.withFibre i.g
          { i.f with state := .waiting (.flags m), readySince := none, due := false })))

/-- 06 R137; 07 R155: BRP SPLIT with lanes on both sides, and FORK with a lane taken, begin a fibre at the target with
the taken lanes; the issuing fibre keeps the rest and falls through, or ends where FORK leaves it none. Its region, with
nothing buffered, is committed. 07 R155: FORK with no lane taken falls through. -/
def Obligations.DivisionAndForkDivideTheFibre : Prop :=
  (∀ (s : State) (i : Iss) (p : BitVec 3) (o : BitVec 16), i.plain s → i.f.buffer = [] →
      Table.look i.g.fibres i.g.nextFibre = none → (i.split p).1 ≠ 0 →
        let target := i.f.pc + 4 * o.signExtend 64
        ((i.split p).2 ≠ 0 → ∃ t, exec (.brp p 0 o) s = .next t ∧
          i.divided s target (i.split p).1 (Fibre.recommitted { i.passed with p0 := (i.split p).2 }) t) ∧
        ((i.split p).2 ≠ 0 → ∃ t, exec (.fork p o) s = .next t ∧
          i.divided s target (i.split p).1 (Fibre.recommitted { i.passed with p0 := (i.split p).2 }) t) ∧
        ((i.split p).2 = 0 → ∃ t f, exec (.fork p o) s = .next t ∧ i.divided s target (i.split p).1 f t ∧
          f.state = .ended ∧ f.p0 = 0)) ∧
  (∀ (s : State) (i : Iss) (p : BitVec 3) (o : BitVec 16), i.plain s → (i.split p).1 = 0 →
      exec (.fork p o) s = .next (i.past s i.g))

namespace Sys2Proof.Machine

/-! ## Traps (06 R141; 18 R367 to R369) -/

/-- The trap vector that the issuing fibre's kernel sampled (06 R143, 18 R367). -/
def Iss.tvec (i : Iss) : DWord := i.k.sample 1 ++ i.k.sample 0

/-- Nothing holds back delivery of a trap that the issuing fibre raises now: no fibre of its group is at handler level,
none has a trap pending, a handler exists and the fibre has buffered no write (18 R367). -/
def Iss.freeToTrap (i : Iss) : Prop :=
  i.tvec ≠ 0 ∧ i.f.buffer = [] ∧ ∀ e ∈ i.g.fibres, e.2.handler = none ∧ e.2.traps = []

/-- The state right after delivery (18 R367): the group's trap registers hold the cause, the address, the detail and the
lanes; the fibre is at handler level, with H its return-stack depth, at the trap vector; its region is committed. -/
def Iss.entered (s : State) (i : Iss) (cause : Nat) (epc addr : DWord) (mask : Mask) (cl : Option Clause) : State :=
  { i.put s (i.withFibre
      { i.g with tcause := BitVec.ofNat 32 cause, tepc := epc, taddr := addr, tmask := mask }
      { i.f with
          pc := i.tvec, state := .ready, clause := none, chain := none, branch := none, buffer := [], fresh := true
          handler := some i.f.stack.length, trapClause := cl, readySince := some (gtOf s i.g.die), due := false }) with
    nextId := s.nextId + 1 }

/-- The clause that a return from a handler resumes in (18 R368): the trapping clause, where the return address lies inside
it, on a word of it that is not a CLAUSE word. -/
def Iss.resumedClause (i : Iss) : Option Clause :=
  match i.f.trapClause with
  | none => none
  | some c =>
    if c.start < i.g.tepc ∧ i.g.tepc < c.limit ∧ i.g.tepc.toNat % 4 = 0 ∧
        (∀ w, c.words.getD ((i.g.tepc - c.start).toNat / 4 - 1) none = some w → w.extractLsb' 24 8 ≠ 0x80) then some c
    else none

/-! ## Parking and ending (06 R140; 07 R156, R157) -/

/-- The issuing fibre ended: it holds no lane, and nothing of it is pending (06 R140). -/
def Iss.gone (i : Iss) : Fibre :=
  { i.f with
      state := .ended, p0 := 0, chain := none, clause := none, buffer := [], fresh := true, readySince := none, due := false
      traps := [], owed := [], yieldMark := none, handler := none, doomed := false }

/-- The lanes of a group's fibres that have not ended. -/
def liveLanes (g : Group) : Mask := g.fibres.foldl (fun m e => if e.2.state = .ended then m else m ||| e.2.p0) 0

/-! ## Barriers (08 R174 to R183) -/

/-- The instance of a barrier that the issuing fibre's word names, with its key, in the state in which it exists. -/
def Iss.barrier (s : State) (i : Iss) (l : BitVec 2) (n : BitVec 4) : Nat × State := barrierKey s i.gid i.g l.toNat n.toNat

/-- A word may name barrier (l, n) and nothing makes its arrival wait (08 R175, R181): the kernel declares it, the fibre has
buffered no write, and release(3) is met. -/
def Iss.mayArrive (s : State) (i : Iss) (l : BitVec 2) (n : BitVec 4) : Prop :=
  barrierOk i.k i.g l.toNat n.toNat = true ∧ i.f.buffer = [] ∧ releasePending s i.gid i.fid 3 = false

/-- An instance takes the issuing fibre's lanes at once (08 R177, R178): it is not released, and none of the lanes is
covered in its phase, or waits for what is linked to it (08 R185). -/
def Iss.admitted (s : State) (i : Iss) (l : BitVec 2) (n : BitVec 4) (b : Barrier) : Prop :=
  Table.look (i.barrier s l n).2.barriers (i.barrier s l n).1 = some b ∧ b.state ≠ .released ∧
    i.f.p0 &&& (b.coveredBy i.gid ||| Table.rd b.linked 0 i.gid) = 0 ∧ i.f.p0 ≠ 0

end Sys2Proof.Machine

/-- 18 R367: a trap that nothing holds back is delivered at once. 06 R141; 18 R367: TRAP takes the trap with TCAUSE
0x0B, TEPC its own address, TADDR its code, and no lane. 18 R369, R370: with no handler, a trap other than the
watchdog's puts a running context into faulted, and the fibre stays where it trapped, waiting. That trap 0x0B carries no
lane, TMASK 0, is the model's choice (log entry 61). -/
def Obligations.TrapsEnterTheHandlerOrFaultTheContext : Prop :=
  (∀ (s : State) (i : Iss) (cause : Nat) (epc addr : DWord) (mask : Mask) (cl : Option Clause),
      issuing s = some i → i.freeToTrap → cause ≠ 0x0A →
        takeTrap s i.gid i.fid cause epc addr mask cl = i.entered s cause epc addr mask cl) ∧
  (∀ (s : State) (i : Iss) (x : BitVec 18), i.plain s → i.freeToTrap →
      exec (.trap x) s = .next (i.entered s 0x0B i.f.pc (x.zeroExtend 64) 0 i.f.clause)) ∧
  (∀ (s : State) (i : Iss) (c : Context) (cause : Nat) (epc addr : DWord) (mask : Mask) (cl : Option Clause),
      issuing s = some i → i.tvec = 0 → cause ≠ 0x0A → i.f.buffer = [] →
      (∀ e ∈ i.g.fibres, e.2.handler = none ∧ e.2.traps = []) →
      Table.look s.contexts i.k.ctx = some c → c.state = .running →
        let t := takeTrap s i.gid i.fid cause epc addr mask cl
        (∃ c' : Context, Table.look t.contexts i.k.ctx = some c' ∧ c'.state = .faulted) ∧
        (∃ g f, Table.look t.groups i.gid = some g ∧ Table.look g.fibres i.fid = some f ∧ f.state = .waiting .trap ∧
          f.pc = i.f.pc ∧ f.handler = none ∧ g.tcause = BitVec.ofNat 32 cause ∧ g.tepc = epc))

/-- 18 R368: RET at a return-stack depth of H leaves handler level and resumes at TEPC, in the trapping clause where
TEPC lies inside it, with L0 to L3 zero; the return stack stays. -/
def Obligations.RetResumesAtTheTrap : Prop :=
  ∀ (s : State) (i : Iss), issuing s = some i → i.f.chain = none → i.f.handler = some i.f.stack.length →
    i.f.doomed = false → i.f.traps = [] →
      exec .ret s = .next (i.put s (i.withFibre i.g
        { i.f with handler := none, pc := i.g.tepc, branch := none, last := [], clause := i.resumedClause }))

/-- 06 R140; 07 R156, R157: EXIT, with no status owed, ends the fibre, FDONE parks it past its word with its lanes live,
and JOIN parks it with the live lanes of Pn; each commits the fibre's region, here with nothing buffered, and each makes
the group's joins and barriers be evaluated again. 07 R157: a JOIN that needs no other fibre's lanes completes at once:
the fibre resumes past the JOIN word, at a clause start, with its own lanes, and O registers of its lanes read zero. -/
def Obligations.FibreEndsParksOrJoins : Prop :=
  (∀ (s : State) (i : Iss), issuing s = some i → i.f.chain = none → i.f.buffer = [] →
      (i.g.owed = [] → i.f.owed = [] → exec .exit s = .next (resettle (i.put s (i.withFibre i.g i.gone)) i.gid)) ∧
      (i.g.owed = [] → i.f.owed = [] → exec .fdone s = .next (resettle (i.put s (i.withFibre i.g
        { i.f with state := .doneParked, pc := i.f.pc + 4, clause := none, fresh := true, readySince := none, due := false })) i.gid)) ∧
      (∀ p : BitVec 3, exec (.join p) s = .next (resettle (i.put s (i.withFibre i.g
        { i.f with state := .joinParked (i.g.readP i.f.p0 p.toNat &&& liveLanes i.g), fresh := true, readySince := none, due := false }))
        i.gid))) ∧
  (∀ (s : State) (i : Iss) (p : BitVec 3), issuing s = some i → i.f.chain = none → i.f.buffer = [] →
      i.g.fibres = [(i.fid, i.f)] → i.f.state = .ready → i.f.p0 ≠ 0 → s.barriers = [] → i.quiet s →
        ∃ (t : State) (g : Group) (f : Fibre), exec (.join p) s = .next t ∧ Table.look t.groups i.gid = some g ∧
          g.fibres = [(i.fid, f)] ∧ f.state = .ready ∧ f.pc = i.f.pc + 4 ∧ f.p0 = i.f.p0 ∧ f.clause = none ∧
          f.stack = i.f.stack ∧ f.handler = i.f.handler ∧ g.v = i.g.v ∧ g.s = i.g.s ∧ g.p = i.g.p ∧
          ∀ (k l : Nat), l < 64 → i.f.p0.getLsbD l = true → g.readO k l = 0)

/-- 08 R176 to R178, R180, R185: an arrival records the fibre's lanes in the instance, which counts once a participant
has arrived: at group level once its lanes are recorded, above it when the group's arrival is counted. At group level
the lanes of an arrival with operations linked to it that are not yet applied are not recorded before these are (R185).
BARR writes the phase token, the GEN of the phase it arrived in, and goes on; BARRW waits for that phase's release. 08
R180, R182: BARW passes with acquire(3) once the instance's GEN differs from bit 0 of Sa, and waits for it before. 08
R183, R185: BARQ writes a status word whose bit 31 is the instance's GEN and bits [30:29] its state, and changes no
barrier; MLINK links the group's matrix operations issued so far to its next arrival. That a member of a block all of
whose lanes have ended or are done-parked is not waited for is the model's choice (log entry 67). -/
def Obligations.BarrierWordsArriveWaitAndQuery : Prop :=
  (∀ (s : State) (i : Iss) (l : BitVec 2) (n : BitVec 4) (b : Barrier), i.plain s → i.mayArrive s l n → i.admitted s l n b →
      let bar := (i.barrier s l n).1
      let recorded (t : State) : Prop := ∃ b' : Barrier, Table.look t.barriers bar = some b' ∧ b'.gen = b.gen ∧
        (if b.level = 0 ∧ linkPending i.g bar = true
          then b'.coveredBy i.gid = b.coveredBy i.gid ∧
            Table.rd b'.linked 0 i.gid = Table.rd b.linked 0 i.gid ||| i.f.p0
          else b'.coveredBy i.gid = b.coveredBy i.gid ||| i.f.p0 ||| (if b.level = 0 then Table.rd b.linked 0 i.gid else 0)) ∧
        ((if b.level = 0 then b'.coveredBy i.gid ≠ 0 else i.gid ∈ b'.came) → b'.state = .counting ∨ b'.state = .released)
      (∀ d : BitVec 6, i.settled [d.toNat] → ∃ (t : State) (g : Group), exec (.barr d l n) s = .next t ∧ recorded t ∧
        t.mem = s.mem ∧ Table.look t.groups i.gid = some g ∧ g.s = (i.g.writeS d.toNat (if b.gen then 1 else 0)).s ∧
        Table.look g.fibres i.fid = some { i.passed with fresh := true }) ∧
      (∃ (t : State) (g : Group), exec (.barrw l n) s = .next t ∧ recorded t ∧ t.mem = s.mem ∧
        Table.look t.groups i.gid = some g ∧ g.s = i.g.s ∧
        Table.look g.fibres i.fid = some
          { i.f with state := .waiting (.barrier bar b.gen), fresh := true, readySince := none, due := false })) ∧
  (∀ (s : State) (i : Iss) (a : BitVec 6) (l : BitVec 2) (n : BitVec 4) (b : Barrier), i.plain s →
      barrierOk i.k i.g l.toNat n.toNat = true → i.settled [a.toNat] →
      Table.look (i.barrier s l n).2.barriers (i.barrier s l n).1 = some b →
        exec (.barw a l n) s = .next (if b.gen ≠ (i.g.readS a.toNat).getLsbD 0
          then i.past (acquireL1 (i.barrier s l n).2 (coreKey i.g.die i.g.core) 3) i.g
          else i.put (i.barrier s l n).2 (i.withFibre i.g
            { i.f with
                state := .waiting (.barrier (i.barrier s l n).1 ((i.g.readS a.toNat).getLsbD 0))
                readySince := none, due := false }))) ∧
  (∀ (s : State) (i : Iss) (l : BitVec 2) (n : BitVec 4) (b : Barrier), i.plain s → barrierOk i.k i.g l.toNat n.toNat = true →
      Table.look (i.barrier s l n).2.barriers (i.barrier s l n).1 = some b →
        (∀ d : BitVec 6, i.settled [d.toNat] → ∃ x : Word,
          exec (.barq d l n) s = .next (i.past (i.barrier s l n).2 (i.g.writeS d.toNat x)) ∧
          x.getLsbD 31 = b.gen ∧
          x.extractLsb' 29 2 = (match b.state with | .idle => 0 | .counting => 1 | .released => 2) ∧
          x.extractLsb' 0 24 = BitVec.ofNat 24 (min (remaining (i.barrier s l n).2 b) (2 ^ 24 - 1))) ∧
        exec (.mlink l n) s = .next (i.past (i.barrier s l n).2
          { i.g with links := ((i.barrier s l n).1, (i.g.tileOps.filter TileOp.links).map (·.id)) :: i.g.links }))

/-- 04 R80, R81, R83; 02 R39: CLAUSE, its words fetched from wherever they come and its checks met, opens the clause:
its flags are in force, the fibre stands at its first word, and L0 to L3 read zero. -/
def Obligations.ClauseWordOpensItsClause : Prop :=
  ∀ (s s1 : State) (i : Iss) (w : BitVec 12) (a b l : BitVec 4) (ws : List (Option Word)),
    issuing s = some i → i.f.clause = none → i.f.chain = none → i.f.state = .ready → i.g.owed = [] → i.f.owed = [] →
    (∀ j : Nat, j < 12 → w.getLsbD j = true → Table.rd i.g.flags 0 (j + 1) = 0) →
    (a.toNat ≤ 12 ∧ b.toNat ≤ 12 ∧ (b ≠ 0 → a ≠ 0 ∧ a ≠ b)) →
    fetchRest i.gid i.g i.k (l.toNat + 1) (i.f.pc.toNat + 4) s = (.ok ws, s1) → clauseWordsOk ws = true →
    i.f.pc.toNat / 65536 = (i.f.pc.toNat + 4 * (l.toNat + 1)) / 65536 → debugOn s1 i.k.ctx 1 = false → i.quiet s1 →
      ∃ t g, exec (.clause w a b l) s = .next t ∧ Table.look t.groups i.gid = some g ∧ t.mem = s1.mem ∧ g.v = i.g.v ∧
        g.s = i.g.s ∧ g.flags = i.g.flags ∧ t.contexts = s1.contexts ∧ t.dies = s1.dies ∧
        Table.look g.fibres i.fid = some { i.f with
          clause := some { start := i.f.pc, flagA := a.toNat, flagB := b.toNat, words := ws }
          last := [], pc := i.f.pc + 4, branch := none }

namespace Sys2Proof.Machine

/-! ## System registers (06 R142 to R147; 18 R386) -/

/-- The directory below 0x100 (06 R143): a number, and what it grants at program and at handler level, 0 for none, 1 for
RO, 2 for RW. -/
def directoryRows : List (Nat × Nat × Nat) :=
  [(0x000, 0, 2), (0x001, 0, 2), (0x002, 0, 1), (0x003, 0, 2), (0x004, 0, 2), (0x005, 0, 1), (0x006, 0, 1), (0x007, 0, 1),
   (0x008, 0, 1), (0x010, 1, 1), (0x011, 1, 1), (0x012, 1, 2), (0x013, 1, 2), (0x014, 1, 1), (0x018, 1, 2), (0x019, 1, 2),
   (0x01A, 1, 2), (0x01B, 1, 2), (0x020, 1, 2), (0x021, 1, 2), (0x022, 1, 2), (0x023, 1, 2), (0x024, 1, 2)]

/-- The listed debug and profiling numbers (18 R386): what each grants at program and handler level, and the feature it
needs: 0 PROF, 1 TRACE, 2 HALT, 3 a passport alone. -/
def debugRows : List (Nat × Nat × Nat × Nat) :=
  [(0x100, 1, 1, 3), (0x101, 1, 1, 3), (0x102, 1, 1, 3), (0x108, 2, 2, 0), (0x109, 2, 2, 0), (0x10A, 2, 2, 0),
   (0x10B, 2, 2, 0), (0x110, 1, 1, 0), (0x111, 1, 1, 0), (0x112, 1, 1, 0), (0x113, 1, 1, 0), (0x114, 1, 1, 0),
   (0x115, 1, 1, 0), (0x116, 1, 1, 0), (0x117, 1, 1, 0), (0x120, 0, 2, 2), (0x122, 0, 2, 2), (0x123, 0, 2, 2),
   (0x130, 0, 2, 1), (0x131, 0, 2, 1), (0x132, 0, 2, 1), (0x133, 1, 1, 1)]

/-- The passport of the issuing fibre's partition. -/
def Iss.passport (s : State) (i : Iss) : Option Passport :=
  ((Table.look s.contexts i.k.ctx).bind fun c => Table.look s.partitions c.part).bind (·.passport)

/-- Whether a feature of `debugRows` works for the issuing fibre. -/
def Iss.feature (s : State) (i : Iss) (k : Nat) : Prop :=
  ∃ p, i.passport s = some p ∧ (k = 3 ∨ p.feat.getLsbD k = true)

/-- What the issuing fibre may do with a number that works at its level (06 R142). -/
def Iss.grants (s : State) (i : Iss) (n a : Nat) : Prop :=
  let at_ (p h : Nat) : Nat := if i.f.handler = none then p else h
  (∃ p h, (n, p, h) ∈ directoryRows ∧ at_ p h = a) ∨ (∃ p h k, (n, p, h, k) ∈ debugRows ∧ i.feature s k ∧ at_ p h = a)

/-- A debug or profiling number that does not work (18 R386). -/
def Iss.idle (s : State) (i : Iss) (n : Nat) : Prop :=
  0x100 ≤ n ∧ n ≤ 0x1FF ∧ ∀ p h k, (n, p, h, k) ∈ debugRows → ¬i.feature s k

/-- The low and the high half of a register pair. -/
def halves (n : Nat) (x : DWord) : List (Nat × Word) := [(n, x.extractLsb' 0 32), (n + 1, x.extractLsb' 32 32)]

/-- What RDSR reads of each number but GTIMEL (06 R143; 18 R386), for a group and its context. -/
def systemValues (i : Iss) (c : Context) : List (Nat × Word) :=
  halves 0x000 c.tvec ++ [(0x002, i.g.tcause)] ++ halves 0x003 i.g.tepc ++ halves 0x005 i.g.taddr ++ halves 0x007 i.g.tmask ++
  [(0x011, i.g.gtime.extractLsb' 32 32), (0x012, c.lease), (0x013, c.fairt), (0x014, BitVec.ofNat 32 i.k.wdog),
   (0x018, c.rngctl)] ++ halves 0x019 c.rngbase ++
  [(0x01B, c.rngseg), (0x020, c.opaq), (0x021, c.gwin), (0x022, c.dens), (0x023, c.outl), (0x024, c.hotthr)] ++
  [(0x108, Table.rd i.g.pcsel 0 0), (0x109, Table.rd i.g.pcsel 0 1), (0x10A, Table.rd i.g.pcsel 0 2),
   (0x10B, Table.rd i.g.pcsel 0 3)] ++
  ((List.range 4).flatMap fun j => halves (0x110 + 2 * j) (BitVec.ofNat 64 (Table.rd i.g.pcnt 0 j))) ++
  [(0x120, i.g.dbgctl)] ++ halves 0x122 i.g.brk ++ halves 0x130 c.trcb ++ [(0x132, c.trcsz), (0x133, c.trcpos)]

/-- The context registers as WRSR leaves them (00 R6, R7; 06 R143, R144, R146; 18 R386). -/
def contextWrites (c : Context) (v : Word) : List (Nat × Context) :=
  let low (x : DWord) (y : Word) : DWord := x.extractLsb' 32 32 ++ y
  let high (x : DWord) : DWord := v ++ x.extractLsb' 0 32
  [(0x000, { c with tvec := low c.tvec (v &&& ~~~3) }), (0x001, { c with tvec := high c.tvec }),
   (0x012, { c with lease := v &&& 0x00FFFFFF }),
   (0x013, { c with fairt := if v.toNat < 100 then 100 else if 65535 < v.toNat then 65535 else v }),
   (0x018, { c with rngctl := (c.rngctl &&& 0xC0000000 &&& ~~~v) ||| (if v &&& 3 = 3 then c.rngctl &&& 3 else v &&& 3) }),
   (0x019, { c with rngbase := low c.rngbase (v &&& ~~~63) }), (0x01A, { c with rngbase := high c.rngbase }),
   (0x01B, { c with rngseg := v &&& ~~~63 }), (0x020, { c with opaq := v }), (0x021, { c with gwin := v &&& 0xFFFF }),
   (0x022, { c with dens := v &&& 0xFFFF }), (0x023, { c with outl := v }), (0x024, { c with hotthr := v &&& 0xFF }),
   (0x130, { c with trcb := low c.trcb (v &&& ~~~63) }), (0x131, { c with trcb := high c.trcb }),
   (0x132, { c with trcsz := v &&& ~~~63 })]

/-- The group registers as WRSR leaves them (06 R143; 18 R386): a write of PCSEL clears its counter. -/
def groupWrites (g : Group) (v : Word) : List (Nat × Group) :=
  let low (x : DWord) : DWord := x.extractLsb' 32 32 ++ v
  let high (x : DWord) : DWord := v ++ x.extractLsb' 0 32
  [(0x003, { g with tepc := low g.tepc }), (0x004, { g with tepc := high g.tepc }), (0x120, { g with dbgctl := v &&& 3 }),
   (0x122, { g with brk := low g.brk }), (0x123, { g with brk := high g.brk })] ++
  (List.range 4).map fun j => (0x108 + j,
    { g with pcsel := Table.wr g.pcsel 0 j (v &&& 0xFF), pcnt := Table.del g.pcnt j })

/-! ## Ordering, write-back and prefetch words (09 R197, R198; 10 R229; 11 R241, R248 to R250; 17 R360) -/

/-- The issuing fibre past its word with an empty region buffer, its next word beginning a region (11 R241). -/
def Iss.committed (s : State) (i : Iss) : State := i.put s (i.withFibre i.g { i.passed with buffer := [], fresh := true })

/-- The fibre past its word in a state that the word has made otherwise. -/
def Iss.onward (i : Iss) (t : State) : State := updFibre t i.gid i.fid fun f => moveOn f (f.pc + 4)

/-- In `t` the issuing fibre stands past its word, no register of its group has changed, and its region is committed where
`commits` says so. -/
def Iss.movedPast (i : Iss) (t : State) (commits : Bool) : Prop :=
  ∃ g f, Table.look t.groups i.gid = some g ∧ Table.look g.fibres i.fid = some f ∧ f.pc = i.f.pc + 4 ∧
    f.p0 = i.f.p0 ∧ f.stack = i.f.stack ∧ (g.v = i.g.v ∧ g.o = i.g.o ∧ g.s = i.g.s ∧ g.p = i.g.p ∧ g.acc = i.g.acc) ∧
    (commits = true → f.buffer = [] ∧ f.fresh = true)

/-- The pages that a range of virtual addresses touches (10 R216): the 64 KiB pieces of `n` bytes from `lo`. -/
def rangePieces (lo n : Nat) : List Nat :=
  if n = 0 then [] else (List.range ((lo + n - 1) / 65536 - lo / 65536 + 1)).map fun j => max lo ((lo / 65536 + j) * 65536) % 2 ^ 64

/-- A context has no page in a state that can be served among some addresses, as the core translates them (11 R249). -/
def Iss.nothingServed (s : State) (i : Iss) (vs : List Nat) : Prop :=
  ∀ va ∈ vs, (translate s i.ck i.k.ctx va).1.st ∉ [3, 4, 6, 7]

/-- A state whose groups, memory and L1 lines are those of another. -/
def sameCore (s t : State) : Prop := t.groups = s.groups ∧ t.mem = s.mem ∧ t.l1 = s.l1

end Sys2Proof.Machine

/-- 06 R142, R143; 18 R386: RDSR writes SD the register that IMM18 numbers, where the directory grants a read; GTIMEL
latches the GT of the group's die, its low half is read, and nothing else changes. 00 R6, R7; 06 R142 to R144, R146; 18
R386: WRSR, where the directory grants a write, writes the fields that accept one, and changes nothing else. 06 R142; 18
R386: a debug or profiling number that does not work reads zero and ignores writes, at both levels. 06 R142: an access
that the directory denies at the fibre's level raises trap 0x02, and a number outside the directory the illegal-encoding
trap; TADDR is 0 and no register is written. TADDR 0 and TMASK 0 of trap 0x02, and TMASK 0 of trap 0x01, are the model's
choice (log entry 61). -/
def Obligations.SystemRegistersAreReadAndWritten : Prop :=
  (∀ (s : State) (i : Iss) (c : Context) (d : BitVec 6) (n : BitVec 18), i.plain s → i.settled [d.toNat] →
      Table.look s.contexts i.k.ctx = some c → (i.grants s n.toNat 1 ∨ i.grants s n.toNat 2) →
        (∀ x, (n.toNat, x) ∈ systemValues i c → exec (.rdsr d n) s = .next (i.past s (i.g.writeS d.toNat x))) ∧
        (∀ p, i.passport s = some p → ∀ x, (n.toNat, x) ∈ (0x100, 0x80000000 ||| p.feat.setWidth 32) :: halves 0x101 (BitVec.ofNat 64 p.expiry) →
          exec (.rdsr d n) s = .next (i.past s (i.g.writeS d.toNat x))) ∧
        (n = 0x010 → exec (.rdsr d n) s = .next (i.past s
          ({ i.g with gtime := BitVec.ofNat 64 (gtOf s i.g.die) }.writeS d.toNat (BitVec.ofNat 32 (gtOf s i.g.die)))))) ∧
  (∀ (s : State) (i : Iss) (c : Context) (d : BitVec 6) (n : BitVec 18), i.plain s → i.settled [d.toNat] →
      Table.look s.contexts i.k.ctx = some c → i.grants s n.toNat 2 →
        (∀ c', (n.toNat, c') ∈ contextWrites c (i.g.readS d.toNat) →
          exec (.wrsr d n) s = .next (i.past { s with contexts := Table.ins s.contexts i.k.ctx c' } i.g)) ∧
        (∀ g', (n.toNat, g') ∈ groupWrites i.g (i.g.readS d.toNat) → exec (.wrsr d n) s = .next (i.past s g'))) ∧
  (∀ (s : State) (i : Iss) (d : BitVec 6) (n : BitVec 18), i.plain s → i.settled [d.toNat] →
      (∃ c, Table.look s.contexts i.k.ctx = some c) → i.idle s n.toNat →
        exec (.rdsr d n) s = .next (i.past s (i.g.writeS d.toNat 0)) ∧ exec (.wrsr d n) s = .next (i.past s i.g)) ∧
  (∀ (s : State) (i : Iss) (d : BitVec 6) (n : BitVec 18), i.plain s → i.settled [d.toNat] →
      let t (cause : Nat) : Out := .next (takeTrap s i.gid i.fid cause i.f.pc 0 0 i.f.clause)
      (i.grants s n.toNat 0 → exec (.rdsr d n) s = t 0x02 ∧ exec (.wrsr d n) s = t 0x02) ∧
      (i.grants s n.toNat 1 → exec (.wrsr d n) s = t 0x02) ∧
      ((∀ p h, (n.toNat, p, h) ∉ directoryRows) → n.toNat < 0x100 ∨ 0x1FF < n.toNat →
        exec (.rdsr d n) s = t 0x01 ∧ exec (.wrsr d n) s = t 0x01))

/-- 06 R147: in live mode RNG makes two draws of the core's source, the first in bits [31:16]; a failed health test
holds it. The draws are free values. The counter that the draws are taken by is the model's (log entry 9). -/
def Obligations.RngMakesTwoDraws : Prop :=
  ∀ (s : State) (i : Iss) (x : Die) (d : BitVec 6), i.plain s → i.settled [d.toNat] →
    (i.k.sample 0x018).toNat % 4 = 0 → drawsOwed i.g = false → s.dies[i.g.die]? = some x →
      ((∀ e ∈ x.healthFail, e.1 ≠ i.g.core) → exec (.rng d) s = .next (i.past { s with draws := s.draws + 2 }
        (i.g.writeS d.toNat (Config.noise s.draws ++ Config.noise (s.draws + 1))))) ∧
      ((∃ e ∈ x.healthFail, e.1 = i.g.core) → exec (.rng d) s = .next (i.put s (i.withFibre i.g
        { i.f with state := .waiting (.noise 2), readySince := none, due := false })))

/-- 09 R197, R198; 11 R240, R241, R248 to R250: with no buffered write in conflict, REGION, and FENCE once nothing is
left to release, commit the fibre's region and pass; CWB and CWB.ALL commit and pass, waiting where their write-backs
have not completed; PREF and PREF.HOME pass. None changes a register, whatever the region buffer holds and the pages
are. -/
def Obligations.CommitAndCacheWordsComplete : Prop :=
  ∀ (s : State) (i : Iss) (a b : BitVec 6), i.plain s → bufferConflict s i.ck i.k.ctx i.g.block i.f = none →
    let c := commitNow s i.gid i.fid
    exec .region s = .next (i.onward c) ∧
    exec (.fence 2) s = .next (i.onward (acquireL1 s i.ck 4)) ∧
    (releasePending c i.gid i.fid 4 = false →
      exec (.fence 1) s = .next (i.onward c) ∧ exec (.fence 3) s = .next (i.onward (acquireL1 c i.ck 4))) ∧
    (∃ t, exec .cwbAll s = .next t ∧ i.movedPast t true) ∧
    (a.toNat % 2 = 0 → i.settled [a.toNat, a.toNat + 1, b.toNat] →
      (∃ t, exec (.cwb a b) s = .next t ∧ i.movedPast t true) ∧
      (∃ t, exec (.pref a b) s = .next t ∧ i.movedPast t false) ∧
      (∃ t, exec (.prefHome a b) s = .next t ∧ i.movedPast t false))

/-- 09 R197, R198; 11 R241, R248 to R250: with nothing buffered, REGION, FENCE, CWB and CWB.ALL pass where there is
nothing to send, to wait for or to write back; an acquiring FENCE discards the core's leased bytes; PREF of no served
page and PREF.HOME only pass. 11 R240, R241: a commit point that finds a buffered write in conflict with a registered
range raises trap 0x04 with the lowest such byte in TADDR, at REGION, at a releasing FENCE, at CWB and at CWB.ALL. -/
def Obligations.OrderingWordsPassOrTrap : Prop :=
  (∀ (s : State) (i : Iss) (a b : BitVec 6), i.plain s → i.f.buffer = [] →
      exec .region s = .next (i.committed s) ∧
      (releasePending s i.gid i.fid 4 = false →
        exec (.fence 1) s = .next (i.committed s) ∧ exec (.fence 3) s = .next (i.committed (acquireL1 s i.ck 4))) ∧
      exec (.fence 2) s = .next (i.past (acquireL1 s i.ck 4) i.g) ∧
      ((∀ e ∈ s.l1, e.1 / 2 ^ 48 = i.ck → e.2.dirty = false ∨ e.2.ctx ≠ i.k.ctx) → exec .cwbAll s = .next (i.committed s)) ∧
      (a.toNat % 2 = 0 → i.settled [a.toNat, a.toNat + 1, b.toNat] →
        let vs := rangePieces (i.g.readPair a.toNat).toNat (i.g.readS b.toNat).toNat
        i.nothingServed s vs → (∃ t, exec (.cwb a b) s = .next t ∧ sameCore (i.committed s) t) ∧
          (∃ t, exec (.pref a b) s = .next t ∧ sameCore (i.past s i.g) t) ∧
          (∃ t, exec (.prefHome a b) s = .next t ∧ sameCore (i.past s i.g) t))) ∧
  (∀ (s : State) (i : Iss) (x : Nat), i.plain s → bufferConflict s i.ck i.k.ctx i.g.block i.f = some x →
      debugOn s i.k.ctx 0 = false →
        let t : Out := .next (takeTrap s i.gid i.fid 0x04 i.f.pc (BitVec.ofNat 64 x) 0 i.f.clause)
        (∀ w ∈ [Instr.region, .fence 1, .fence 3, .cwbAll], exec w s = t) ∧
        (∀ a b : BitVec 6, a.toNat % 2 = 0 → i.settled [a.toNat, a.toNat + 1, b.toNat] → exec (.cwb a b) s = t))

/-- 10 R229: ICINV drops from the instruction caches of the context's dies the lines of its range, and of no other, and
waits until every core has acknowledged. 17 R360: SPINH on an aligned address waits for a write to the line, for the
fairness time at most, where the page can be served, and passes where it cannot; a misaligned address raises trap 0x03.
TADDR and TMASK of trap 0x03 at SPINH are the model's choice (log entry 61). -/
def Obligations.IcinvAndSpinhWait : Prop :=
  (∀ (s : State) (i : Iss) (a b : BitVec 6), i.plain s → a.toNat % 2 = 0 → i.settled [a.toNat, a.toNat + 1, b.toNat] →
      let lo := (i.g.readPair a.toNat).toNat
      let n := (i.g.readS b.toNat).toNat
      ∃ t, exec (.icinv a b) s = .next t ∧
        t.groups = (i.put s (i.withFibre i.g { i.f with state := .waiting .icinv, readySince := none, due := false })).groups ∧
        t.mem = s.mem ∧ ∀ e ∈ s.icache, e ∈ t.icache ↔
          (n = 0 ∨ e.1 / 2 ^ 56 % 2 ^ 12 ≠ i.k.ctx ∨ coreDie (e.1 / 2 ^ 68) ∉ ctxRanks s i.k.ctx ∨
            e.1 % 2 ^ 56 < lo / 128 * 128 ∨ (lo + n + 127) / 128 * 128 ≤ e.1 % 2 ^ 56)) ∧
  (∀ (s t : State) (i : Iss) (a : BitVec 6) (p : Pg), i.plain s → a.toNat % 2 = 0 → i.settled [a.toNat, a.toNat + 1] →
      let va := (i.g.readPair a.toNat).toNat
      (va % 4 = 0 → translate s i.ck i.k.ctx va = (p, t) →
        ((p.st = 3 ∨ p.st = 4 ∨ p.st = 6) → exec (.spinh a) s = .next (i.put t (i.withFibre i.g
          { i.f with
              state := .waiting (.spin (p.key t i.k.ctx i.g.die va / 128) (gtOf t i.g.die + fairOf i.k) false)
              readySince := none, due := false }))) ∧
        (p.st ≠ 3 ∧ p.st ≠ 4 ∧ p.st ≠ 6 → exec (.spinh a) s = .next (i.past t i.g))) ∧
      (va % 4 ≠ 0 → exec (.spinh a) s = .next
        (takeTrap s i.gid i.fid 0x03 i.f.pc (i.g.readPair a.toNat) 0 i.f.clause)))

namespace Sys2Proof.Machine

/-! ## Memory words (11 R232 to R239, R243 to R247, R251) -/

/-- The fields of a word are ones that their uses admit, none names a queue, no write to them is in flight and no token is
awaited in them (02 R35 to R37; 04 R85; 07 R172). -/
def Iss.fieldsReady (i : Iss) (fs : List (Use × LReg)) : Prop :=
  (∀ x ∈ fs, useOk i.g.window x.1 x.2 = true ∧ isQueue x.2 = false) ∧ onBoard i.g fs = false ∧
    pendingS i.g (sCodes fs) = none

/-- The modifiers that a memory word of lanes accepts (04 R91 to R94): TYPE 0, no SAT, an ordering of `ords`, and a PFXI only
where IMM8 is 0. -/
def Mods.memory (m : Mods) (ords : List Nat) (f : BitVec 8) : Prop :=
  m.ty = 0 ∧ m.sat = false ∧ m.rnd ≤ 5 ∧ m.ord ∈ ords ∧ (m.imm = none ∨ f = 0)

/-- The flag that a counting word counts against has room (02 R44; 04 R84). -/
def Iss.countsOn (i : Iss) (m : Mods) (fl : Nat) : Prop :=
  ∃ c, i.f.clause = some c ∧ fl = (if m.fb then c.flagB else c.flagA) ∧ fl ≠ 0 ∧ Table.rd i.g.flags 0 fl < 127

/-- The fibre's lanes that a mask selects (00 R10). -/
def Iss.act (i : Iss) (m : Mods) : Mask := i.f.p0 &&& i.g.readP i.f.p0 m.msel

/-- The lanes that reach memory, ascending: helper lanes do not (07 R169). -/
def Iss.memoryLanes (i : Iss) (m : Mods) : List Nat := Mask.lanes (i.act m &&& ~~~i.g.helpers)

/-- The lanes that MZ zeroes (00 R10). -/
def Iss.zeroed (i : Iss) (m : Mods) : Mask := if m.mz then i.f.p0 &&& ~~~i.act m else 0

/-- The signed multiple of the access size that a word adds: IMM8, or PFXI's IMM24 in its place (04 R94; 11 R232). -/
def Mods.multiple (m : Mods) (f : BitVec 8) : Int := match m.imm with | none => f.toInt | some x => x.toInt

/-- A lane's global address (11 R232). -/
def Iss.globalAddress (i : Iss) (m : Mods) (a : LReg) (f : BitVec 8) (size l : Nat) : Nat :=
  ((readReg i.g i.f (regPlus a 1) l ++ readReg i.g i.f a l : DWord) + BitVec.ofInt 64 (m.multiple f * size)).toNat

/-- A lane's scratchpad offset (11 R237). -/
def Iss.scratchOffset (i : Iss) (m : Mods) (a : LReg) (f : BitVec 8) (size l : Nat) : Nat :=
  (readReg i.g i.f a l + BitVec.ofInt 32 (m.multiple f * size)).toNat

/-- No range that a Porter command of the core registered conflicts with an access (09 R206, R207). -/
def Iss.unlocked (s : State) (i : Iss) (scratch write : Bool) (x n : Nat) : Prop :=
  ∀ e ∈ s.porter, e.2.core = i.ck → e.2.ctx = i.k.ctx → ∀ r ∈ e.2.ranges, r.scratch = scratch →
    (scratch = true → e.2.block = i.g.block) → (r.write = true ∨ write = true) → r.hi ≤ x ∨ x + n ≤ r.lo

/-- The page of an address, which the core's TLB or a range entry holds, lets the access through (10 R216, R219, R224,
R225): it is resident, it may be written by a write, and the line is not poisoned. -/
def Iss.reaches (s : State) (i : Iss) (write : Bool) (va : Nat) (p : Pg) : Prop :=
  translate s i.ck i.k.ctx (va / 65536 * 65536) = (p, s) ∧
  (if write then p.wr = true ∧ (p.st = 3 ∨ (p.st = 7 ∧ p.repl = false)) else p.st = 3 ∨ p.st = 4 ∨ p.st = 6 ∨ p.st = 7) ∧
  badLine s (p.key s i.k.ctx i.g.die va / 128) = false

/-- The byte `j` of a lane's data in the registers from `d` (02 R37; 11 R235). -/
def Iss.dataByte (i : Iss) (d : LReg) (l j : Nat) : Byte :=
  (readReg i.g i.f (if j < 4 then d else regPlus d (j / 4)) l).extractLsb' (8 * (j % 4)) 8

/-- The bytes that a lane stores. -/
def Iss.dataBytes (i : Iss) (d : LReg) (size l : Nat) : List Byte := (List.range size).map (i.dataByte d l)

/-- The distinct 128-byte segments that some accesses touch (11 R233). -/
def segmentCount (size : Nat) (vas : List Nat) : Nat :=
  (dedup (vas.flatMap fun va => (List.range ((va + size - 1) / 128 - va / 128 + 1)).map (· + va / 128))).length

/-- What one word's writes add to a region buffer: one item that counts `n` entries, or nothing for no write (11 R239). -/
def entryOf (n : Nat) (ws : List BufWrite) : List BufEntry := if ws = [] then [] else [{ entries := n, writes := ws }]

/-- A global load's row: its registers, IMM8, its size and whether it extends the sign (11 R234). -/
def loadRow (w : Instr) : Option (LReg × LReg × BitVec 8 × Nat × Bool) :=
  match w with
  | .ld8u d a f => some (d, a, f, 1, false)
  | .ld8s d a f => some (d, a, f, 1, true)
  | .ld16u d a f => some (d, a, f, 2, false)
  | .ld32 d a f => some (d, a, f, 4, false)
  | .ld64 d a f => some (d, a, f, 8, false)
  | .ld128 d a f => some (d, a, f, 16, false)
  | _ => none

/-- A scratchpad load's row (11 R237). -/
def scratchLoadRow (w : Instr) : Option (LReg × LReg × BitVec 8 × Nat) :=
  match w with
  | .lds32 d a f => some (d, a, f, 4) | .lds64 d a f => some (d, a, f, 8) | .lds128 d a f => some (d, a, f, 16) | _ => none

/-- A global store's row (11 R235). -/
def storeRow (w : Instr) : Option (LReg × LReg × BitVec 8 × Nat) :=
  match w with
  | .st8 d a f => some (d, a, f, 1) | .st16 d a f => some (d, a, f, 2) | .st32 d a f => some (d, a, f, 4)
  | .st64 d a f => some (d, a, f, 8) | .st128 d a f => some (d, a, f, 16) | _ => none

/-- A scratchpad store's row (11 R237). -/
def scratchStoreRow (w : Instr) : Option (LReg × LReg × BitVec 8 × Nat) :=
  match w with
  | .sts32 d a f => some (d, a, f, 4) | .sts64 d a f => some (d, a, f, 8) | .sts128 d a f => some (d, a, f, 16) | _ => none

/-- An atomic's row under a TYPE (11 R243): D, A and B, its fold, and whether C holds a third operand. -/
def atomicRow (ty : Nat) (w : Instr) : Option (LReg × LReg × LReg × AtomOp × Bool) :=
  let on (types : List Nat) (r : LReg × LReg × LReg × AtomOp × Bool) := if ty ∈ types then some r else none
  let uns : Bool := decide (ty = 7 ∨ ty = 13)
  match w with
  | .atadd d a b => on [0, 6, 7, 12, 13] (d, a, b, .add, false)
  | .atfadd d a b => on [0, 1] (d, a, b, .fadd, false)
  | .atmin d a b => on [0, 6, 7, 12, 13] (d, a, b, if uns then .umin else .smin, false)
  | .atmax d a b => on [0, 6, 7, 12, 13] (d, a, b, if uns then .umax else .smax, false)
  | .atand d a b => on [0, 12] (d, a, b, .and, false)
  | .ator d a b => on [0, 12] (d, a, b, .or, false)
  | .atxor d a b => on [0, 12] (d, a, b, .xor, false)
  | .atxchg d a b => on [0, 12] (d, a, b, .xchg, false)
  | .atcas d a b => on [0, 12] (d, a, b, .cas, true)
  | .atinc d a b => on [0] (d, a, b, .inc, false)
  | _ => none

/-- A reduction's row under a TYPE (11 R245). -/
def reductionRow (ty : Nat) (w : Instr) : Option (LReg × LReg × AtomOp) :=
  let on (types : List Nat) (r : LReg × LReg × AtomOp) := if ty ∈ types then some r else none
  let uns : Bool := decide (ty = 7 ∨ ty = 13)
  match w with
  | .redadd a b => on [0, 6, 7, 12, 13] (a, b, .add)
  | .redfadd a b => on [0, 1] (a, b, .fadd)
  | .redmin a b => on [0, 6, 7, 12, 13] (a, b, if uns then .umin else .smin)
  | .redmax a b => on [0, 6, 7, 12, 13] (a, b, if uns then .umax else .smax)
  | _ => none

/-- The bytes of an atomic's operand under a TYPE (11 R243). -/
def operandBytes (ty : Nat) : Nat := if ty = 12 ∨ ty = 13 then 8 else 4

/-- The modifiers that an atomic accepts: its TYPE, a PFXI in place of B for a 32-bit operand where B's field is 0. -/
def Mods.atomic (m : Mods) (ords : List Nat) (b : LReg) : Prop :=
  m.sat = false ∧ m.rnd ≤ 5 ∧ m.ord ∈ ords ∧ (m.imm = none ∨ (b = .v 0 ∧ operandBytes m.ty = 4))

/-- How an atomic uses B, and C of a compare-and-swap. -/
def Mods.operandUse (m : Mods) : Use := if operandBytes m.ty = 8 then .srcPair else .src

/-- A lane's second operand. -/
def Iss.operand (i : Iss) (m : Mods) (b : LReg) (l : Nat) : Nat :=
  match m.imm with | some x => (x.signExtend 32).toNat | none => readWide i.g i.f b l (operandBytes m.ty / 4)

/-- An atomic access to an address goes to the line's home: it reaches its page, whose scope is above core, and a
system-scope page has ATOM set and AtomicOps enabled on its path (10 R224; 11 R244). -/
def Iss.reachesHome (s : State) (i : Iss) (va : Nat) (p : Pg) : Prop :=
  i.reaches s true va p ∧ 2 ≤ p.scope ∧ (p.scope = 4 → p.atom = true ∧ ∀ t : Touch, atomicPath s i.k.ctx { t := t, p := p, key := p.key s i.k.ctx i.g.die va } = true)

/-- The issuing core's copies dropped of what lanes store at their homes (09 R194): each lane's page and address. -/
def Iss.forgot (s : State) (i : Iss) (size : Nat) (xs : List (Pg × Nat)) : State :=
  (xs.filter fun x => !inL1 x.1).foldl (fun s x => l1Forget s i.ck (x.1.key s i.k.ctx i.g.die x.2) size) s

/-- The group after a counting word: its flag is one higher. -/
def Iss.counted (i : Iss) (fl : Nat) : Group := { i.g with flags := Table.wr i.g.flags 0 fl (Table.rd i.g.flags 0 fl + 1) }

/-- The fibre past an access: an acquiring one waits for the operation (11 R234). -/
def Iss.pastOp (i : Iss) (acquiring : Bool) (op : Nat) : Fibre :=
  if acquiring then { i.passed with state := .waiting (.acquire op), readySince := none, due := false } else i.passed

/-- No register of the group changed from `i`'s, but the flags, the tokens and the fibres. -/
def Iss.sameRegisters (i : Iss) (g : Group) : Prop :=
  g.v = i.g.v ∧ g.o = i.g.o ∧ g.s = i.g.s ∧ g.p = i.g.p ∧ g.acc = i.g.acc

end Sys2Proof.Machine

/-- 09 R194; 11 R232, R233, R235, R239: a relaxed store enters the region buffer with one entry for each 128-byte
segment and the bytes of each lane, ascending; its core forgets its copies of what goes to a home, and no memory
changes; one that would overflow the 48 entries raises trap 0x05. 11 R235: a release store with nothing to wait for
sends its bytes at once: here one lane's, to a home. With earlier writes of the fibre on their way it waits. 11 R237,
R238: a scratchpad store writes each lane's bytes at issue, the highest lane last, and every other byte of the
scratchpad, every register and memory stay as they were. -/
def Obligations.LaneStoresAreTaken : Prop :=
  (∀ (s : State) (i : Iss) (m : Mods) (w : Instr) (d a : LReg) (f : BitVec 8) (size : Nat) (P : Nat → Pg),
      i.modified s m → storeRow w = some (d, a, f, size) → m.memory [0] f → m.fb = false →
      i.fieldsReady [(if size ≤ 4 then .src else .voz (size / 4), d), (.address, a), (.unused, m.c)] →
      (∀ l ∈ i.memoryLanes m, let va := i.globalAddress m a f size l
        va % size = 0 ∧ i.unlocked s false true va size ∧ i.reaches s true va (P l)) →
        let vas := (i.memoryLanes m).map (i.globalAddress m a f size)
        let need := segmentCount size vas
        let used := (i.f.buffer.map (·.entries)).sum
        (used + need ≤ 48 → exec w s = .next (i.put
          (i.forgot s size ((i.memoryLanes m).map fun l => (P l, i.globalAddress m a f size l))) (i.withFibre i.g { i.passed with
          buffer := i.f.buffer ++ entryOf need
            ((i.memoryLanes m).map fun l => .store (i.globalAddress m a f size l) (i.dataBytes d size l)) }))) ∧
        (48 < used + need → exec w s = .next
          (takeTrap s i.gid i.fid 0x05 i.f.epc (BitVec.ofNat 64 need) (i.act m) i.f.clause))) ∧
  (∀ (s : State) (i : Iss) (m : Mods) (w : Instr) (d a : LReg) (f : BitVec 8) (size l : Nat) (p : Pg),
      i.modified s m → storeRow w = some (d, a, f, size) → m.memory [2] f → m.fb = false → i.f.buffer = [] →
      i.fieldsReady [(if size ≤ 4 then .src else .voz (size / 4), d), (.address, a), (.unused, m.c)] → i.memoryLanes m = [l] →
      let va := i.globalAddress m a f size l
      va % size = 0 → i.unlocked s false true va size → i.reaches s true va p → 2 ≤ p.scope →
      translate s i.ck i.k.ctx va = (p, s) →
        let k := p.key s i.k.ctx i.g.die va
        let wr : Write := { kernel := i.g.kernel, ident := groupIdent i.g, gid := i.gid, fibs := [i.fid], core := i.ck, ctx := i.k.ctx, scope := p.scope, addr := k,
                            kind := .store (i.dataBytes d size l), wct := none }
        exec w s = .next (if releasePending s i.gid i.fid p.scope
          then i.put s (i.withFibre i.g { i.f with
            buffer := [], fresh := true, state := .waiting (.release p.scope), readySince := none, due := false })
          else i.put { l1Forget s i.ck k size with writes := Table.ins s.writes s.nextId wr, nextId := s.nextId + 1 }
            (i.withFibre i.g { i.passed with buffer := [], fresh := true }))) ∧
  (∀ (s : State) (i : Iss) (m : Mods) (w : Instr) (d a : LReg) (f : BitVec 8) (size : Nat),
      i.modified s m → scratchStoreRow w = some (d, a, f, size) → m.memory [0] f → m.fb = false →
      i.fieldsReady [(if size ≤ 4 then .src else .voz (size / 4), d), (.src, a), (.unused, m.c)] →
      (∀ l ∈ i.memoryLanes m, let x := i.scratchOffset m a f size l
        x % size = 0 ∧ i.unlocked s true true x size) →
        ∃ b' : Block, exec w s = .next (i.past { s with blocks := Table.ins s.blocks i.g.block b' } i.g) ∧
          b' = { i.b with scratch := b'.scratch } ∧
          ∀ x < i.b.size, b'.readByte x =
            match (i.memoryLanes m).reverse.find? fun l =>
              decide (i.scratchOffset m a f size l ≤ x ∧ x < i.scratchOffset m a f size l + size) with
            | some l => i.dataByte d l (x - i.scratchOffset m a f size l)
            | none => i.b.readByte x)

/-- 11 R232 to R234: a global load of aligned, resident addresses puts in flight an operation that reads each lane's
bytes at its address and will write its registers, counts against its flag, and passes its word, or waits where it
acquires; until the operation returns, no register and no memory changes. 11 R237, R238: a scratchpad load reads its
bytes at issue; its registers are written when it returns. 11 R251: LCPY puts in flight a copy, for each lane whose 32
bytes lie in the scratchpad, of min(C, 32) bytes from its address to its offset, and counts against its flag. -/
def Obligations.LaneLoadsAreTaken : Prop :=
  (∀ (s : State) (i : Iss) (m : Mods) (w : Instr) (d a : LReg) (f : BitVec 8) (size : Nat) (sg : Bool) (fl : Nat) (P : Nat → Pg),
      i.modified s m → loadRow w = some (d, a, f, size, sg) → m.memory [0, 1] f → i.countsOn m fl → i.f.buffer = [] →
      i.fieldsReady [(if size ≤ 4 then .voz 1 else .vo (size / 4), d), (.address, a), (.unused, m.c)] →
      i.act m &&& i.g.helpers = 0 →
      (∀ l ∈ i.memoryLanes m, let va := i.globalAddress m a f size l
        va % size = 0 ∧ i.unlocked s false false va size ∧ i.reaches s false va (P l)) →
        ∃ (t : State) (o : Op) (g : Group), exec w s = .next t ∧ Table.look t.ops s.nextId = some o ∧ t.mem = s.mem ∧
          (o.kind = .load ∧ o.gid = i.gid ∧ o.fib = i.fid ∧ o.dest = .lane d (max 1 (size / 4)) ∧ o.size = size ∧ o.signed = sg ∧
            o.lanes = i.act m ∧ o.zero = i.zeroed m ∧ o.flag = fl ∧ o.acquire = decide (m.ord = 1)) ∧
          (∀ l y n, (∃ p ∈ o.pieces, p.lane = l ∧ p.off = 0 ∧ p.addr = y ∧ p.n = n) ↔
            l ∈ i.memoryLanes m ∧ y = (P l).key s i.k.ctx i.g.die (i.globalAddress m a f size l) ∧ n = size) ∧
          Table.look t.groups i.gid = some g ∧ i.sameRegisters g ∧ g.flags = (i.counted fl).flags ∧
          Table.look g.fibres i.fid = some (i.pastOp (decide (m.ord = 1)) s.nextId)) ∧
  (∀ (s : State) (i : Iss) (m : Mods) (w : Instr) (d a : LReg) (f : BitVec 8) (size fl : Nat),
      i.modified s m → scratchLoadRow w = some (d, a, f, size) → m.memory [0] f → i.countsOn m fl →
      i.fieldsReady [(if size = 4 then .voz 1 else .vo (size / 4), d), (.src, a), (.unused, m.c)] → i.act m &&& i.g.helpers = 0 →
      (∀ l ∈ i.memoryLanes m, let x := i.scratchOffset m a f size l
        x % size = 0 ∧ i.unlocked s true false x size) →
        ∃ o : Op, exec w s = .next (i.past { s with ops := Table.ins s.ops s.nextId o, nextId := s.nextId + 1 } (i.counted fl)) ∧
          (o.kind = .lds ∧ o.gid = i.gid ∧ o.dest = .lane d (size / 4) ∧ o.size = size ∧ o.signed = false ∧ o.flag = fl ∧
            o.lanes = i.act m ∧ o.zero = i.zeroed m ∧ o.acquire = false ∧ o.pieces = []) ∧
          ∀ l ∈ i.memoryLanes m, ∀ j < size,
            Table.look o.got (l * 512 + j) = some (i.b.readByte (i.scratchOffset m a f size l + j))) ∧
  (∀ (s : State) (i : Iss) (m : Mods) (d a : LReg) (f : BitVec 8) (fl : Nat) (P : Nat → Pg),
      i.modified s m → m.memory [0] f → i.countsOn m fl → i.fieldsReady [(.src, d), (.address, a), (.src, m.c)] →
      let dst (l : Nat) := (readReg i.g i.f d l).toNat
      let n (l : Nat) := min (readReg i.g i.f m.c l).toNat 32
      let va := i.globalAddress m a f 32
      let live := (i.memoryLanes m).filter fun l => decide (dst l + 32 ≤ i.b.size)
      (∀ l ∈ i.memoryLanes m, dst l % 32 = 0) →
      (∀ l ∈ live, i.unlocked s false false (va l) (n l) ∧ i.unlocked s true true (dst l) 32 ∧ i.reaches s false (va l) (P l) ∧
        va l / 128 = (va l + 31) / 128) →
        ∃ (t : State) (o : Op) (g : Group), exec (.lcpy d a f) s = .next t ∧ Table.look t.ops s.nextId = some o ∧ t.mem = s.mem ∧
          t.blocks = s.blocks ∧ o.kind = .lcpy ∧ o.gid = i.gid ∧ o.flag = fl ∧ o.copies = live.map (fun l => (l, dst l, n l)) ∧
          Table.look t.groups i.gid = some g ∧ i.sameRegisters g ∧ g.flags = (i.counted fl).flags ∧
          Table.look g.fibres i.fid = some i.passed)

/-- 11 R243, R244: a returning atomic with nothing to release sends one atomic write for each lane to its home, with its
fold and its operands, counts against its flag and passes its word, or waits where it acquires. 11 R239, R245: a relaxed
reduction enters the region buffer. -/
def Obligations.AtomicsAndReductionsAreTaken : Prop :=
  (∀ (s : State) (i : Iss) (m : Mods) (w : Instr) (d a b : LReg) (op : AtomOp) (cas : Bool) (fl : Nat) (P : Nat → Pg),
      i.modified s m → atomicRow m.ty w = some (d, a, b, op, cas) → m.atomic [0, 1, 2, 3] b → i.countsOn m fl →
      i.f.buffer = [] → releasePending s i.gid i.fid 4 = false →
      i.fieldsReady [(.voz (operandBytes m.ty / 4), d), (.address, a), (if m.imm.isSome then .imm else m.operandUse, b),
        (if cas then m.operandUse else .unused, m.c)] →
      (∀ l ∈ i.memoryLanes m, let va := i.globalAddress { m with imm := none } a 0 1 l
        va % operandBytes m.ty = 0 ∧ i.unlocked s false true va (operandBytes m.ty) ∧ i.reachesHome s va (P l)) →
        ∃ (t : State) (o : Op) (g : Group), exec w s = .next t ∧ Table.look t.ops s.nextId = some o ∧ t.mem = s.mem ∧
          (o.kind = .atomic ∧ o.gid = i.gid ∧ o.dest = .lane d (operandBytes m.ty / 4) ∧ o.size = operandBytes m.ty ∧
            o.lanes = i.act m &&& ~~~i.g.helpers ∧ o.zero = i.zeroed m ∧ o.flag = fl ∧
            o.acquire = decide (m.ord = 1 ∨ m.ord = 3)) ∧
          (∀ l ∈ i.memoryLanes m, ∃ e ∈ t.writes, e.2.gid = i.gid ∧ e.2.wct = none ∧
            e.2.addr = (P l).key s i.k.ctx i.g.die (i.globalAddress { m with imm := none } a 0 1 l) ∧
            e.2.kind = .atomic s.nextId l op (operandBytes m.ty) (BitVec.ofNat 64 (i.operand m b l))
              (BitVec.ofNat 64 (readWide i.g i.f m.c l (operandBytes m.ty / 4)))) ∧
          Table.look t.groups i.gid = some g ∧ i.sameRegisters g ∧ g.flags = (i.counted fl).flags ∧
          ∃ x : Fibre, Table.look g.fibres i.fid = some x ∧
            x = { i.pastOp (decide (m.ord = 1 ∨ m.ord = 3)) s.nextId with fresh := true }) ∧
  (∀ (s : State) (i : Iss) (m : Mods) (w : Instr) (a b : LReg) (op : AtomOp) (P : Nat → Pg),
      i.modified s m → reductionRow m.ty w = some (a, b, op) → m.atomic [0] b → m.fb = false →
      i.fieldsReady [(.address, a), (if m.imm.isSome then .imm else m.operandUse, b), (.unused, m.c)] →
      let va := i.globalAddress { m with imm := none } a 0 1
      let n := operandBytes m.ty
      (∀ l ∈ i.memoryLanes m, va l % n = 0 ∧ i.unlocked s false true (va l) n ∧ i.reachesHome s (va l) (P l)) →
      (i.f.buffer.map (·.entries)).sum + segmentCount n ((i.memoryLanes m).map va) ≤ 48 →
        exec w s = .next (i.put s (i.withFibre i.g { i.passed with
          buffer := i.f.buffer ++ entryOf (segmentCount n ((i.memoryLanes m).map va))
            ((i.memoryLanes m).map fun l => .reduce (va l) op m.ty n (BitVec.ofNat 64 (i.operand m b l))) })))

/-- 11 R246, R247: SLD puts in flight a load of 4, 8 or 16 bytes into S registers, which are pending until it returns;
SST enters its bytes in the region buffer as one entry; SATOM sends its fold to the home and makes SD pending. -/
def Obligations.ScalarAccessGoesItsWay : Prop :=
  ∀ (s : State) (i : Iss) (d a b : BitVec 6) (z : BitVec 2) (p : Pg), i.plain s → i.f.buffer = [] →
    a.toNat % 2 = 0 →
    (let n := 2 ^ z.toNat
     let va := (i.g.readPair a.toNat + BitVec.ofNat 64 (b.toNat * (4 * n))).toNat
     z ≠ 3 → d.toNat % n = 0 → i.settled ([a.toNat, a.toNat + 1] ++ (List.range n).map (· + d.toNat)) → va % (4 * n) = 0 →
      (i.unlocked s false false va (4 * n) → i.reaches s false va p → ∀ o : BitVec 1,
        ∃ (t : State) (x : Op) (g : Group), exec (.sld d a b z o) s = .next t ∧ Table.look t.ops s.nextId = some x ∧
          t.mem = s.mem ∧ x.kind = .sld ∧ x.dest = .sreg d.toNat n ∧ x.size = 4 * n ∧
          (∃ q ∈ x.pieces, q.lane = 0 ∧ q.addr = p.key s i.k.ctx i.g.die va ∧ q.n = 4 * n) ∧
          Table.look t.groups i.gid = some g ∧ i.sameRegisters g ∧
          (∀ k, d.toNat ≤ k → k < d.toNat + n → Table.look g.tokens k = some s.nextId) ∧
          Table.look g.fibres i.fid = some (i.pastOp (decide (o = 1)) s.nextId)) ∧
      (i.unlocked s false true va (4 * n) → i.reaches s true va p →
        exec (.sst d a b z 0) s = .next (i.put (i.forgot s (4 * n) [(p, va)]) (i.withFibre i.g { i.passed with
          buffer := entryOf 1 [.store va ((List.range (4 * n)).map fun j =>
            (i.g.readS (d.toNat + j / 4)).extractLsb' (8 * (j % 4)) 8)] })))) ∧
    (∀ (o : BitVec 2) (q : BitVec 4) (op : AtomOp), ([.add, .fadd, .smin, .smax, .and, .or, .xor, .xchg, .cas, .inc, .umin, .umax] : List AtomOp)[q.toNat]? = some op → i.settled [a.toNat, a.toNat + 1, d.toNat, b.toNat] →
      let va := (i.g.readPair a.toNat).toNat
      va % 4 = 0 → i.unlocked s false true va 4 → i.reachesHome s va p → releasePending s i.gid i.fid 4 = false →
        ∃ (t : State) (x : Op) (g : Group), exec (.satom d a b o q) s = .next t ∧ Table.look t.ops s.nextId = some x ∧
          t.mem = s.mem ∧ x.kind = .satom ∧ x.dest = .sreg d.toNat 1 ∧
          (∃ e ∈ t.writes, e.2.addr = p.key s i.k.ctx i.g.die va ∧ e.2.wct = none ∧ e.2.kind =
            .atomic s.nextId 0 op 4 ((i.g.readS b.toNat).zeroExtend 64) ((i.g.readS d.toNat).zeroExtend 64)) ∧
          Table.look t.groups i.gid = some g ∧ i.sameRegisters g ∧ Table.look g.tokens d.toNat = some s.nextId ∧
          Table.look g.fibres i.fid = some
            { i.pastOp (decide (o = 1 ∨ o = 3)) s.nextId with fresh := true })

namespace Sys2Proof.Machine

/-! ## Words that start an engine (06 R148; 11 R253 to R255; 12 R270 to R279; 13 R291 to R295; 14 R308, R315; 15 R324 to
R334; 20 R415 to R417) -/

/-- A flag that FN names has room (02 R44). -/
def Iss.flagRoom (i : Iss) (f : BitVec 4) : Prop := 1 ≤ f.toNat ∧ f.toNat ≤ 12 ∧ Table.rd i.g.flags 0 f.toNat < 127

/-- The fibre past a word that committed its region (11 R240). -/
def Iss.passedFresh (i : Iss) : Fibre := { i.passed with fresh := true }

/-- The modifiers that a word which starts an engine accepts: a TYPE, no SAT, no ordering, no zeroing, no PFXI. -/
def Mods.engine (m : Mods) (types : List Nat) : Prop :=
  m.ty ∈ types ∧ m.sat = false ∧ m.rnd ≤ 5 ∧ m.ord = 0 ∧ m.mz = false ∧ m.imm = none

/-- A Porter word: its command, token register, descriptor, K and flag (11 R253). -/
def porterRow (w : Instr) : Option (PorterOp × BitVec 6 × BitVec 6 × BitVec 1 × BitVec 4) :=
  match w with
  | .pcopy t d k f => some (.copy, t, d, k, f)
  | .ptile t d k f => some (.tile, t, d, k, f)
  | .pstore t d k f => some (.store, t, d, k, f)
  | .pgath t d k f => some (.gath, t, d, k, f)
  | .pscat t d k f => some (.scat, t, d, k, f)
  | .pfill t d k f => some (.fill, t, d, k, f)
  | _ => none

/-- The effective type of a matrix operand (12 R266): code 0 is BF16 for A, and A's type for B. -/
def operandType (dflt code : Nat) : Option Nat :=
  if code = 0 then some dflt else if code ∈ [2, 3, 4, 5, 10, 11] then some code else none

/-- The registers of a chunk and the stride of a B fragment's chunks (12 R266). -/
def chunkSize (ty : Nat) : Nat × Nat :=
  if ty = 10 then (9, 12) else if ty = 11 then (5, 8) else if ty = 4 ∨ ty = 5 then (8, 8) else (16, 16)

/-- A fragment's registers lie from a multiple of 4 inside the window and no write to them is in flight. -/
def Iss.fragment (i : Iss) (k : Fin 192) (n : Nat) : Prop :=
  k.val % 4 = 0 ∧ k.val + n ≤ i.g.window ∧ ∀ x ∈ i.g.board, x < k.val ∨ k.val + n ≤ x

/-- A table of captured registers holds `n` of the group's main registers from `base`, numbered from 0. -/
def Iss.captures (i : Iss) (t : Table Word) (base n : Nat) : Prop :=
  ∀ j l : Nat, j < n → l < 64 → Table.rd t 0 (j * 64 + l) = i.g.readV (base + j) l

/-- The state with a tile operation of the issuing fibre at the end of its group's queue, and the word passed (12 R276). -/
def Iss.queued (s : State) (i : Iss) (g : Group) (kind : TileKind) (tile flag : Nat) : State :=
  i.past { s with nextId := s.nextId + 1 }
    { g with tileOps := i.g.tileOps ++ [{ id := s.nextId, fib := i.fid, kind, tile, flag, applied := false }] }

/-- A NaN made canonical (12 R273). -/
def canonical (x : Word) : Word := if x.extractLsb' 23 8 = 0xFF ∧ x.extractLsb' 0 23 ≠ 0 then 0x7FC00000 else x

/-- The state with a summary operation of the issuing fibre at the end of its group's queue (13 R290). -/
def Iss.summarized (s : State) (i : Iss) (g : Group) (f : Fibre) (kind : SumKind) (va : Nat) (vals : List (Nat × DWord))
    (flag : Nat) : State :=
  i.put { s with nextId := s.nextId + 1 } (i.withFibre
    { g with sumOps := i.g.sumOps ++ [{ id := s.nextId, fib := i.fid, kind, va, vals, flag, applied := none, status := none }] } f)

/-- A word of SUMQ, SUMH and SUMD: its kind, its TYPEs, ADDR and V (13 R291 to R293). -/
def summaryRow (w : Instr) : Option (SumKind × List Nat × BitVec 4 × LReg) :=
  match w with
  | .sumq a v => some (.q, [0, 1], a, v)
  | .sumh a v => some (.h, [0, 7, 12, 13], a, v)
  | .sumd a v => some (.d, [0, 7, 12, 13], a, v)
  | _ => none

/-- The network that a lane's handle names, where its inputs and outputs fit the window (14 R306, R308). -/
def Iss.netOf (s : State) (i : Iss) (inp out : Nat) (h : Word) : Option NetEntry :=
  match (Table.look s.contexts i.k.ctx).bind fun c => Table.look c.nets (h.toNat % 1024) with
  | none => none
  | some e =>
    if e.bound = true ∧ h = BitVec.ofNat 32 (2 ^ 31 + e.gen % 2 ^ 14 * 2 ^ 10 + h.toNat % 1024) ∧
      inp + netIn e.header ≤ i.g.window ∧ out + netOut e.header ≤ i.g.window then some e else none

/-- The state in which the issuing fibre waits at its word. -/
def Iss.waits (s : State) (i : Iss) (w : Wait) : State :=
  i.put s (i.withFibre i.g { i.f with state := .waiting w, readySince := none, due := false })

end Sys2Proof.Machine

/-- 09 R206; 11 R253 to R255, R263: a Porter word enters its command with the descriptor as read at issue, its ranges
registered, rounded outwards to 64 bytes, its flag raised and its token pending; a descriptor that a check rejects
enters a command that moves nothing and reports the first failing check. The order of checks that the rules leave open
is the model's (log entry 25). -/
def Obligations.PorterWordEntersItsCommand : Prop :=
  ∀ (s : State) (i : Iss) (w : Instr) (op : PorterOp) (t d : BitVec 6) (k : BitVec 1) (f : BitVec 4),
    i.plain s → porterRow w = some (op, t, d, k, f) → d.toNat % 8 = 0 → i.flagRoom f → (k = 1 ∨ t = 0) → i.f.buffer = [] →
    i.settled ((List.range 8).map (d.toNat + ·) ++ if k = 1 then [t.toNat] else []) →
    let ds := (List.range 8).map fun j => i.g.readS (d.toNat + j)
    let g := { i.counted f.toNat with
      tokens := if k = 1 then Table.ins i.g.tokens t.toNat s.nextId else i.g.tokens }
    let c : PorterCmd :=
      { op, gid := i.gid, fib := i.fid, core := i.ck, ctx := i.k.ctx, block := i.g.block, d := ds,
        token := if k = 1 then some t.toNat else none, flag := f.toNat, ranges := [], started := true, wct := 0,
        status := 0, info := 0, failAddr := 0, coins := [], outl := i.k.sample 0x023, dup := none }
    let entered (s' : State) (c' : PorterCmd) : State :=
      i.put { s' with porter := Table.ins s.porter s.nextId c', nextId := s.nextId + 1 } (i.withFibre g i.passedFresh)
    let rs := (porterRanges op ds).map fun r =>
      ({ scratch := r.1, write := r.2.1, lo := r.2.2.1 / 64 * 64, hi := (r.2.2.1 + r.2.2.2 + 63) / 64 * 64 } : Range)
    (∀ p r st, firstBad (commandChecks op ds i.b.size) = some (p, r, st) →
      exec w s = .next (entered s { c with status := st, info := r, failAddr := r })) ∧
    (∀ coins, firstBad (commandChecks op ds i.b.size) = none → (s.porter.map fun e =>
        if e.2.core = i.ck then e.2.ranges.length else 0).sum + rs.length ≤ 256 → (i.k.sample 0x018).toNat % 4 = 0 →
      drawValues s i.k i.g (porterDraws op ds) = some coins →
      exec w s = .next (entered { s with draws := s.draws + porterDraws op ds }
        { c with started := false, ranges := rs, coins := coins }))

/-- 12 R264 to R279: MMA, ACCRD, ACCLD, ACCST and MLOOP join their group's queue of tile operations with their operands
and count against their flag, no ACCWR or ACCZ standing in the queue. 12 R273, R274, R276: with no tile operation and no
linked arrival of the group outstanding, ACCZ makes every element of its tile zero and ACCWR writes the eight rows of
its group in the active lanes, NaN made canonical; every other element of the group's tiles, every register and memory
stay as they were. -/
def Obligations.TileWordsJoinTheQueueOrWriteTiles : Prop :=
  (∀ (s : State) (i : Iss) (m : Mods) (fl : Nat), i.modified s m → i.g.width = 64 → m.c = .zero → m.mz = false →
      (∀ o ∈ i.g.tileOps, (∀ x y z, o.kind ≠ .accwr x y z) ∧ o.kind ≠ .accz) →
      (∀ (y t : BitVec 4) (a b : Fin 192) (ta tb : Nat), m.engine [m.ty] → m.msel = 0 → m.rnd = 0 → i.countsOn m fl →
        operandType 3 m.ty = some ta → operandType ta y.toNat = some tb → t.toNat < i.g.tiles →
        i.fragment a (chunkSize ta).1 → i.fragment b ((chunkSize tb).2 + (chunkSize tb).1) →
        ∃ av bv : Table Word, i.captures av a.val (chunkSize ta).1 ∧ i.captures bv b.val ((chunkSize tb).2 + (chunkSize tb).1) ∧
          exec (.mma y t (.v a) (.v b)) s = .next (i.queued s (i.counted fl) (.mma ta tb av bv) t.toNat fl)) ∧
      (∀ (k : Fin 192) (t : BitVec 4) (g : BitVec 2), m.engine [0, 1] → i.countsOn m fl → t.toNat < i.g.tiles → i.fragment k 8 →
        exec (.accrd (.v k) t g) s = .next (i.queued s (i.counted fl) (.accrd (.v k) g.toNat (i.act m) 0) t.toNat fl)) ∧
      (i.f.chain = none → ∀ (t : BitVec 4) (a : BitVec 6) (f : BitVec 4), i.flagRoom f → t.toNat < i.g.tiles →
        i.settled [a.toNat] → (i.g.readS a.toNat).toNat % 256 = 0 →
          exec (.accld t a f) s = .next (i.queued s (i.counted f.toNat) (.accld (i.g.readS a.toNat).toNat) t.toNat f.toNat) ∧
          exec (.accst t a f) s = .next (i.queued s (i.counted f.toNat) (.accst (i.g.readS a.toNat).toNat) t.toNat f.toNat)) ∧
      (i.f.chain = none → ∀ (d : BitVec 6) (f : BitVec 4), i.flagRoom f → d.toNat ≤ 61 →
        i.settled [d.toNat, d.toNat + 1, d.toNat + 2] →
        let x (j : Nat) := i.g.readS (d.toNat + j)
        loopOk i.g i.k (x 0) (x 1) (x 2) = true → (loopsOf i.g).length < 4 →
          exec (.mloop d f) s = .next (i.queued s { i.counted f.toNat with mloopSeq := i.g.mloopSeq + 1 }
            (.mloop (x 0) (x 1) (x 2) i.g.mloopSeq none) ((x 1).extractLsb' 8 4).toNat f.toNat))) ∧
  (∀ (s : State) (i : Iss) (m : Mods) (t : BitVec 4), i.modified s m → i.g.width = 64 → i.g.tileOps = [] → i.g.links = [] →
      t.toNat < i.g.tiles →
      let el (s' : State) (g : Group) (key : Nat) : Word := Table.rd (accTable s' i.k g) 0 key
      let kept (s' : State) (g : Group) : Prop := Table.look s'.groups i.gid = some g ∧ s'.mem = s.mem ∧ g.v = i.g.v ∧
        g.o = i.g.o ∧ g.s = i.g.s ∧ g.p = i.g.p ∧ g.flags = i.g.flags ∧ g.tileOps = [] ∧
        Table.look g.fibres i.fid = some i.passed
      (i.f.chain = none → ∃ s' g, exec (.accz t) s = .next s' ∧ kept s' g ∧
        (∀ r c : Nat, r < 32 → c < 64 → el s' g (accKey i.k i.g t.toNat r c) = 0) ∧
        ∀ key, (∀ r c : Nat, r < 32 → c < 64 → key ≠ accKey i.k i.g t.toNat r c) → el s' g key = el s i.g key) ∧
      (∀ (k : Fin 192) (rg : BitVec 2), m.engine [0, 1] → m.fb = false → m.c = .zero → i.fragment k 8 →
        ∃ s' g, exec (.accwr (.v k) t rg) s = .next s' ∧ kept s' g ∧
          (∀ j l : Nat, j < 8 → l < 64 → (i.act m).getLsbD l = true →
            el s' g (accKey i.k i.g t.toNat (8 * rg.toNat + j) l) = canonical (i.g.readV (k.val + j) l)) ∧
          ∀ key, (∀ j l : Nat, j < 8 → (i.act m).getLsbD l = true → key ≠ accKey i.k i.g t.toNat (8 * rg.toNat + j) l) →
            el s' g key = el s i.g key))

/-- 13 R290 to R295: a summary word of an aligned object enters its group's queue with its contributions in ascending
lane order and counts against its flag; SUMRD enters its query, and its fibre waits. -/
def Obligations.SummaryWordJoinsTheQueue : Prop :=
  ∀ (s : State) (i : Iss) (m : Mods), i.modified s m → i.f.buffer = [] →
    (∀ (w : Instr) (kind : SumKind) (types : List Nat) (a : BitVec 4) (v : LReg) (fl : Nat),
      summaryRow w = some (kind, types, a, v) → m.engine types → m.c = .zero → i.countsOn m fl →
      let wide := decide (m.ty = 12 ∨ m.ty = 13)
      i.fieldsReady [(if wide then .dstPair else .src, v)] → i.settled [2 * a.toNat, 2 * a.toNat + 1] →
      (i.g.readPair (2 * a.toNat)).toNat % 1024 = 0 →
        exec w s = .next (i.summarized s (i.counted fl) i.passedFresh kind (i.g.readPair (2 * a.toNat)).toNat
          ((i.memoryLanes m).map fun l => (l, BitVec.ofNat 64 (readWide i.g i.f v l (if wide then 2 else 1)))) fl)) ∧
    (i.f.chain = none → ∀ (a : BitVec 6) (f : BitVec 4), a.toNat % 2 = 0 → i.flagRoom f →
      i.settled [a.toNat, a.toNat + 1] → (i.g.readPair a.toNat).toNat % 1024 = 0 →
      (∀ k : BitVec 2, k ≠ 0 → exec (.suminit k a f) s = .next (i.summarized s (i.counted f.toNat) i.passedFresh
        (.init k.toNat) (i.g.readPair a.toNat).toNat [] f.toNat)) ∧
      (∀ b : BitVec 6, b.toNat % 2 = 0 → i.settled [b.toNat, b.toNat + 1] → (i.g.readPair b.toNat).toNat % 1024 = 0 →
        exec (.summerge a b f) s = .next (i.summarized s (i.counted f.toNat) i.passedFresh
          (.merge (i.g.readPair b.toNat).toNat) (i.g.readPair a.toNat).toNat [] f.toNat))) ∧
    (i.f.chain = none → ∀ (d a b q : BitVec 6), q.toNat ≤ 6 → a.toNat % 2 = 0 →
      (q.toNat ∈ [1, 2, 3] → d.toNat % 2 = 0) → (q.toNat ∈ [0, 2, 3] ∨ b = 0) →
      i.settled [a.toNat, a.toNat + 1, d.toNat, d.toNat + 1, b.toNat] → (i.g.readPair a.toNat).toNat % 1024 = 0 →
        exec (.sumrd d a b q) s = .next (i.summarized s i.g
          { i.f with state := .waiting (.sumrd s.nextId), readySince := none, due := false }
          (.rd q.toNat (i.g.readS b.toNat) d.toNat) (i.g.readPair a.toNat).toNat [] 0))

/-- 14 R306 to R309: NEVAL sends each active lane whose handle names a fitting network, with its inputs, and records a
fault for every other one; it counts against its flag. NBIND and NBIND.REL leave their fibre waiting for the table. 14
R315 to R317: TEX in point mode puts its texel reads in flight and counts against its flag, until they return no
register changes; in neural mode with a handle that names no fitting network it faults every active lane. A descriptor
that breaks R315 raises trap 0x01 with TADDR the number of its first bad register. That a TEX destination beyond the
window counts as register 3 of the descriptor is deduced (log entry 28), and TMASK 0 of that trap is the model's choice
(log entry 61). -/
def Obligations.NetworkAndTexWordsAreSent : Prop :=
  (∀ (s : State) (i : Iss) (m : Mods), i.modified s m →
      (∀ (d a : Fin 192) (h : LReg) (fl : Nat) (st : Option Nat), m.engine [0] → i.countsOn m fl → i.g.board = [] →
        d.val < i.g.window → a.val < i.g.window → useOk i.g.window .src h = true → isQueue h = false →
        i.settled (sCodes [(.src, h)]) → statusField m.c = some st →
        let handle (l : Nat) : Word := readReg i.g i.f h l
        let net (l : Nat) := i.netOf s a.val d.val (handle l)
        ∃ e : Eval, exec (.neval (.v d) (.v a) h) s = .next
            (i.past { s with evals := Table.ins s.evals s.nextId e, nextId := s.nextId + 1 } (i.counted fl)) ∧
          (e.tex = false ∧ e.gid = i.gid ∧ e.core = i.ck ∧ e.ctx = i.k.ctx ∧ e.flag = fl ∧ e.out = d.val ∧ e.status = st ∧
            e.active = i.act m ∧ e.window = (i.k.sample 0x021).toNat % 65536 ∧ e.waiting = e.toPlace.length) ∧
          e.toPlace.map (·.1) = (i.memoryLanes m).filter (fun l => (net l).isSome) ∧
          (∀ p ∈ e.toPlace, ∃ n, net p.1 = some n ∧ p.2.1 = handle p.1 ∧
            p.2.2.1 = (List.range (netIn n.header)).map fun j => i.g.readV (a.val + j) p.1) ∧
          e.faulted = ((i.memoryLanes m).filter fun l => (net l).isNone).map fun l => (l, (handle l).toNat)) ∧
      (i.f.chain = none → ∀ d a : BitVec 6, i.settled [d.toNat, a.toNat, a.toNat + 1] →
        (a.toNat % 2 = 0 → exec (.nbind d a) s = .next (i.waits s (.nbind false (i.g.readPair a.toNat).toNat d.toNat))) ∧
        exec (.nbindRel d a) s = .next (i.waits s (.nbind true (i.g.readS a.toNat).toNat d.toNat)))) ∧
  (∀ (s : State) (i : Iss) (m : Mods) (d c : Fin 192) (x : BitVec 2) (fl : Nat), i.modified s m → m.engine [0] → m.c = .zero →
      i.countsOn m fl → i.g.board = [] → d.val < i.g.window → c.val % 2 = 0 → c.val + 2 ≤ i.g.window →
      i.settled ((List.range 8).map (8 * x.toNat + ·)) →
      let t := texDesc i.g (8 * x.toNat)
      let lanes := i.memoryLanes m
      let texel (l : Nat) : Nat := (t.base + (pointIndex (i.g.readV (c.val + 1) l).toNat t.h * t.w +
        pointIndex (i.g.readV c.val l).toNat t.w) * (4 * t.chans)) % 2 ^ 64
      (∀ n, texBad i.g (8 * x.toNat) (some d.val) t = some n →
        exec (.tex (.v d) (.v c) x) s = .next (takeTrap s i.gid i.fid 0x01 i.f.epc (BitVec.ofNat 64 n) 0 i.f.clause)) ∧
      (texBad i.g (8 * x.toNat) (some d.val) t = none → t.neural = false → i.act m &&& i.g.helpers = 0 →
        (∀ l ∈ lanes, i.unlocked s false false (texel l) (4 * t.chans) ∧ texel l / 128 = (texel l + 4 * t.chans - 1) / 128 ∧
          ∃ p, i.reaches s false (texel l) p) →
        ∃ (u : State) (o : Op) (g : Group), exec (.tex (.v d) (.v c) x) s = .next u ∧ Table.look u.ops s.nextId = some o ∧
          o.kind = .tex ∧ o.dest = .lane (.v d) t.chans ∧ o.size = 4 * t.chans ∧ o.lanes = i.act m ∧ o.flag = fl ∧
          u.mem = s.mem ∧ Table.look u.groups i.gid = some g ∧ i.sameRegisters g ∧ g.flags = (i.counted fl).flags ∧
          Table.look g.fibres i.fid = some i.passed) ∧
      (texBad i.g (8 * x.toNat) (some d.val) t = none → t.neural = true →
        (∀ c', Table.look s.contexts i.k.ctx = some c' → ∀ e, Table.look c'.nets (t.handle.toNat % 1024) = some e → e.bound = false) →
        ∃ e : Eval, exec (.tex (.v d) (.v c) x) s = .next
            (i.past { s with evals := Table.ins s.evals s.nextId e, nextId := s.nextId + 1 } (i.counted fl)) ∧
          e.tex = true ∧ e.flag = fl ∧ e.waiting = 0 ∧ e.faulted = lanes.map fun l => (l, t.handle.toNat)))

/-- 15 R324, R325, R329, R334: SPLAT enters its records' registers and lanes, and SPFLUSH its flush and token. SPTILE
claims the lowest tile that is ready on its die: the tile's coordinates, its pixels and its quads are written, and
acquire(4) is performed; with no frame of its address there, with none flushed, or with every tile of the die claimed it
writes 0xFFFFFFFF and zeros, and acquires too; while a tile is not ready its fibre waits. -/
def Obligations.SplatWordsAreEntered : Prop :=
  ∀ (s : State) (i : Iss) (m : Mods), i.modified s m → i.f.buffer = [] →
    (∀ (k : Fin 192) (f : BitVec 4) (fl : Nat), m.engine [0] → m.c = .zero → i.countsOn m fl → i.fragment k 8 →
      i.settled [2 * f.toNat, 2 * f.toNat + 1] → let va := (i.g.readPair (2 * f.toNat)).toNat
      va % 64 = 0 → framesFull s i.k.ctx va i.g.die = false →
        ∃ o : SplatOp, exec (.splat (.v k) f) s = .next (i.put
            { s with splats := Table.ins s.splats s.nextId o, nextId := s.nextId + 1 }
            (i.withFibre (i.counted fl) i.passedFresh)) ∧
          o.gid = i.gid ∧ o.rec0 = k.val ∧ o.va = va ∧ o.flag = fl ∧ o.taken = false ∧
          ∀ l < 64, o.lanes.getLsbD l = (i.act m &&& ~~~i.g.helpers).getLsbD l) ∧
    (i.f.chain = none → ∀ (d a : BitVec 6), a.toNat % 2 = 0 → let va := (i.g.readPair a.toNat).toNat
      (∀ f : BitVec 4, i.flagRoom f → i.settled [a.toNat, a.toNat + 1, d.toNat] → va % 64 = 0 →
        framesFull s i.k.ctx va i.g.die = false →
        ∃ x : Flush, exec (.spflush d a f) s = .next (i.put
            { s with flushes := Table.ins s.flushes s.nextId x, nextId := s.nextId + 1 }
            (i.withFibre { i.counted f.toNat with tokens := Table.ins i.g.tokens d.toNat s.nextId } i.passedFresh)) ∧
          x.ctx = i.k.ctx ∧ x.va = va ∧ x.die = i.g.die ∧ x.gid = i.gid ∧ x.token = d.toNat ∧ x.flag = f.toNat ∧
          x.reached = [] ∧ x.forwarded = [] ∧ x.tilesDone = []) ∧
      (d.toNat % 4 = 0 → i.settled ([a.toNat, a.toNat + 1] ++ (List.range 4).map (d.toNat + ·)) →
        let free (r : ReadyTile) : Prop := r.claimed = false ∧ (r.wct = 0 ∨ r.wct < gtOf s i.g.die)
        let answers (u : State) (x0 x1 : Word) (q : DWord) : Prop :=
          exec (.sptile d a) s = .next (i.put (acquireL1 u i.ck 4) (i.withFibre
            (((i.g.writeS d.toNat x0).writeS (d.toNat + 1) x1).writePair (d.toNat + 2) q) i.passedFresh))
        ((∀ e, frameOn s i.k.ctx va i.g.die = some e → e.2.flushed = false ∨ ((∀ r ∈ e.2.ready, ¬ free r) ∧
            ∀ t ∈ ownedTiles s i.k.ctx e.2, ∃ r ∈ e.2.ready, r.tile = t ∧ r.claimed = true)) →
          answers s 0xFFFFFFFF 0 0) ∧
        ∀ id fr, frameOn s i.k.ctx va i.g.die = some (id, fr) → fr.flushed = true →
          (∀ r, Table.look s.frames id = some fr → r ∈ fr.ready → free r →
            (∀ x ∈ fr.ready, free x → x = r ∨ r.tile < x.tile) →
            ∃ u, answers u (BitVec.ofNat 32 (r.tile / fdTW fr.desc * 2 ^ 16 + r.tile % fdTW fr.desc))
                (BitVec.ofNat 32 r.pixels.length) r.quads ∧
              Table.look u.frames id = some { fr with
                ready := fr.ready.map fun x => if x.tile = r.tile then { x with claimed := true } else x } ∧
              u.groups = s.groups ∧ u.mem = s.mem ∧ u.l1 = s.l1) ∧
          ((∀ r ∈ fr.ready, ¬ free r) →
            (∃ t ∈ ownedTiles s i.k.ctx fr, ∀ r ∈ fr.ready, r.tile = t → r.claimed = false) →
            exec (.sptile d a) s = .next (i.waits s (.sptile va)))))

/-- 06 R148; 20 R415 to R417: with nothing to release, CSTART queues its command with its flag and token, CARM raises
its counter where its slot runs on the die and passes where none does, CQUERY and CQUERY.STATE leave their fibre waiting
for the answer, and LAUNCH hands its packet to the command processor. -/
def Obligations.CommandWordsAreHandedOver : Prop :=
  ∀ (s : State) (i : Iss) (d a b : BitVec 6) (f n : BitVec 4), i.plain s → i.f.buffer = [] →
    i.settled [a.toNat, a.toNat + 1, b.toNat, d.toNat] →
    (releasePending s i.gid i.fid 4 = false →
      (a.toNat % 2 = 0 → i.flagRoom f → (∀ e ∈ s.cqueue, e.2.gid = i.gid → e.2.fib = i.fid → e.2.held = false) →
        (s.cqueue.filter fun e => e.2.die = i.g.die && decide (e.1 < s.nextId)).length < 64 →
        exec (.cstart d a f) s = .next (i.put
          { s with
              cqueue := Table.ins s.cqueue s.nextId
                { die := i.g.die, ctx := i.k.ctx, va := (i.g.readPair a.toNat).toNat, gid := i.gid, fib := i.fid,
                  flag := f.toNat, token := d.toNat, dens := i.k.sample 0x022, held := false, desc := none, prog := none }
              nextId := s.nextId + 1 }
          (i.withFibre { i.counted f.toNat with tokens := Table.ins i.g.tokens d.toNat s.nextId } i.passedFresh))) ∧
      (let key := i.k.ctx * 16 + (i.g.readS a.toNat).toNat % 16
       (∀ x, runningOn s key i.g.die = some x → exec (.carm a b n) s = .next (i.put
          (updInst s key x.rank fun x => raiseCounter x n.toNat (i.g.readS b.toNat).toNat) (i.withFibre i.g i.passedFresh))) ∧
       (runningOn s key i.g.die = none → exec (.carm a b n) s = .next (i.put s (i.withFibre i.g i.passedFresh)))) ∧
      (a.toNat % 2 = 0 → f.toNat ≤ 12 → (f ≠ 0 → Table.rd i.g.flags 0 f.toNat < 127) →
        (i.g.readPair a.toNat).toNat % 64 = 0 →
        exec (.launch d a b f) s = .next (i.put
          { s with
              launches := Table.ins s.launches s.nextId
                { ident := groupIdent i.g, gid := i.gid, fib := i.fid, ctx := i.k.ctx, va := (i.g.readPair a.toNat).toNat,
                  queue := (i.g.readS b.toNat).toNat, reg := d.toNat, flag := f.toNat }
              nextId := s.nextId + 1 }
          (i.withFibre { (if f = 0 then i.g else i.counted f.toNat) with tokens := Table.ins i.g.tokens d.toNat s.nextId }
            i.passedFresh)))) ∧
    exec (.cquery d a n) s = .next (i.waits s (.cquery ((i.g.readS a.toNat).toNat % 16) (some n.toNat) d.toNat)) ∧
    exec (.cqueryState d a) s = .next (i.waits s (.cquery ((i.g.readS a.toNat).toNat % 16) none d.toNat))

namespace Sys2Proof.Machine

/-! ## Events (04 R85; 07 R153, R163, R166; 09 R192 to R203; 10 R211 to R228) -/

/-- An event happens, and `p` holds of the state after it. -/
def Happens (w : Instr) (s : State) (p : State → Prop) : Prop := ∃ t, exec w s = .next t ∧ p t

/-- The fibre made ready now (07 R163, R166). -/
def Iss.readied (s : State) (i : Iss) (f : Fibre) : Fibre :=
  { f with state := .ready, readySince := some (gtOf s i.g.die), due := false }

/-- What a waiting fibre waits for has come, for the waits after which its word issues again (07 R153, R166). -/
def Iss.waitEnds (s : State) (i : Iss) (w : Wait) : Prop :=
  match w with
  | .flags m => ∀ j : Nat, j < 12 → m.getLsbD j = true → Table.rd i.g.flags 0 (j + 1) = 0
  | .release sc => releasePending s i.gid i.fid sc = false
  | .token k => Table.look i.g.tokens k = none
  | .fetch va => (translateCp s i.k.ctx va).st ∈ [3, 4, 6, 7]
  | .noise n => ∃ xs, drawValues s i.k i.g n = some xs
  | .queue pops push => queuesReady i.k i.b pops push = true
  | .sptile va => tileClaim s i.k.ctx va i.g.die ≠ .wait
  | _ => False

/-- A completion flag of a group lowered by one (02 R44). -/
def Group.lowered (g : Group) (k : Nat) : Group :=
  if k = 0 then g else { g with flags := Table.wr g.flags 0 k (Table.rd g.flags 0 k - 1) }

/-- The state after the return of an operation: it is gone, its destinations are written, those that it wrote before excepted
(04 R85), and its flag is lowered. -/
def Op.returned (o : Op) (id : Nat) (s : State) (g : Group) : State :=
  { s with ops := Table.del s.ops id, groups := Table.ins s.groups o.gid ((g.settled id (o.writeDest id g)).lowered o.flag) }

/-- The bytes of a line that an operation's pieces name lie in the `size` bytes from `off` (11 R233). -/
def Op.within (o : Op) (line off size : Nat) : Prop :=
  ∀ p ∈ o.pieces, ∀ a : Nat, p.addr ≤ a → a < p.addr + p.n → a / 128 = line → off ≤ a % 128 ∧ a % 128 < off + size

/-- Bytes of a line that one fill brings: 16, 32, 64 or 128, aligned (11 R233). -/
def aligned (off size : Nat) : Prop := size ∈ [16, 32, 64, 128] ∧ off % size = 0 ∧ off < 128

/-- A core's L1 has room for a line (09 R186). -/
def l1Fits (s : State) (ck line : Nat) : Prop := (l1Lines s ck).length < 2048 ∨ line ∈ l1Lines s ck

/-- The home of a line holds no update-only permission and no partial of it stands anywhere (09 R202). -/
def lineSettled (s : State) (line : Nat) : Prop := (homeOf s line).holders = [] ∧ partialsOf s line = []

/-- A memory with a fold of an operand into the bytes at an address (09 R202; 11 R243, R245). -/
def foldAt (m : List Host.Cell) (a : Nat) (f : AtomOp) (n b c : Nat) : List Host.Cell :=
  Memory.writeN m a (toBytes n (foldOp f n (ofBytes (Memory.readN m a n)) b c))

/-- The leaf of a page job as memory holds it. -/
def Job.leaf (s : State) (j : Job) : Nat := ofBytes (Memory.readN s.mem j.leafAddr 8)

/-- A memory with a job's leaf written. -/
def Job.leafIn (j : Job) (m : List Host.Cell) (leaf : Nat) : List Host.Cell :=
  Memory.writeN m j.leafAddr (toBytes 8 leaf)

end Sys2Proof.Machine

/-- 04 R85; 07 R153, R163, R166; 10 R218; 17 R359, R360; 18 R367; 02 R52: what happens to fibres and groups between
words. A wait that ends makes the fibre ready at its word; a barrier's wait and SPINH's end past it, the barrier's with
acquire(3); a stalled fibre tries its word again once what holds it has cleared, and not before; FIBRE_DUE marks a fibre
ready for FAIRT; an aborted fibre resumes at its region start once its pages are resident; a pending trap that nothing
holds back is delivered; a released barrier's release flips GEN, clears the phase's arrivals and counts the lanes that
it held back; the scoreboard empties; the clearing of a placed group ends; a group that has starved for STARV takes the
next slot. That a fibre issues its word again after a wait is the model's choice (log entry 33). -/
def Obligations.FibreEventsTakeEffect : Prop :=
  (∀ (s : State) (g f : Nat) (i : Iss), fibreIss s g f = some i →
    (∀ w, i.f.state = .waiting w → i.waitEnds s w →
      exec (.fibreWaitMet g f) s = .next (i.put s (i.withFibre i.g (i.readied s i.f)))) ∧
    (∀ bar gen b, i.f.state = .waiting (.barrier bar gen) → Table.look s.barriers bar = some b → b.gen ≠ gen → i.quiet s →
      exec (.fibreWaitMet g f) s = .next (acquireL1 (i.put s (i.withFibre i.g (i.readied s i.passed))) i.ck 3)) ∧
    (∀ line u, i.f.state = .waiting (.spin line u true) → i.quiet s →
      exec (.fibreWaitMet g f) s = .next (i.put s (i.withFibre i.g (i.readied s i.passed)))) ∧
    (∀ h, i.f.state = .stalled h → exec (.fibreWaitMet g f) s = .next
      (if holdStands s i h then s else i.put s (i.withFibre i.g { i.f with state := .ready }))) ∧
    (∀ line u, i.f.state = .waiting (.spin line u false) → u ≤ gtOf s i.g.die → i.quiet s → (g, line) ∉ s.helps →
      exec (.spinhTimeout g f) s =
        .next { i.put s (i.withFibre i.g (i.readied s i.passed)) with helps := (g, line) :: s.helps }) ∧
    (∀ t, (i.f.state = .ready ∨ ∃ h, i.f.state = .stalled h) → i.f.readySince = some t → i.k.prog = true →
      t + (i.k.sample 0x013).toNat ≤ gtOf s i.g.die →
        exec (.fibreDue g f) s = .next (i.put s (i.withFibre i.g { i.f with due := true }))) ∧
    (∀ tr rest, i.f.state = .waiting .trap → i.f.traps = tr :: rest → tr.cause ≠ 0x0A → i.f.buffer = [] → i.tvec ≠ 0 →
      (∀ e ∈ i.g.fibres, e.2.handler = none) → (∀ e ∈ i.g.fibres, e.1 ≠ f → e.2.traps = []) → i.f.handler = none →
        exec (.trapDelivery g f) s = .next (i.put s (i.withFibre
          { i.g with tcause := BitVec.ofNat 32 tr.cause, tepc := tr.epc, taddr := tr.addr, tmask := tr.mask }
          (i.readied s { i.f with
            traps := rest, handler := some i.f.stack.length, pc := i.tvec, clause := none, chain := none, branch := none
            trapClause := tr.clause, buffer := [], fresh := true })))) ∧
    (∀ pages, i.f.state = .aborted pages → (∀ p ∈ pages, p.2.2 = false ∧
        ((translateCp s i.k.ctx p.1).st ∈ [3, 4, 7] ∨ p.2.1 = true ∧ (translateCp s i.k.ctx p.1).st = 6)) →
      exec (.abortedFibreResume g f) s = .next (i.put s (i.withFibre i.g (i.readied s i.f))))) ∧
  (∀ (s : State) (bar : Nat) (b : Barrier), Table.look s.barriers bar = some b → b.state = .released →
    Table.wf b.held 0 = true →
    (∀ k c, b.level = 3 → Table.look s.kernels b.kernel = some k → Table.look s.contexts k.ctx = some c →
      ∀ e ∈ barrierMembers s b, pathHeld s c.part e.2.die = false) →
    ∃ t b', exec (.barrierRelease bar) s = .next t ∧ Table.look t.barriers bar = some b' ∧ b'.gen = !b.gen ∧
      b'.held = [] ∧ t.mem = s.mem ∧ (b.level ≠ 0 → b'.covered = b.held) ∧
      (b.level = 0 → if (barrierMembers s b).any (fun e => linkPending e.2 bar) = true ∧ b.held ≠ []
        then b'.covered = [] ∧ b'.linked = b.held else ∀ x : Nat, b'.coveredBy x = Table.rd b.held 0 x) ∧
      (∀ x g, Table.look s.groups x = some g → ∃ l, Table.look t.groups x = some { g with links := l }) ∧
      ((∀ e ∈ b.held, e.2 = 0) → b'.state = .idle)) ∧
  (∀ (s : State) (g : Nat) (x : Group), groupAt s g = some x →
    exec (.scoreboardWriteComplete g) s = .next (setGroup s g { x with
      board := []
      fibres := x.fibres.map fun e => if e.2.state.onBoard then (e.1, { e.2 with state := .ready }) else e }) ∧
    (x.state = .resident → exec (.clearingComplete g) s = .next (setGroup s g { x with clearing := false })) ∧
    (∀ k e t, kernelAt s x.kernel = some k → x.state = .begun → e ∈ x.fibres → e.2.state = .ready →
      e.2.readySince = some t → max t x.lastIssue + starvOf s k.ctx ≤ gtOf s x.die →
        exec (.starvIssue g) s = .next (setGroup s g { x with starved := true })))

/-- 09 R192, R193, R197; 11 R234, R238, R243, R246, R251, R252: an access whose bytes have all come returns. A load, a
scratchpad load and a uniform load write their destinations and lower their flag; a returning atomic does once each lane
has been applied; LCPY writes the scratchpad, zeros after a lane's valid bytes. A fill takes its line's bytes from the
home, with the lease of its scope, reaches the access in the order in which its home sent it, unless its group has left
its slot, and is kept in the L1 where nothing covers it; what the L1 holds at scope 0 or 1 stands in it; a lease ends
when the die's GT reaches it. Registers that were not written early change together when the instruction completes (log
entry 4). -/
def Obligations.AccessEventsTakeEffect : Prop :=
  (∀ (s : State) (id : Nat) (o : Op) (g : Group), Table.look s.ops id = some o → groupAt s o.gid = some g →
    addressed s o.gid o.ident = true → o.acquire = false →
    (o.complete = true → o.kind = .load → exec (.loadReturn id) s = .next (o.returned id s g)) ∧
    (o.complete = true → o.kind = .lds → exec (.ldsReturn id) s = .next (o.returned id s g)) ∧
    (o.complete = true → o.kind = .sld → exec (.sldReturn id) s = .next (o.returned id s g)) ∧
    (o.kind = .atomic ∨ o.kind = .satom → atomicPending s id = false →
      exec (.atomicReturn id) s = .next (o.returned id s g)) ∧
    (o.complete = true → o.kind = .tex → Table.look s.evals id = none →
      exec (.texComplete id) s = .next { s with
        ops := Table.del s.ops id, groups := Table.ins s.groups o.gid ((g.settled id (o.writeTex g)).lowered o.flag) }) ∧
    (∀ b c, o.complete = true → o.kind = .lcpy → blockAt s g.block = some b → o.copies = [c] →
      let b' := b.writeN c.2.1 (o.laneBytes c.1 c.2.2 ++ List.replicate (32 - c.2.2) 0)
      exec (.lcpyComplete id) s = .next (o.returned id { s with blocks := Table.ins s.blocks g.block b' } g))) ∧
  (∀ (o : Op) (id : Nat) (g : Group) (k : Fin 192) (l : Nat), o.dest = .lane (.v k) 1 → Table.wf g.v 0 = true → l < 64 →
    (o.writeDest id g).readV k.val l = (if o.lanes.getLsbD l = true then BitVec.ofNat 32 (o.laneValue l)
      else if o.zero.getLsbD l = true then 0 else g.readV k.val l)) ∧
  (∀ (s : State) (id : Nat) (o : Op), Table.look s.ops id = some o → addressed s o.gid o.ident = false → o.complete = true →
    o.kind = .load → Happens (.loadReturn id) s fun t =>
      t.ops = Table.del s.ops id ∧ t.groups = s.groups ∧ t.mem = s.mem) ∧
  (∀ (s : State) (op line : Nat) (o : Op) (p : Piece) (g : Group) (k : Kernel), (∀ q ∈ o.pieces, 0 < q.n) →
    Table.look s.ops op = some o → fillable s op o line = true → lineSettled s line →
    o.pieces.find? (fun p => p.addr / 128 = line || (p.addr + p.n - 1) / 128 = line) = some p →
    groupAt s o.gid = some g → kernelAt s g.kernel = some k → requestWaits s op o.core o.ctx (line * 128) = false →
      let leased : Bool := p.cache && decide (2 ≤ p.scope) && decide (leaseOf k p.scope ≠ 0)
      Happens (.homeFill op line) s fun t =>
        t.mem = s.mem ∧ t.groups = s.groups ∧ t.ops = s.ops ∧ t.l1 = s.l1 ∧
        ∃ off size, aligned off size ∧ o.within line off size ∧
          (∀ off' size', aligned off' size' → o.within line off' size' → size ≤ size') ∧
          Table.look t.fills s.nextId = some
            { op, ident := o.ident, core := o.core, ctx := o.ctx, line, off, bytes := Memory.readN s.mem (line * 128 + off) size
              scope := p.scope
              expiry := if leased then gtOf s (homeDie s o.ctx (line * 128)) + leaseOf k p.scope else 0
              keep := p.cache && (leased || decide (p.scope ≤ 1)), owner := if p.scope = 0 then some o.gid else none
              served := s.nextId }) ∧
  (∀ (s : State) (id : Nat) (f : Fill) (o : Op), Table.look s.fills id = some f → Table.look s.ops f.op = some o →
    let base := f.line * 128 + f.off
    let mine (e : Nat × L1Byte) : Prop := e.1 / 2 ^ 48 = f.core ∧ e.1 % 2 ^ 48 / 128 = f.line
    let u : State := if f.scope ≤ 1 then l1Touch s f.core o.gid (f.line * 128) else s
    responseWaits s id f.core f.ctx (f.line * 128) = false →
    (slotHolds s f.ident = false → Happens (.fillInstall id) s fun t =>
      t.fills = Table.del s.fills id ∧ t.ops = Table.del s.ops f.op ∧ t.groups = s.groups ∧ t.l1 = s.l1 ∧ t.mem = s.mem) ∧
    (slotHolds s f.ident = true → l1Fits s f.core f.line → Happens (.fillInstall id) s fun t =>
      t.fills = Table.del s.fills id ∧ t.mem = s.mem ∧ t.groups = s.groups ∧
      Table.look t.ops f.op = some (o.capture fun a => if base ≤ a then (f.bytes[a - base]?).map fun x =>
        if f.scope ≤ 1 then ((l1Serves u f.core a).map (·.val)).getD x else x else none) ∧
      (f.keep = false → 2 ≤ f.scope → ∀ e, e ∈ t.l1 ↔ e ∈ s.l1 ∧ ¬ (e.1 / 2 ^ 48 = f.core ∧ base ≤ e.1 % 2 ^ 48 ∧
        e.1 % 2 ^ 48 < base + f.bytes.length ∧ 2 ≤ e.2.scope ∧ e.2.served < f.served)) ∧
      (f.keep = true → (∀ e ∈ s.l1, mine e → 2 ≤ e.2.scope ∧ e.2.owner = none) →
        ∀ (j : Nat) (x : Byte), f.bytes[j]? = some x → l1At s f.core (base + j) = none →
          l1At t f.core (base + j) = some
            { val := x, scope := f.scope, expiry := f.expiry, dirty := false, owner := f.owner, ctx := f.ctx
              served := f.served }))) ∧
  (∀ (s : State) (core line : Nat), exec (.leaseExpiry core line) s =
    .next { s with l1 := s.l1.filter fun e => !(decide (e.1 / 2 ^ 48 = core) &&
      decide (e.1 % 2 ^ 48 / 128 = line ∧ 2 ≤ e.2.scope ∧ e.2.expiry ≤ gtOf s (coreDie core))) })

/-- 09 R191, R194, R197, R202, R203; 13 R290; 11 R243 to R247: what happens at a line's home. A write is applied with
its WCT, the later of the die's GT and the line's latest lease expiry plus 4; the acknowledgement brings the WCT to the
fibre; an atomic is applied with its old value; a reduction's core becomes a holder and folds it; a partial sent home is
folded; a recall folds a holder's partial and ends its permission; a hold is given up; an evicted line leaves the L1,
its dirty bytes written and its partials sent. -/
def Obligations.HomeEventsTakeEffect : Prop :=
  (∀ (s : State) (id : Nat) (w : Write) (bs : List Byte), Table.look s.writes id = some w → w.kind = .store bs →
    applicable s id w = true → lineSettled s (w.addr / 128) → (∀ l ∈ linesOf w.addr bs.length, badLine s l = false) →
    s.memoryForm → requestWaits s id w.core w.ctx w.addr = false →
    Happens (.homeWriteApply id) s fun t =>
      (∃ m, s.nextId ≤ m ∧ Table.look t.writes id = some { w with
        replied := m
        wct := some (max (gtOf s (homeDie s w.ctx w.addr)) ((homeOf s (w.addr / 128)).eMax + 4)) }) ∧
      (∀ (j : Nat) (x : Byte), bs[j]? = some x → Memory.read t.mem (w.addr + j) = x) ∧
      (∀ a : Nat, a < w.addr ∨ w.addr + bs.length ≤ a → Memory.read t.mem a = Memory.read s.mem a)) ∧
  (∀ (s : State) (id op lane n : Nat) (f : AtomOp) (b c : DWord) (w : Write), Table.look s.writes id = some w →
    w.kind = .atomic op lane f n b c → applicable s id w = true → lineSettled s (w.addr / 128) →
    requestWaits s id w.core w.ctx w.addr = false →
    Happens (.homeWriteApply id) s fun t =>
      t.mem = foldAt s.mem w.addr f n b.toNat c.toNat ∧
      (∃ m, s.nextId ≤ m ∧ Table.look t.writes id = some { w with
        replied := m
        wct := some (max (gtOf s (homeDie s w.ctx w.addr)) ((homeOf s (w.addr / 128)).eMax + 4)) }) ∧
      (∀ o, Table.look s.ops op = some o → ∃ o', Table.look t.ops op = some o' ∧
        ∀ j : Nat, j < n → Table.look o'.got (gotKey lane 0 + j) = some (Memory.read s.mem (w.addr + j)))) ∧
  (∀ (s : State) (id v fid : Nat) (w : Write) (g : Group) (x : Fibre), Table.look s.writes id = some w → w.wct = some v →
    groupAt s w.gid = some g → Table.look g.fibres fid = some x → fid ∈ w.fibs →
    responseWaits s w.replied w.core w.ctx w.addr = false →
    Happens (.writeAck id) s fun t =>
      t.writes = Table.del s.writes id ∧ t.mem = s.mem ∧
      (∀ k, kernelAt s w.kernel = some k → ∃ k', kernelAt t w.kernel = some k' ∧ k'.wct = max k.wct v) ∧
      fibreAt t w.gid fid = some { x with wct := Table.ins x.wct w.scope (max v (Table.rd x.wct 0 w.scope)) }) ∧
  (∀ (s : State) (id ty n : Nat) (f : AtomOp) (b : DWord) (w : Write), Table.look s.writes id = some w →
    w.kind = .reduce f ty n b → applicable s id w = true → Table.wf s.homes HomeLine.blank = true →
    (l1Lines s w.core).length < 2048 → (∀ e ∈ s.partials, ¬(e.2.core = w.core ∧ e.2.addr = w.addr)) →
    requestWaits s id w.core w.ctx w.addr = false →
    let grant := max (gtOf s (homeDie s w.ctx w.addr)) ((homeOf s (w.addr / 128)).eMax + 4)
    Happens (.updateOnlyGrant id) s fun t =>
      t.mem = s.mem ∧
      Table.look t.partials s.nextId = some
        { core := w.core, addr := w.addr, op := f, ty, width := n, val := b, sent := false, ctx := w.ctx } ∧
      ((∀ h ∈ (homeOf s (w.addr / 128)).holders, h.1 ≠ w.core) →
        (w.core, grant) ∈ (homeOf t (w.addr / 128)).holders ∧
        ∃ m, s.nextId ≤ m ∧
          Table.look t.writes id = some { w with replied := m, wct := some (max grant (gtOf s (coreDie w.core))) }) ∧
      ∀ v, grantOf s w.core (w.addr / 128) = some v → t.homes = s.homes ∧
        ∃ m, s.nextId ≤ m ∧
          Table.look t.writes id = some { w with replied := m, wct := some (max v (gtOf s (coreDie w.core))) }) ∧
  (∀ (s : State) (id : Nat) (p : Partial), Table.look s.partials id = some p → p.sent = true →
    (∀ e ∈ s.partials, e.1 < id → e.2.sent = true → e.2.core = p.core → e.2.addr / 128 ≠ p.addr / 128) →
    (homeOf s (p.addr / 128)).hold = none → poisoned s p.addr = false →
    underWay s 0 id (p.addr / 128) (coreDie p.core) (homeDie s p.ctx p.addr) = false →
    Happens (.partialFold id) s fun t =>
      t.mem = foldAt s.mem p.addr p.op p.width p.val.toNat 0 ∧ t.partials = Table.del s.partials id) ∧
  (∀ (s : State) (line : Nat), (homeOf s line).recalling = true → Table.wf s.homes HomeLine.blank = true →
    recallHeld s line = false →
    (∀ id p, (homeOf s line).holders ≠ [] → partialsOf s line = [(id, p)] → poisoned s p.addr = false →
      Happens (.recallReply line) s fun t =>
        homeOf t line = { homeOf s line with holders := [], recalling := false, hold := none } ∧
        t.mem = foldAt s.mem p.addr p.op p.width p.val.toNat 0 ∧ t.partials = Table.del s.partials id)) ∧
  (∀ (s : State) (line op : Nat), (homeOf s line).hold = some op → Table.wf s.homes HomeLine.blank = true →
    Happens (.holdRecall line) s fun t => homeOf t line = { homeOf s line with hold := none } ∧ t.mem = s.mem) ∧
  (∀ (s : State) (core line : Nat), Happens (.l1Eviction core line) s fun t =>
    (∀ e ∈ t.l1, ¬(e.1 / 2 ^ 48 = core ∧ e.1 % 2 ^ 48 / 128 = line)) ∧
    (∀ e ∈ t.partials, e.2.core = core → e.2.addr / 128 = line → e.2.sent = true) ∧
    t.mem = (l1WriteBack s core fun k _ => decide (k / 128 = line)).2.mem)

/-- 10 R211, R216, R222 to R228: what happens to pages. A walk's leaf in STATE 3, 4, 6 or 7 enters the core's TLB; a
staged page is in a free frame of the pool, in STATE 3, and the frame's entry is used; an evicted page is in STATE 1 and
its frame free; a collapsed page is in STATE 3, writable, with REPL 0; a page that migrates is in STATE 6 with a copy in
the new frame, and in STATE 3 with that frame once GT has passed the copy's WCT; an uncorrectable error poisons its
line; the counters of hotness halve at each millisecond. That a frame moves only while nothing is on its way to it, that
the oldest entry of a full TLB gives way, and which frame a migration takes are the model's choices (log entries 7, 12
and 23). -/
def Obligations.PageEventsTakeEffect : Prop :=
  (∀ (s : State) (core ctx va : Nat), va < 2 ^ 56 → (coreRanges s core ctx).isSome = true →
    rangePage s ctx va ((coreRanges s core ctx).getD []) = none → (∀ e ∈ s.tlb, ¬(e.core = core ∧ e.ctx = ctx ∧ e.va ≤ va ∧ va < e.va + 2 ^ e.size)) → (walk s ctx va).st ∈ [3, 4, 6, 7] →
    Happens (.pageWalk core ctx va) s fun t =>
      t.mem = s.mem ∧ t.groups = s.groups ∧ t.contexts = s.contexts ∧ t.homes = s.homes ∧ t.l1 = s.l1 ∧
      t.tlb = { core, ctx, va := (walk s ctx va).va, size := (walk s ctx va).sz,
                leaf := BitVec.ofNat 64 (walk s ctx va).leaf } :: ((s.tlb.filter fun e => e.core = core).take 2047 ++
        s.tlb.filter fun e => e.core ≠ core)) ∧
  (∀ (s s' : State) (id pool d0 d1 : Nat) (j : Job), Table.look s.jobs id = some j → j.kind = .stage →
    (jobPage s j).leafAddr = some j.leafAddr → bits (j.leaf s) 63 61 = 2 →
    leafSound s j.ctx (j.leaf s) (jobPage s j).sz false = true → (jobPage s j).repl = false →
    pinned s (physKey (jobPage s j).tier (jobPage s j).frame) j.size = false →
    let u := touchPool s j.ctx j.die
    freeFrame u j.ctx (jobPage s j) = some (pool, d0, d1) → latestExpiry u (bits d0 45 16 * 2 ^ 16) j.size = 0 →
    copyFrame (copyTouch u j.ctx j.die (physKey (jobPage s j).tier (jobPage s j).frame) j.size) (physKey (jobPage s j).tier (jobPage s j).frame) (bits d0 45 16 * 2 ^ 16) j.size = some s' →
    Happens (.stagingDone id) s fun t =>
      t.mem = j.leafIn (writePool s' j.ctx pool (d0 + 4) (backingBits (j.leaf s))).mem
        (withState (withBacking (j.leaf s) (bits d0 45 16 * 2 ^ 16)) 3) ∧ t.jobs = Table.del s'.jobs id) ∧
  (∀ (s s' : State) (id d0 d1 : Nat) (j : Job), Table.look s.jobs id = some j → j.kind = .evict →
    (poolEntries s j.ctx).find? (fun e => e.1 = j.pool) = some (j.pool, d0, d1) →
    let u := flushFrame s j.frame j.size
    let back := physKey (bits d1 51 50) (bits d1 45 16 * 2 ^ 16)
    writeBackLines u j.ctx j.die j.frame back (if mayWriteBack u j.ctx back j.size then
      u.written.filter fun l => decide (j.frame ≤ l * 128 ∧ l * 128 < j.frame + j.size) else []) = some s' →
    Happens (.evictionDone id) s fun t =>
      t.mem = j.leafIn (writePool s' j.ctx j.pool (d0 - bits d0 2 2 * 4) d1).mem (withState (withBacking (j.leaf s) d1) 1) ∧
      t.jobs = Table.del s'.jobs id) ∧
  (∀ (s : State) (id : Nat) (j : Job), Table.look s.jobs id = some j → j.kind = .collapse → bits (j.leaf s) 63 61 = 5 →
    (∀ k ∈ copyKeys s j.ctx j.frame, frameQuiet s k j.size = true) →
    max j.wct (maxOf ((copyKeys s j.ctx j.frame).map fun k => latestExpiry s k j.size) + 4) < gtOf s j.die →
    Happens (.collapseDone id) s fun t =>
      ∃ leaf, t.mem = j.leafIn s.mem leaf ∧ bits leaf 63 61 = 3 ∧ bits leaf 57 57 = 1 ∧ bits leaf 52 52 = 0 ∧
        bits leaf 45 0 = bits (j.leaf s) 45 0 ∧ t.jobs = Table.del s.jobs id) ∧
  (∀ (s s' : State) (ctx va die frame la : Nat) (p : Pg), translateCp s ctx va = p → p.leafAddr = some la → p.st = 3 →
    p.tier = 0 → p.ilv = false → bits p.leaf 15 15 = 1 → notified s p.frame (2 ^ p.sz) die = true →
    die ∈ ctxRanks s ctx → frame / 2 ^ 36 = die → frame % 2 ^ p.sz = 0 → frame ≠ p.frame →
    frameQuiet s p.frame (2 ^ p.sz) = true → pinned s p.frame (2 ^ p.sz) = false → mayWriteRun s ctx frame (2 ^ p.sz) = true →
    (∀ q ∈ pagesOf s ctx, q.meets s ctx frame (2 ^ p.sz) = false) →
    let u := flushFrame s p.frame (2 ^ p.sz)
    copyFrame (copyTouch (copyTouch u ctx (p.master u ctx) p.frame (2 ^ p.sz)) ctx (p.master u ctx) frame (2 ^ p.sz))
      p.frame frame (2 ^ p.sz) = some s' →
    Happens (.migrationBegin ctx va die frame) s fun t =>
      t.mem = Memory.writeN s'.mem la (toBytes 8 (withState p.leaf 6)) ∧
      ∃ j, Table.look t.jobs s'.nextId = some j ∧ j.kind = .migrate ∧ j.frame = frame ∧ j.leafAddr = la ∧
        gtOf s' die ≤ j.wct) ∧
  (∀ (s : State) (id : Nat) (j : Job), Table.look s.jobs id = some j → j.kind = .migrate → bits (j.leaf s) 63 61 = 6 →
    j.wct < gtOf s j.die →
    Happens (.migrationDone id) s fun t =>
      t.mem = j.leafIn s.mem (withState (j.leaf s - bits (j.leaf s) 45 16 * 2 ^ 16 + j.frame) 3) ∧
      t.jobs = Table.del s.jobs id) ∧
  (∀ (s : State) (line : Nat), (∀ x ∈ allPages s, x.2.covers s x.1 line = false) →
    Happens (.uncorrectableError line) s fun t => line ∈ t.poison ∧ t.mem = s.mem ∧ t.groups = s.groups) ∧
  (∀ (s : State) (die : Nat) (d : Die), dieAt s die = some d → d.halved < d.gt / 1000000 →
    Happens (.hotnessHalve die) s fun t => ∃ d', dieAt t die = some d' ∧ d'.halved = d.halved + 1 ∧
      (d'.hot.map fun h => (h.block, h.ctr)) = d.hot.map fun h => (h.block, h.ctr.map fun c => (c.1, c.2 / 2)))

namespace Sys2Proof.Machine

/-! ## Events of the engines of a core (09 R206 to R210; 12 R264 to R283; 13 R290 to R300) -/

/-- An element of a tile as a group names it (12 R264, R265). -/
def tileAt (s : State) (k : Kernel) (g : Group) (t i j : Nat) : Word :=
  Table.rd (accTable s k g) 0 (accKey k g t i j)

/-- A tile operation whose event may come now: it stands in its group's queue, no earlier operation of the queue touches a
tile of it, and no ACCWR or ACCZ waits (12 R276). -/
def Group.turn (g : Group) (o : TileOp) (id : Nat) : Prop :=
  g.tileOps.find? (fun x => x.id = id) = some o ∧ tileFree g.tileOps o = true ∧ ∀ x ∈ g.tileOps, x.silent = false

/-- A group after an operation of its queue is complete: the operation is gone and its flag lowered. -/
def Group.without (g : Group) (o : TileOp) : Group :=
  { g with tileOps := g.tileOps.filter fun x => x.id ≠ o.id }.lowered o.flag

/-- What one MMA adds to an element of a tile (12 R271): the old value and the four chunks' products, the lower half of
the inner dimension first. -/
def mmaElement (ta tb : Nat) (a b : Table Word) (x : Word) (i j : Nat) : Word :=
  let va (n : Nat) : List Ext := chunkValues ta (chunkOf a ta 0 n)
  let vb (n : Nat) : List Ext := chunkValues tb (chunkOf b tb (n / 64 * chunkStride tb) (n % 64))
  BitVec.ofNat 32 (macBlock (macBlock x.toNat ((va i).zip (vb j))) ((va (i + 32)).zip (vb (j + 64))))

/-- A summary operation of a group applied, with a status if it failed. -/
def summaryApplied (t : State) (gid id w : Nat) (st : Option (Nat × Nat)) : Prop :=
  ∃ g o, groupAt t gid = some g ∧ o ∈ g.sumOps ∧ o.id = id ∧ o.applied = some w ∧ o.status = st

/-- A step on a quantile summary whose object and source have been read, at `s'`: where the halfwords that it draws are there, they
are drawn (13 R299) and the summary that they give is written. -/
def drawnStep (s s' : State) (gid : Nat) (g : Group) (k : Kernel) (o : SumOp) (after : State → Quant) : Prop :=
  let u := openDraws k g (fun u => (after u).pos) 16384 0 s'
  (drawAny u k g (after u).pos).isSome = true →
    let w := writeObject (commitDraws u gid (after u).pos) (coreKey g.die g.core) gid k.ctx o.va (after u).bytes
    ∃ t, exec (.summaryStep gid o.id) s = .next t ∧ t.mem = w.2.mem ∧ summaryApplied t gid o.id w.1 none

end Sys2Proof.Machine

/-- 09 R208 to R210; 11 R254, R263: a Porter command that may start and whose reads and writes meet no page or poison
that stops it makes all its writes, and keeps their latest WCT; it completes once GT has passed it, when its token is
written with status and detail, its flag lowered and its ranges released. That a command moves its bytes in one step is
the model's choice (log entry 3). -/
def Obligations.PorterEventsTakeEffect : Prop :=
  (∀ (s s' : State) (id : Nat) (c : PorterCmd) (xs : List Xfer), Table.look s.porter id = some c → c.started = false →
    porterMayStart s id c = true → porterWrites s id c = (.ok xs, s') →
    (∀ x ∈ xs, x.scratch = false → meetEngine s' c.ctx (coreDie c.core) x.rng x.addr x.bytes.length true = none) →
    Happens (.porterStart id) s fun t => t.mem = (applyXfers s' c xs).2.mem ∧ t.blocks = (applyXfers s' c xs).2.blocks ∧
      Table.look t.porter id =
        some { c with started := true, status := 0, info := 0, failAddr := 0, wct := (applyXfers s' c xs).1 }) ∧
  (∀ (s : State) (id : Nat) (c : PorterCmd) (b : Block), Table.look s.porter id = some c → c.started = false →
    porterMayStart s id c = true → c.op = .fill → porterEmpty c.op c.d = false → bits (descAt c.d 5) 1 1 = 1 →
    blockAt s c.block = some b → Table.wf b.scratch 0 = true →
    Happens (.porterStart id) s fun t => ∃ b', blockAt t c.block = some b' ∧ b'.size = b.size ∧ t.mem = s.mem ∧
      ∀ a : Nat, b'.readByte a = if descAt c.d 0 ≤ a ∧ a < descAt c.d 0 + descAt c.d 4 ∧ a < b.size
        then BitVec.ofNat 8 (descAt c.d 2 / 2 ^ (8 * (a % 4))) else b.readByte a) ∧
  (∀ (s : State) (id : Nat) (c : PorterCmd) (g : Group), Table.look s.porter id = some c → c.started = true →
    (c.wct = 0 ∨ c.wct < gtOf s (coreDie c.core)) → groupAt s c.gid = some g →
    (c.token ≠ none ∨ c.status = 0) →
    Happens (.porterComplete id) s fun t => t.porter = Table.del s.porter id ∧ t.mem = s.mem ∧
      ∃ g', groupAt t c.gid = some g' ∧ g'.flags = (g.lowered c.flag).flags ∧ g'.fibres = g.fibres ∧ g'.v = g.v ∧
        (∀ k, c.token = some k → g'.s = (g.writeS k (BitVec.ofNat 32 (c.status * 2 ^ 28 + c.info))).s ∧
          g'.tokens = g.tokens.filter fun e => decide (e.2 ≠ id)) ∧
        (c.token = none → g'.s = g.s ∧ g'.tokens = g.tokens))

/-- 12 R271 to R276: an MMA adds the products of its fragments to each element of its tile; ACCRD puts eight rows of a
tile into registers of its active lanes, zero in those it zeroes, where it has written none of them before; ACCLD fills
a tile from the scratchpad row by row, NaNs made canonical, and ACCST writes it there; each leaves every other element
as it was, and then its flag is lowered. 12 R278 to R282: the four members' MLOOPs meet where they stand at the same
place of their sequences. Where they agree in steps and types, each takes the members' quarters, the registers of each
with its own base, and the scratchpad as they are; where they do not, no step runs, and each is done and its group owes
trap 0x01. A started MLOOP runs its steps over its member's tiles. That operands are taken when a loop starts, and that
a tile operation and all steps of a loop are applied at one instant, are the model's choices (log entries 3 and 14). -/
def Obligations.TileAndLoopEventsTakeEffect : Prop :=
  (∀ (s : State) (gid id : Nat) (g : Group) (k : Kernel) (b : Block) (o : TileOp), groupAt s gid = some g →
      kernelAt s g.kernel = some k → blockAt s g.block = some b → g.turn o id → g.links = [] →
      Table.wf (accTable s k g) 0 = true →
      Table.wf g.v 0 = true → Table.wf g.o 0 = true → Table.wf b.scratch 0 = true →
      let queueAfter (t : State) (g' : Group) : Prop := groupAt t gid = some g' ∧ t.mem = s.mem ∧
        g'.flags = (g.without o).flags ∧ g'.tileOps = (g.without o).tileOps ∧ g'.fibres = g.fibres
      let tilesAfter (t : State) (g' : Group) (f : Nat → Nat → Word) : Prop :=
        ∀ u i j : Nat, i < 32 → j < 64 → tileAt t k g' u i j = if u = o.tile then f i j else tileAt s k g u i j
      (∀ ta tb x y, o.kind = .mma ta tb x y → ∃ t g', exec (.mmaComplete gid id) s = .next t ∧ queueAfter t g' ∧
        g'.v = g.v ∧ tilesAfter t g' fun i j => mmaElement ta tb x y (tileAt s k g o.tile i j) i j) ∧
      (∀ reg rowg lanes zero, o.kind = .accrd reg rowg lanes zero → (∀ e ∈ g.landed, e.1 ≠ id) →
        ((∃ n : Fin 192, reg = .v n ∧ n.val + 8 ≤ 192) ∨ ∃ n : Fin 16, reg = .o n ∧ n.val + 8 ≤ 16) →
        ∃ t g', exec (.accrdComplete gid id) s = .next t ∧ queueAfter t g' ∧ g'.acc = g.acc ∧ t.blocks = s.blocks ∧
          ∀ (x : Fibre) (i l : Nat), i < 8 → l < 64 → readReg g' x (regPlus reg i) l =
            if lanes.getLsbD l = true then tileAt s k g o.tile (8 * rowg + i) l
            else if zero.getLsbD l = true then 0 else readReg g x (regPlus reg i) l) ∧
      (∀ off, o.kind = .accld off → ∃ t g', exec (.accMoveComplete gid id) s = .next t ∧ queueAfter t g' ∧ g'.v = g.v ∧
        tilesAfter t g' fun i j => canonical (BitVec.ofNat 32 (ofBytes (b.readN (off + 256 * i + 4 * j) 4)))) ∧
      (∀ off, o.kind = .accst off → ∃ t g' b', exec (.accMoveComplete gid id) s = .next t ∧ queueAfter t g' ∧
        g'.acc = g.acc ∧ blockAt t g.block = some b' ∧ b'.size = b.size ∧ b'.shared = b.shared ∧
        ∀ a : Nat, a < b.size → b'.readByte a = if off ≤ a ∧ a < off + 8192
          then BitVec.ofNat 8 ((tileAt s k g o.tile ((a - off) / 256) ((a - off) / 4 % 64)).toNat / 2 ^ (8 * ((a - off) % 4)))
          else b.readByte a)) ∧
  ((∀ (s : State) (block quartet q : Nat) (b : Block) (hs : List (Nat × Group × TileOp)),
      quartetHeads s block quartet = hs → hs.length = 4 → blockAt s block = some b →
      (hs.map fun h => h.1).Nodup → (∀ h ∈ hs, groupAt s h.1 = some h.2.1) →
      (∀ h ∈ hs, loopWaiting h.2.2 = some q) → (∀ h ∈ hs, ∀ x ∈ h.2.1.tileOps, x.silent = false) →
      (∀ h ∈ hs, h.2.1.links = []) →
      ((∀ h ∈ hs, ∀ h' ∈ hs, loopShape h.2.2 = loopShape h'.2.2) →
        Happens (.mloopStart block quartet) s fun t => t.mem = s.mem ∧ t.blocks = s.blocks ∧ ∀ h ∈ hs, ∃ g',
          groupAt t h.1 = some g' ∧ g'.v = h.2.1.v ∧ g'.acc = h.2.1.acc ∧ g'.flags = h.2.1.flags ∧
          ∀ x0 x1 x2, h.2.2.kind = .mloop x0 x1 x2 q none → ∃ x ∈ g'.tileOps, x.id = h.2.2.id ∧
            x.kind = .mloop x0 x1 x2 q (some (hs.map quarterOf, b.scratch))) ∧
      ((∃ h ∈ hs, ∃ h' ∈ hs, loopShape h.2.2 ≠ loopShape h'.2.2) →
        Happens (.mloopStart block quartet) s fun t => t.mem = s.mem ∧ t.blocks = s.blocks ∧ ∀ h ∈ hs, ∃ g',
          groupAt t h.1 = some g' ∧ g'.acc = h.2.1.acc ∧ (∀ x ∈ g'.tileOps, x.id ≠ h.2.2.id) ∧
          g'.flags = (h.2.1.lowered h.2.2.flag).flags ∧ g'.fibres = h.2.1.fibres ∧
          g'.owed = h.2.1.owed ++ [{ flag := h.2.2.flag, cause := 0x01, addr := 0, mask := 0 }])) ∧
    (∀ (s : State) (gid id q : Nat) (g : Group) (k : Kernel) (b : Block) (o : TileOp) (x0 x1 x2 : Word)
      (qs : List Quarter) (pad : Table Byte), groupAt s gid = some g → kernelAt s g.kernel = some k →
      blockAt s g.block = some b → g.turn o id → g.links = [] → o.kind = .mloop x0 x1 x2 q (some (qs, pad)) →
      Happens (.mloopComplete gid id) s fun t => ∃ g', groupAt t gid = some g' ∧ t.mem = s.mem ∧
        accTable t k g' = applyLoop x0 x1 x2 qs pad b.size k g (accTable s k g) ∧ g'.tileOps = (g.without o).tileOps ∧
        g'.flags = (g.without o).flags ∧ g'.v = g.v ∧ g'.fibres = g.fibres))

/-- 13 R290 to R298: in its group's issue order a summary operation makes one step on its object. SUMINIT writes an
empty object of its kind; SUMQ, SUMH and SUMD insert their lanes' values in turn, and SUMMERGE merges its source in;
compaction takes its halfwords as they are drawn; an object of another layout gives status 0x0D and stays. The operation
is complete once GT has passed its WCT, and its flag is lowered. SUMRD writes the query's result and its fibre goes on.
When the write completion time is taken, and which status is reported where several hold, are the model's choices (log
entry 46). -/
def Obligations.SummaryEventsTakeEffect : Prop :=
  (∀ (s : State) (gid : Nat) (g : Group) (k : Kernel) (o : SumOp), groupAt s gid = some g →
    kernelAt s g.kernel = some k → nextSum g = some o → o.status = none → (g.sumOps.map fun x => x.id).Nodup →
    let put (s : State) (bs : List Byte) : Nat × State := writeObject s (coreKey g.die g.core) gid k.ctx o.va bs
    (∀ kind, o.kind = .init kind → (match reachObject s k.ctx g.die o.va false true with | .go => True | _ => False) →
      let bs := match kind with
        | 1 => Quant.fresh.bytes
        | 2 => Heavy.bytes { count := 0, slack := 0, entries := [] }
        | _ => Distinct.bytes { count := 0, cells := List.replicate 1024 0 }
      Happens (.summaryStep gid o.id) s fun t =>
        t.mem = (put s bs).2.mem ∧ summaryApplied t gid o.id (put s bs).1 none) ∧
    (o.kind = .h → (match reachObject s k.ctx g.die o.va true true with | .go => True | _ => False) →
      ∀ obj s', readObject s (coreKey g.die g.core) k.ctx o.va = (obj, s') →
        (∀ h, Heavy.read obj = some h → o.vals ≠ [] →
          let bs := (o.vals.foldl (fun h v => h.insert v.2.toNat) h).bytes
          Happens (.summaryStep gid o.id) s fun t =>
            t.mem = (put s' bs).2.mem ∧ summaryApplied t gid o.id (put s' bs).1 none) ∧
        (Heavy.read obj = none → Happens (.summaryStep gid o.id) s fun t =>
          t.mem = s'.mem ∧ summaryApplied t gid o.id 0 (some (0x0D, o.va)))) ∧
    (o.kind = .d → (match reachObject s k.ctx g.die o.va true true with | .go => True | _ => False) →
      ∀ obj s', readObject s (coreKey g.die g.core) k.ctx o.va = (obj, s') →
        (∀ d, Distinct.read obj = some d → o.vals ≠ [] →
          let bs := (o.vals.foldl (fun d v => d.insert v.2.toNat) d).bytes
          Happens (.summaryStep gid o.id) s fun t =>
            t.mem = (put s' bs).2.mem ∧ summaryApplied t gid o.id (put s' bs).1 none) ∧
        (Distinct.read obj = none → Happens (.summaryStep gid o.id) s fun t =>
          t.mem = s'.mem ∧ summaryApplied t gid o.id 0 (some (0x0D, o.va)))) ∧
    (o.kind = .q → (match reachObject s k.ctx g.die o.va true true with | .go => True | _ => False) →
      ∀ obj s', readObject s (coreKey g.die g.core) k.ctx o.va = (obj, s') →
        (∀ q, Quant.read obj = some q → o.vals ≠ [] →
          drawnStep s s' gid g k o fun u => o.vals.foldl (fun q v => q.insert (coinOf u k g) v.2.toNat) q) ∧
        (Quant.read obj = none → Happens (.summaryStep gid o.id) s fun t =>
          t.mem = s'.mem ∧ summaryApplied t gid o.id 0 (some (0x0D, o.va)))) ∧
    (∀ a, o.kind = .merge a → (match (reachObject s k.ctx g.die o.va true true).join
        (if a = o.va then .go else reachObject s k.ctx g.die a true false) with | .go => True | _ => False) →
      ∀ src s1 obj s2, readObject s (coreKey g.die g.core) k.ctx a = (src, s1) →
        readObject s1 (coreKey g.die g.core) k.ctx o.va = (obj, s2) →
        (∀ q r, Quant.read obj = some q → Quant.read src = some r →
          drawnStep s s2 gid g k o fun u => q.merge (coinOf u k g) r) ∧
        (∀ h r, Heavy.read obj = some h → Heavy.read src = some r → Happens (.summaryStep gid o.id) s fun t =>
          t.mem = (put s2 (h.merge r).bytes).2.mem ∧ summaryApplied t gid o.id (put s2 (h.merge r).bytes).1 none) ∧
        (∀ d r, Distinct.read obj = some d → Distinct.read src = some r → Happens (.summaryStep gid o.id) s fun t =>
          t.mem = (put s2 (d.merge r).bytes).2.mem ∧ summaryApplied t gid o.id (put s2 (d.merge r).bytes).1 none) ∧
        ((Quant.read obj = none ∨ Quant.read src = none) → (Heavy.read obj = none ∨ Heavy.read src = none) →
          (Distinct.read obj = none ∨ Distinct.read src = none) → Happens (.summaryStep gid o.id) s fun t =>
          t.mem = s2.mem ∧ summaryApplied t gid o.id 0 (some (0x0D, o.va))))) ∧
  (∀ (s : State) (gid id w : Nat) (g : Group) (o : SumOp), groupAt s gid = some g →
    g.sumOps.find? (fun x => x.id = id) = some o → o.applied = some w → o.status = none → (w = 0 ∨ w < gtOf s g.die) →
      exec (.summaryComplete gid id) s = .next (setGroup s gid
        ({ g with sumOps := g.sumOps.filter fun x => x.id ≠ id }.lowered o.flag))) ∧
  (∀ (s s' : State) (g f : Nat) (i : Iss) (o : SumOp) (fn reg x : Nat) (arg : Word) (bs : List Byte),
    issOf s g f = some i → i.f.state = .waiting (.sumrd o.id) → nextSum i.g = some o → o.kind = .rd fn arg reg →
    (match reachObject s i.k.ctx i.g.die o.va true false with | .go => True | _ => False) →
    readObject s i.ck i.k.ctx o.va = (bs, s') → s'.groups = s.groups → summaryQuery fn arg bs = some x → i.quiet s →
      let g0 := { i.g with sumOps := i.g.sumOps.filter fun y => y.id ≠ o.id }
      let g' := if fn = 1 ∨ fn = 2 ∨ fn = 3 then (g0.writeS reg (BitVec.ofNat 32 x)).writeS (reg + 1) (BitVec.ofNat 32 (x / 2 ^ 32))
        else g0.writeS reg (BitVec.ofNat 32 x)
      exec (.sumrdResult g f) s = .next (i.put s' (i.withFibre g' (i.readied s i.passed))))

namespace Sys2Proof.Machine

/-! ## Events of the caravan and of the splat units (14 R306 to R317; 15 R325 to R332) -/

/-- The state with the issuing fibre's S register written and its wait ended, the fibre past its word. -/
def Iss.answered (s : State) (i : Iss) (reg : Nat) (x : Word) : State :=
  i.put s (i.withFibre (i.g.writeS reg x) (i.readied s i.passed))

/-- A context with an entry of its network table put in place. -/
def Context.withNet (c : Context) (idx : Nat) (e : NetEntry) : Context := { c with nets := Table.ins c.nets idx e }

/-- The state with a context in place of the old one. -/
def State.withCtx (s : State) (ctx : Nat) (c : Context) : State := { s with contexts := Table.ins s.contexts ctx c }

/-- The handle of a bound entry (14 R306). -/
def netHandle (idx gen : Nat) : Word := BitVec.ofNat 32 (2 ^ 31 + gen % 2 ^ 14 * 2 ^ 10 + idx)

/-- The home slices hold some bytes of a context at an address, and nothing of their lines stands anywhere else. -/
def homeBytesAre (s : State) (ctx die va n : Nat) (bs : List Byte) : Prop :=
  let k := (translateCp s ctx va).key s ctx die va
  bs = Memory.readN s.mem k n ∧ ∀ l ∈ linesOf k n, lineSettled s l ∧ (homeOf s l).hold = none

/-- An evaluation of which every lane has returned, and the state without it. -/
def Eval.over_ (e : Eval) : Prop := e.waiting = 0 ∧ e.toPlace = [] ∧ e.frac = [] ∧ (e.results.map fun r => r.1).Nodup ∧
  ∀ r ∈ e.results, r.1 < 64

end Sys2Proof.Machine

/-- 14 R306 to R317: NBIND binds a record, or takes another reference to it, and writes its handle, or 1, 2 or 3 where
the table is full, the header invalid or the record unreachable; NBIND.REL gives a reference up. The gatherer places a
lane into the open tile of its handle, or opens one; a tile closes when its window has passed; a closed tile's rows are
evaluated. NEVAL and TEX write their outputs, the status predicate or a status owed, and lower their flag. The arbiter's
order, and that a tile's weights are read at one instant, are the model's choices (log entries 28 and 3). -/
def Obligations.CaravanEventsTakeEffect : Prop :=
  (∀ (s : State) (g f va reg : Nat) (i : Iss) (c : Context), issOf s g f = some i →
    i.f.state = .waiting (.nbind false va reg) → ctxAt s i.k.ctx = some c → i.quiet s →
    (∀ idx e, c.nets.find? (fun e => e.2.bound ∧ e.2.addr = va) = some (idx, e) → Table.look c.nets idx = some e →
      exec (.nbindResolve g f) s = .next (i.answered
        (s.withCtx i.k.ctx (c.withNet idx { e with refs := e.refs + 1 })) reg (netHandle idx e.gen))) ∧
    ((∀ e ∈ c.nets, ¬(e.2.bound = true ∧ e.2.addr = va)) →
      (va % 256 ≠ 0 ∨ (translateCp s i.k.ctx va).st = 0 ∨ (translateCp s i.k.ctx va).st = 7 →
        exec (.nbindResolve g f) s = .next (i.answered s reg 3)) ∧
      (va % 256 = 0 → (translateCp s i.k.ctx va).st ∉ [0, 7] → meetEngine s i.k.ctx i.g.die 0 va 256 false = none →
        ∀ h s', engineRead s i.k.ctx i.g.die ((translateCp s i.k.ctx va).key s i.k.ctx i.g.die va) 256 = (h, s') →
        s'.groups = s.groups →
        (netValid h = false → exec (.nbindResolve g f) s = .next (i.answered s' reg 2)) ∧
        (netValid h = true → (∀ j : Nat, j < 1024 → ∃ e, Table.look c.nets j = some e ∧ (e.bound = true ∨ e.freeing = true)) →
          exec (.nbindResolve g f) s = .next (i.answered s' reg 1)) ∧
        (∀ j : Nat, netValid h = true → j < 1024 → Table.look c.nets j = none →
          (∀ l : Nat, l < j → ∃ e, Table.look c.nets l = some e ∧ (e.bound = true ∨ e.freeing = true)) →
          exec (.nbindResolve g f) s = .next (i.answered (s'.withCtx i.k.ctx (c.withNet j
            { bound := true, addr := va, refs := 1, gen := 0, header := h, freeing := false })) reg (netHandle j 0)))))) ∧
  (∀ (s : State) (g f arg reg : Nat) (i : Iss) (c : Context), issOf s g f = some i →
    i.f.state = .waiting (.nbind true arg reg) → ctxAt s i.k.ctx = some c → i.quiet s → arg < 2 ^ 32 →
    (∀ e n, Table.look c.nets (arg % 1024) = some e → e.bound = true → BitVec.ofNat 32 arg = netHandle (arg % 1024) e.gen →
      e.refs = n + 2 → e.freeing = false → exec (.nbindResolve g f) s = .next (i.answered
        (s.withCtx i.k.ctx (c.withNet (arg % 1024) { e with refs := n + 1 })) reg 0)) ∧
    (∀ e, Table.look c.nets (arg % 1024) = some e → e.bound = true → BitVec.ofNat 32 arg = netHandle (arg % 1024) e.gen →
      e.refs = 1 → netInUse s i.k.ctx (arg % 1024) = false → exec (.nbindResolve g f) s = .next (i.answered
        (s.withCtx i.k.ctx (c.withNet (arg % 1024)
          { e with refs := 0, bound := false, freeing := false, gen := (e.gen + 1) % 2 ^ 14 })) reg 0)) ∧
    (Table.look c.nets (arg % 1024) = none → exec (.nbindResolve g f) s = .next (i.answered s reg 1))) ∧
  (∀ (s : State) (ev l : Nat) (e : Eval) (h : Word) (x : List Word) (help : Bool), Table.look s.evals ev = some e →
    e.frac = [] → e.toPlace = [(l, h, x, help)] → (∀ t ∈ openTiles s e.core, tileDue s t.2 = false) → e.window ≠ 0 →
    (∀ g, groupAt s e.gid = some g → saveWanted s g = false) →
    let row : CRow := { ev, lane := l, x, helper := help }
    (∀ t y, (openTiles s e.core).find? (fun t => t.2.ctx = e.ctx ∧ t.2.handle = h) = some (t, y) →
      Table.look s.tiles t = some y → exec (.caravanLanePlace ev) s = .next (countEvent { s with
        evals := Table.ins s.evals ev { e with toPlace := [] }
        tiles := Table.ins s.tiles t { y with rows := y.rows ++ [row], closed := decide (31 ≤ y.rows.length) } } e.gid 6 1)) ∧
    ((∀ t ∈ openTiles s e.core, ¬(t.2.ctx = e.ctx ∧ t.2.handle = h)) → (openTiles s e.core).length < 8 →
      exec (.caravanLanePlace ev) s = .next (countEvent { s with
        evals := Table.ins s.evals ev { e with toPlace := [] }
        nextId := s.nextId + 1
        tiles := Table.ins s.tiles s.nextId
          { core := e.core, ctx := e.ctx, handle := h, openedAt := gtOf s (coreDie e.core), window := e.window, rows := [row]
            closed := false } } e.gid 6 1))) ∧
  (∀ (s : State) (tile : Nat) (t : CTile), Table.look s.tiles tile = some t → t.closed = false →
    t.openedAt + t.window ≤ gtOf s (coreDie t.core) →
      exec (.caravanWindowExpiry tile) s = .next { s with tiles := Table.ins s.tiles tile { t with closed := true } }) ∧
  (∀ (s : State) (tile : Nat) (t : CTile) (c : Context) (e : NetEntry) (r : CRow) (v : Eval), Table.look s.tiles tile = some t →
    t.closed = true → ctxAt s t.ctx = some c → Table.look c.nets (t.handle.toNat % 1024) = some e → t.rows = [r] →
    Table.look s.evals r.ev = some v →
    (∀ ms : List (List Byte × List Byte), tileHalts s t e = [] → ms.length = netLayers e.header →
      (∀ (l : Nat) (m : List Byte × List Byte), ms[l]? = some m →
        let wa := e.addr + layerW e.header l
        let ba := e.addr + layerB e.header l
        pagePieces wa (layerBytes e.header l) = [(wa, layerBytes e.header l)] ∧
        pagePieces ba (4 * layerOut e.header l) = [(ba, 4 * layerOut e.header l)] ∧
        homeBytesAre s t.ctx (coreDie t.core) wa (layerBytes e.header l) m.1 ∧
        homeBytesAre s t.ctx (coreDie t.core) ba (4 * layerOut e.header l) m.2) →
      Happens (.caravanTileDone tile) s fun u => u.tiles = Table.del s.tiles tile ∧ u.mem = s.mem ∧ u.groups = s.groups ∧
        Table.look u.evals r.ev = some { v with
          waiting := v.waiting - 1, results := v.results ++ [(r.lane, netRun e.header ms r.x)] }) ∧
    (∀ a : Nat, r.helper = false → (∃ h, tileHalts s t e = h ∧ h ≠ [] ∧ (∀ y ∈ h, ∃ b, y = Halt.fail 1 0 b ∧ a ≤ b) ∧
        Halt.fail 1 0 a ∈ h) →
      Happens (.caravanTileDone tile) s fun u => u.tiles = Table.del s.tiles tile ∧ u.mem = s.mem ∧ u.groups = s.groups ∧
        Table.look u.evals r.ev = some { v with waiting := v.waiting - 1, faulted := v.faulted ++ [(r.lane, a)] })) ∧
  (∀ (s : State) (ev : Nat) (e : Eval) (g : Group), Table.look s.evals ev = some e → e.over_ → groupAt s e.gid = some g →
    Table.wf g.v 0 = true → (∀ x ∈ g.landed, x.1 ≠ ev) →
    let written (t : State) (g' : Group) : Prop := t.evals = Table.del s.evals ev ∧ t.mem = s.mem ∧
      groupAt t e.gid = some g' ∧ g'.flags = (g.lowered e.flag).flags ∧ g'.s = g.s ∧
      (∀ r ∈ e.results, ∀ (j : Nat) (y : Word), r.2[j]? = some y → g'.readV (e.out + j) r.1 = y) ∧
      (∀ k l : Nat, l < 64 → (k < e.out ∨ ∀ r ∈ e.results, r.1 ≠ l) → g'.readV k l = g.readV k l) ∧
      (∀ p, e.status = some p → g'.p = (g.writeP p e.active (Mask.ofLanes (e.faulted.map fun x => x.1))).p) ∧
      ((e.status ≠ none ∨ e.faulted = [] ∨ e.mute = true) → g'.fibres = g.fibres) ∧
      (∀ l cause x, e.status = none → e.mute = false → e.faulted = [(l, cause)] → Table.look g.fibres e.fib = some x →
        Table.look g'.fibres e.fib = some { x with owed := x.owed ++
          [{ flag := e.flag, cause := 0x08, addr := BitVec.ofNat 64 cause, mask := Mask.ofLanes [l] }] })
    (e.tex = false → ∃ t g', exec (.nevalComplete ev) s = .next t ∧ written t g') ∧
    (e.tex = true → ∃ t g', exec (.texComplete ev) s = .next t ∧ written t g')) ∧
  (∀ (s : State) (id n : Nat) (o : Op) (g : Group) (k : Fin 192), Table.look s.evals id = none → Table.look s.ops id = some o →
    o.kind = .tex → o.complete = true → groupAt s o.gid = some g → addressed s o.gid o.ident = true → o.dest = .lane (.v k) n → k.val + n ≤ 192 →
    Table.wf g.v 0 = true → (∀ x ∈ g.landed, x.1 ≠ id) →
    Happens (.texComplete id) s fun t => t.ops = Table.del s.ops id ∧ t.mem = s.mem ∧ ∃ g', groupAt t o.gid = some g' ∧
      g'.flags = (g.lowered o.flag).flags ∧ g'.fibres = g.fibres ∧
      ∀ j l : Nat, l < 64 → g'.readV j l = if k.val ≤ j ∧ j < k.val + n ∧ o.lanes.getLsbD l = true
        then (if (Table.look o.base (8 * l)).isSome then
          BitVec.ofNat 32 (ofBytes (o.laneBytes (8 * l) o.size) / 2 ^ (32 * (j - k.val))) else 0)
        else g.readV j l)

/-- 15 R325 to R332: a splat unit takes a SPLAT, and numbers a lane's record and sends it to its tile's owner, or culls
it; the SPLAT's flag is lowered. The waystation files a record in its tile's bin, or drops it where the bin is full. A
flush reaches a die with its lists, which are forwarded, once all are in, to the dies that no retraining boundary keeps
them from; a tile is composited, written, and marked ready; and the flush is complete, its status in its register, once
every tile is written and GT has passed the latest WCT. That a tile is written in one step is the model's choice (log
entry 3). -/
def Obligations.SplatEventsTakeEffect : Prop :=
  (∀ (s : State) (op id l : Nat) (o : SplatOp) (g : Group) (k : Kernel) (f : Frame), Table.look s.splats op = some o →
    groupAt s o.gid = some g → kernelAt s g.kernel = some k → o.taken = false →
    (∀ e ∈ s.splats, e.1 < op → e.2.gid = o.gid → e.2.taken = true) → frameOn s k.ctx o.va g.die = some (id, f) →
    Table.look s.frames id = some f → f.isOpen = true → f.flush = none → f.rejected = none → Mask.lanes o.lanes = [l] →
    let taken := Table.ins s.splats op { o with taken := true, status := none }
    let r := laneRecord g o.rec0 l
    let rs := ctxRanks s k.ctx
    (binTiles f.desc r = [] → exec (.splatSubmit op) s = .next { s with
      splats := taken, frames := Table.ins s.frames id { f with culled := f.culled + 1 } }) ∧
    (∀ t, binTiles f.desc r = [t] →
      let d := rs.getD (tileOwner f.desc f.omap rs.length t) 0
      exec (.splatSubmit op) s = .next { s with
        splats := taken
        nextId := s.nextId + 1
        frames := Table.ins s.frames id { f with ctr := f.ctr + 1, sentTo := bumpCount f.sentTo d t }
        recs := Table.ins s.recs s.nextId
          { ident := groupIdent g, ctx := k.ctx, va := f.va, fromRank := rs.idxOf g.die, toDie := d, token := f.ctr * 64 + rs.idxOf g.die, bytes := r
            tiles := [t] } })) ∧
  (∀ (s : State) (op : Nat) (o : SplatOp) (g : Group), Table.look s.splats op = some o → o.taken = true → o.status = none →
    groupAt s o.gid = some g →
      exec (.splatComplete op) s = .next (setGroup { s with splats := Table.del s.splats op } o.gid (g.lowered o.flag))) ∧
  (∀ (s s2 : State) (recd id sid t : Nat) (r : SplatRec) (f src : Frame) (c : List Byte), Table.look s.recs recd = some r →
    (∀ e ∈ s.recs, e.2.ctx = r.ctx → e.2.va = r.va → e.2.fromRank = r.fromRank → e.2.toDie = r.toDie → r.token ≤ e.2.token) →
    frameOn s r.ctx r.va ((ctxRanks s r.ctx).getD r.fromRank 0) = some (sid, src) →
    underWay s 2 recd 0 ((ctxRanks s r.ctx).getD r.fromRank 0) r.toDie = false → fileWait s r.ctx r.toDie src.desc r = none →
    frameOn s r.ctx r.va r.toDie = some (id, f) →
    Table.look s.frames id = some f → r.tiles = [t] →
    let f1 := { f with filed := bumpCount f.filed t r.fromRank }
    let s1 := { s with recs := Table.del s.recs recd, frames := Table.ins s.frames id f1 }
    let bin := binAt src.desc t
    dieGet s1 r.ctx r.toDie bin 4 = (.ok c, s2) →
    (fdCap src.desc ≤ ofBytes c → Happens (.waystationFile recd) s fun u => u.recs = s2.recs ∧ u.mem = s2.mem ∧
      u.frames = Table.upd s2.frames id fun f => { f with dropped := f.dropped + 1 }) ∧
    (ofBytes c < fdCap src.desc → dieHalt s2 r.ctx r.toDie (bin + 32 + 32 * ofBytes c) 32 = none →
      dieHalt s2 r.ctx r.toDie bin 4 = none →
      let s3 := (diePut s2 r.ctx r.toDie (bin + 32 + 32 * ofBytes c) r.bytes).2
      let s4 := (diePut s3 r.ctx r.toDie bin (toBytes 4 (ofBytes c + 1))).2
      Happens (.waystationFile recd) s fun u => u.recs = s4.recs ∧ u.mem = s4.mem ∧
        u.frames = Table.upd s4.frames id fun f => { f with tokens := f.tokens ++ [(t, ofBytes c, r.token)] })) ∧
  (∀ (s : State) (fl die id : Nat) (x : Flush) (f : Frame), Table.look s.flushes fl = some x →
    (∀ e ∈ s.flushes, e.1 < fl → e.2.ctx = x.ctx → e.2.va ≠ x.va) → die ∉ x.reached → die ∈ ctxRanks s x.ctx →
    underWay s 0 fl die x.die die = false → (die = x.die ∨ x.die ∈ x.reached) → frameOn s x.ctx x.va die = some (id, f) → Table.look s.frames id = some f →
    f.isOpen = true →
      exec (.flushRequest fl die) s = .next { s with
        frames := Table.ins s.frames id { f with flush := some fl, flushed := true, ready := [] }
        flushes := Table.ins s.flushes fl { x with
          reached := x.reached ++ [die]
          lists := x.lists ++ f.sentTo.map fun e => (e.1, e.2.1, (ctxRanks s x.ctx).idxOf die, e.2.2)
          rejected := if die = x.die then f.rejected.map fun y => y.2 else x.rejected } }) ∧
  (∀ (s : State) (fl : Nat) (x : Flush), Table.look s.flushes fl = some x →
    (∀ d ∈ ctxRanks s x.ctx, d ∈ x.reached ∧ trafficHeld s d x.die = false) →
      exec (.flushListsForward fl) s = .next { s with flushes := Table.ins s.flushes fl { x with
        forwarded := (ctxRanks s x.ctx).filter fun d => x.forwarded.contains d || !trafficHeld s x.die d } }) ∧
  (∀ (s s1 s2 : State) (fl tile id : Nat) (x : Flush) (f : Frame) (c bs : List Byte), Table.look s.flushes fl = some x →
    s.frames.find? (fun e => e.2.ctx = x.ctx ∧ e.2.va = x.va ∧ e.2.flush = some fl ∧
      (ownedTiles s x.ctx e.2).contains tile) = some (id, f) →
    f.die ∈ x.forwarded → tile ∉ x.tilesDone → tileFed x f tile = true →
    let bin := binAt f.desc tile
    dieGet s x.ctx f.die bin 4 = (.ok c, s1) →
    let n := min (ofBytes c) (fdCap f.desc)
    dieGet s1 x.ctx f.die (bin + 32) (32 * n) = (.ok bs, s2) →
    let token (j : Nat) : Nat := ((f.tokens.find? fun e => e.1 = tile ∧ e.2.1 = j).map fun e => e.2.2).getD 0
    let recs := (List.range n).map fun j => (token j, (bs.drop (32 * j)).take 32)
    let rows := tileRows f.desc x.opaq.toNat tile ((sortBy recordBefore recs).map fun r => r.2)
    let outs := rows.map fun r => (r.1, r.2.2.flatMap fun p => pixelBytes p.2)
    (∀ r ∈ outs, dieHalt s2 x.ctx f.die r.1 r.2.length = none) → dieHalt s2 x.ctx f.die bin 4 = none →
    (∀ p : State, p = outs.foldl (fun s r => (diePut s x.ctx f.die r.1 r.2).2) s2 → dieHalt p x.ctx f.die bin 4 = none →
      Happens (.tileComposite fl tile) s fun u =>
        u.mem = (diePut p x.ctx f.die bin (toBytes 4 0)).2.mem ∧
        ∃ w, Table.look u.flushes fl = some { x with tilesDone := x.tilesDone ++ [tile], wct := max x.wct w } ∧
          (∀ f', Table.look p.frames id = some f' → ∃ f'' r, Table.look u.frames id = some f'' ∧
            f''.ready = f'.ready ++ [r] ∧ r.tile = tile ∧ r.claimed = false ∧ r.wct = w ∧
            r.pixels = (rows.flatMap fun y => (y.2.2.filter fun p => p.2.covered).map fun p => (p.1, y.2.1)) ∧
            (∀ e ∈ f''.filed, e.1 ≠ tile) ∧ ∀ e ∈ f''.tokens, e.1 ≠ tile))) ∧
  (∀ (s : State) (fl : Nat) (x : Flush) (g : Group), Table.look s.flushes fl = some x → (∀ d ∈ ctxRanks s x.ctx, d ∈ x.forwarded) →
    (∀ e ∈ s.frames, e.2.ctx = x.ctx → e.2.va = x.va → e.2.flush = some fl → x.rejected = none →
      ∀ t ∈ ownedTiles s x.ctx e.2, t ∈ x.tilesDone) → (x.wct = 0 ∨ x.wct < gtOf s x.die) → groupAt s x.gid = some g →
    Happens (.spflushComplete fl) s fun u => u.flushes = Table.del s.flushes fl ∧ u.mem = s.mem ∧
      (∃ g', groupAt u x.gid = some g' ∧ g'.flags = (g.lowered x.flag).flags ∧ g'.fibres = g.fibres ∧
        g'.s = (g.writeS x.token (BitVec.ofNat 32 (flushStatus x ((s.frames.filter fun e =>
          e.2.ctx = x.ctx && e.2.va = x.va && e.2.flush = some fl).map fun e => e.2)))).s ∧
        g'.tokens = g.tokens.filter fun e => decide (e.2 ≠ fl)) ∧
      ∀ (id : Nat) (f : Frame), Table.look s.frames id = some f → f.ctx = x.ctx → f.va = x.va → f.flush = some fl →
        Table.look u.frames id = some { f with
          isOpen := false, flush := none, ctr := 0, culled := 0, dropped := 0, sentTo := [], bad := none })

namespace Sys2Proof.Machine

/-! ## Events of the Courier (20 R403 to R418) -/

/-- The instance of a slot at a rank stands at step `stp` of its stream, whose word is `w`: the slot runs, or a failure
of which the instance has not been told has stopped it; the instance has neither halted nor stopped, the write of the step before is past its completion time, no firing of the step waits, and the
step meets no check of R408, R409 and R414 that fails (20 R407). -/
def AtStep (s : State) (slot rank stp : Nat) (x : CSlot) (i : CInst) (w : DWord) : Prop :=
  Table.look s.slots slot = some x ∧ (x.state = .running ∨ x.state = .stopped) ∧ instAt s slot rank = some i ∧ i.halted = false ∧
    i.stopped = false ∧ i.pc = stp ∧ (i.localWct = 0 ∨ i.localWct < gtOf s i.die) ∧ (∀ f ∈ i.fired, f.1 ≠ stp) ∧
    i.steps[stp]? = some w ∧ stepFault s x i stp = none

/-- An instance whose stream has gone on to its next step that is not triggered; `v` is the WCT of its write (20 R407). -/
def CInst.onward (i : CInst) (v : Nat) : CInst :=
  { i with pc := streamFrom i.steps (i.pc + 1), localWct := v, wct := max i.wct v }

/-- A slot of a collective program stopped by a failure (20 R418). -/
def CSlot.failed (x : CSlot) (rank stp code : Nat) : CSlot :=
  { x with state := .stopped, code := code, rank := rank, step := stp % 4096 }

/-- The buffer of a step at address register `reg` of a rank (20 R405). -/
def stepBuffer (x : CSlot) (reg rank : Nat) (w : DWord) (idx : Nat) : Nat :=
  (progAddr x.desc reg rank + stOff w idx) % 2 ^ 64

end Sys2Proof.Machine

/-- 20 R404 to R412: the steps of a collective program, in the stream of an instance. SEND and RRED hand their data to a
peer, or to an Ethernet port in frames; RECV passes once its counter has reached its threshold, and WAIT once nothing
sent is undelivered; RACC and COPY write their buffer; LOOP and NEXT set and step the loop index; ARM arms a step, or
fires it at once; SIG writes its word, once what the stream wrote before is past its completion time; HALT ends the
instance. That a step moves its bytes at once, and a frame's fields, are the model's (log entries 3 and 36). -/
def Obligations.CourierStepsTakeEffect : Prop :=
  ∀ (s : State) (slot rank stp : Nat) (x : CSlot) (i : CInst) (w : DWord), AtStep s slot rank stp x i w →
    let buf (reg : Nat) : Nat := stepBuffer x reg rank w i.i
    let goesOn (i' : CInst) (t : State) : Prop := instAt t slot rank = some i' ∧ t.mem = s.mem ∧ t.groups = s.groups
    let sent (s1 : State) (reg : Nat) (bs : List Byte) (t : State) : Prop :=
      t.mem = s1.mem ∧ instAt t slot rank = some (i.onward 0) ∧
      let d : Delivery :=
        { slotKey := slot, fromRank := rank, step := stp, toRank := 0, nc := stNc w, va := 0, data := bs, eth := none
          applied := none }
      (∀ r p, peerOf s x rank w = .rank r p → Table.look t.deliveries s1.nextId = some
        { d with toRank := r, va := (progAddr x.desc reg r + stOff w i.i + p * stSize w) % 2 ^ 64 }) ∧
      (∀ e port, peerOf s x rank w = .ether e → s1.ethPorts[(remoteOf x.desc e).port]? = some port →
        Table.look t.deliveries s1.nextId = some { d with eth := some (remoteOf x.desc e).port } ∧
        ∃ port', t.ethPorts[(remoteOf x.desc e).port]? = some port' ∧ port'.unacked = port.unacked ++
          cutFrames (remoteOf x.desc e) (stNc w) (bs.length / 8192 + 1) port.nextSeq (stOff w i.i) bs)
    let wrote (s1 : State) (bs : List Byte) (t : State) : Prop :=
      t.mem = (diePut s1 x.ctx i.die (buf (stB w)) bs).2.mem ∧ t.groups = (diePut s1 x.ctx i.die (buf (stB w)) bs).2.groups ∧
        instAt t slot rank = some (i.onward (diePut s1 x.ctx i.die (buf (stB w)) bs).1)
    (stKind w = 0 → (∀ s1 bs, readBuffer s x i w (buf (stA w)) = (.ok bs, s1) →
        (∃ r p, peerOf s x rank w = .rank r p) ∨ (∃ e, peerOf s x rank w = .ether e) →
          Happens (.cstepSend slot rank stp) s (sent s1 (stB w) bs)) ∧
      (peerOf s x rank w = .skip →
        Happens (.cstepSend slot rank stp) s fun t => goesOn (i.onward 0) t ∧ t.deliveries = s.deliveries)) ∧
    (stKind w = 2 → (∀ s1 bs, readBoth s x i w (stOff w i.i) = (.ok bs, s1) →
        (∃ r p, peerOf s x rank w = .rank r p) ∨ (∃ e, peerOf s x rank w = .ether e) →
          Happens (.cstepRred slot rank stp) s (sent s1 (stA w) bs)) ∧
      (peerOf s x rank w = .skip →
        Happens (.cstepRred slot rank stp) s fun t => goesOn (i.onward 0) t ∧ t.deliveries = s.deliveries)) ∧
    (stKind w = 1 → stThreshold w i.i ≤ Table.rd i.n 0 (stNc w) → Happens (.cstepRecv slot rank stp) s (goesOn (i.onward 0))) ∧
    (stKind w = 5 → (∀ d ∈ s.deliveries, d.2.slotKey = slot → d.2.fromRank ≠ rank) → i.fired = [] →
      Happens (.cstepWait slot rank stp) s (goesOn (i.onward 0))) ∧
    (stKind w = 3 → ∀ s1 bs, readBoth s x i w (stOff w i.i) = (.ok bs, s1) →
      dieHalt s1 x.ctx i.die (buf (stB w)) bs.length = none → Happens (.cstepRacc slot rank stp) s (wrote s1 bs)) ∧
    (stKind w = 4 → ∀ s1 bs, dieGet s x.ctx i.die (buf (stA w)) (stSize w) = (.ok bs, s1) →
      dieHalt s1 x.ctx i.die (buf (stB w)) bs.length = none → Happens (.cstepCopy slot rank stp) s (wrote s1 bs)) ∧
    (stKind w = 6 → Happens (.cstepLoop slot rank stp) s (goesOn { i with
      i := 0, count := stBits w 15 0 + 1, localWct := 0, pc := streamFrom i.steps (i.pc + 1)
      head := some (streamFrom i.steps (i.pc + 1)) })) ∧
    (stKind w = 7 → Happens (.cstepNext slot rank stp) s (goesOn (if i.i + 1 < i.count
      then { i with i := i.i + 1, pc := i.head.getD 0, localWct := 0 }
      else { i with i := 0, head := none, localWct := 0, pc := streamFrom i.steps (i.pc + 1) }))) ∧
    (stKind w = 8 → i.armed = [] → Happens (.cstepArm slot rank stp) s (goesOn
      (if stThreshold w i.i ≤ Table.rd i.n 0 (stNc w)
        then { i with pc := streamFrom i.steps (i.pc + 1), localWct := 0, fired := i.fired ++ [(stBits w 43 32, i.i)] }
        else { i with
          pc := streamFrom i.steps (i.pc + 1), localWct := 0, armed := [(stBits w 43 32, stNc w, stThreshold w i.i, i.i)] }))) ∧
    (stKind w = 9 → (i.wct = 0 ∨ i.wct < gtOf s i.die) → dieHalt s x.ctx i.die (progAddr x.desc (stB w) rank) 4 = none →
      Happens (.cstepSig slot rank stp) s fun t =>
        t.mem = (diePut s x.ctx i.die (progAddr x.desc (stB w) rank) (toBytes 4 (stBits w 31 0))).2.mem ∧
        instAt t slot rank = some { i with pc := streamFrom i.steps (i.pc + 1), localWct := 0 }) ∧
    (stKind w = 10 → i.armed = [] → i.fired = [] → (∀ d ∈ s.deliveries, d.2.slotKey = slot → d.2.fromRank ≠ rank) →
      (i.wct = 0 ∨ i.wct < gtOf s i.die) → Happens (.cstepHalt slot rank stp) s (goesOn { i with halted := true }))

/-- 20 R403, R407, R409, R415, R417, R418: a command at the head of its die's queue has its program read and takes the
lowest free slot of its context, with an instance on each die of the partition; the program begins, and its token is
written; a delivery's data is applied at the peer and then raises the peer's counter; a step that a check fails stops
the program, as an Ethernet peer's report does, and once every instance has been told the slot is freed, its fibre owing
the trap; a program whose instances have all halted ends, its flag lowered; and a query writes its counter or state
word. Orders that the rules leave open are the model's (log entry 36). -/
def Obligations.CourierEventsTakeEffect : Prop :=
  (∀ (s s1 s2 : State) (cmd n : Nat) (c : CCmd) (d bs : List Byte), Table.look s.cqueue cmd = some c →
    (∀ e ∈ s.cqueue, e.1 < cmd → e.2.die ≠ c.die) → c.held = false → c.prog = none →
    (c.desc = none ∧ c.va % 64 = 0 ∧ dieGet s c.ctx c.die c.va 256 = (.ok d, s1) ∨ c.desc = some d ∧ s1 = s) → progOk (ctxRanks s1 c.ctx).length d = true →
    dieGet s1 c.ctx c.die (rec64 d 8) (8 * progSteps d) = (.ok bs, s2) → n < 16 →
    Table.look s2.slots (c.ctx * 16 + n) = none → (∀ j : Nat, j < n → Table.look s2.slots (c.ctx * 16 + j) ≠ none) →
    (∀ i ∈ s2.insts, i.slotKey ≠ c.ctx * 16 + n) →
    Happens (.courierSetup cmd) s fun t => t.mem = s2.mem ∧ t.cqueue = Table.del s2.cqueue cmd ∧
      Table.look t.slots (c.ctx * 16 + n) = some
        { ctx := c.ctx, slot := n, state := .settingUp, code := 0, rank := 0, step := 0, die := c.die, gid := c.gid, fib := c.fib
          flag := c.flag, token := c.token, dens := c.dens, root := progRoot d, nsteps := progSteps d, desc := d, wct := 0 } ∧
      ∀ (r die : Nat), (ctxRanks s2 c.ctx)[r]? = some die → ∃ i, instAt t (c.ctx * 16 + n) r = some i ∧ i.die = die ∧
        i.steps = progWords bs ∧ i.n = [] ∧ i.pc = streamFrom (progWords bs) 0 ∧ i.armed = [] ∧ i.fired = [] ∧
        i.halted = false ∧ i.stopped = false) ∧
  (∀ (s : State) (cmd : Nat) (c : CCmd) (g : Group), Table.look s.cqueue cmd = some c →
    (∀ e ∈ s.cqueue, e.1 < cmd → e.2.die ≠ c.die) → c.held = false → c.prog = none → c.desc = none → c.va % 64 ≠ 0 →
    groupAt s c.gid = some g →
    Happens (.courierSetup cmd) s fun t => t.mem = s.mem ∧ t.slots = s.slots ∧ t.cqueue = Table.del s.cqueue cmd ∧
      ∃ g', groupAt t c.gid = some g' ∧ g'.s = (g.writeS c.token 0x30000000).s ∧ g'.flags = (g.lowered c.flag).flags ∧
        g'.fibres = g.fibres ∧ g'.tokens = Table.del g.tokens c.token) ∧
  (∀ (s : State) (slot : Nat) (x : CSlot) (g : Group), Table.look s.slots slot = some x → x.state = .settingUp →
    groupAt s x.gid = some g → 
    (∀ i ∈ s.insts, i.slotKey = slot → trafficHeld s x.die i.die = false ∧ trafficHeld s i.die x.die = false) →
    Happens (.courierProgramBegin slot) s fun t => t.mem = s.mem ∧ t.insts = s.insts ∧
      Table.look t.slots slot = some { x with state := .running } ∧
      ∃ g', groupAt t x.gid = some g' ∧ g'.s = (g.writeS x.token (BitVec.ofNat 32 x.slot)).s ∧
        g'.tokens = Table.del g.tokens x.token ∧ g'.flags = g.flags ∧ g'.fibres = g.fibres) ∧
  (∀ (s : State) (dl : Nat) (d : Delivery) (x : CSlot) (i : CInst), Table.look s.deliveries dl = some d →
    Table.look s.slots d.slotKey = some x → instAt s d.slotKey d.toRank = some i → d.eth = none →
    (d.applied = none → (∀ e ∈ s.deliveries, e.1 < dl → e.2.applied = none → e.2.slotKey ≠ d.slotKey) →
      dieHalt s x.ctx i.die d.va d.data.length = none → deliveryHeld s dl d = false →
      Happens (.courierDelivery dl) s fun t => t.mem = (diePut s x.ctx i.die d.va d.data).2.mem ∧
        Table.look t.deliveries dl = some { d with applied := some (diePut s x.ctx i.die d.va d.data).1 }) ∧
    (∀ v, d.applied = some v → (∀ e ∈ s.deliveries, e.1 < dl → e.2.slotKey ≠ d.slotKey) → v < gtOf s i.die →
      (x.state = .running ∨ x.state = .stopped) → i.stopped = false → i.armed = [] →
      Happens (.courierDelivery dl) s fun t => t.mem = s.mem ∧ t.deliveries = Table.del s.deliveries dl ∧
        instAt t d.slotKey d.toRank =
          some { i with n := Table.wr i.n 0 d.nc (min (Table.rd i.n 0 d.nc + 1) (2 ^ 32 - 1)) })) ∧
  (∀ (s : State) (slot rank stp code : Nat) (x : CSlot) (i : CInst), Table.look s.slots slot = some x →
    x.state = .running → instAt s slot rank = some i →
    (atStep s i stp = true ∧ stepFault s x i stp = some code ∨ (code = 1 ∨ code = 2) ∧ ∃ e ∈ s.deliveries,
      e.2.slotKey = slot ∧ e.2.fromRank = rank ∧ e.2.step % 4096 = stp % 4096 ∧ e.2.eth.isSome = true) →
    (code = 5 ∨ ∀ j ∈ s.insts, j.slotKey = slot → trafficHeld s i.die j.die = false) →
    Happens (.courierFailure slot rank stp code) s fun t => t.mem = s.mem ∧ t.groups = s.groups ∧
      Table.look t.slots slot = some (x.failed rank stp code) ∧ ∀ j ∈ t.insts, j.slotKey = slot → j.stopped = true) ∧
  (∀ (s : State) (slot rank stp code cause : Nat) (x : CSlot) (g : Group) (f : Fibre), Table.look s.slots slot = some x →
    x.state = .stopped → groupAt s x.gid = some g → Table.look g.fibres x.fib = some f →
    (x.code, cause) ∈ [(1, 0x0C), (2, 0x07), (3, 0x01), (4, 0x01)] →
    (∀ j ∈ s.insts, j.slotKey = slot → (j.stopped = true ∨ j.halted = true) ∧ trafficHeld s j.die x.die = false) →
    Happens (.courierFailure slot rank stp code) s fun t => t.mem = s.mem ∧ t.slots = Table.del s.slots slot ∧
      (∀ j ∈ t.insts, j.slotKey ≠ slot) ∧ ∃ g', groupAt t x.gid = some g' ∧ g'.flags = (g.lowered x.flag).flags ∧
        Table.look g'.fibres x.fib = some { f with owed := f.owed ++
          [{ flag := x.flag, cause, addr := BitVec.ofNat 64 (x.rank * 2 ^ 32 + x.step), mask := 0 }] }) ∧
  (∀ (s : State) (slot : Nat) (x : CSlot) (g : Group), Table.look s.slots slot = some x →
    (x.state = .running ∨ x.state = .halted) → 
    (∀ i ∈ s.insts, i.slotKey = slot → i.halted = true ∧ trafficHeld s i.die x.die = false) →
    (x.wct = 0 ∨ x.wct < gtOf s x.die) → groupAt s x.gid = some g →
    Happens (.courierProgramEnd slot) s fun t => t.mem = s.mem ∧ t.slots = Table.del s.slots slot ∧
      (∀ i ∈ t.insts, i.slotKey ≠ slot) ∧ groupAt t x.gid = some (g.lowered x.flag)) ∧
  (∀ (s : State) (g f slot reg : Nat) (nc : Option Nat) (i : Iss), fibreIss s g f = some i →
    i.f.state = .waiting (.cquery slot nc reg) → i.quiet s →
      (∀ n x, nc = some n → s.insts.find? (fun x => x.slotKey = i.k.ctx * 16 + slot ∧ x.die = i.g.die) = some x →
        exec (.cqueryResult g f) s = .next (acquireL1 (i.answered s reg (BitVec.ofNat 32 (Table.rd x.n 0 n))) i.ck 4)) ∧
      (∀ x, nc = none → Table.look s.slots (i.k.ctx * 16 + slot) = some x →
        ∃ v : Word, exec (.cqueryResult g f) s = .next (acquireL1 (i.answered s reg v) i.ck 4) ∧
          (x.code < 16 → x.rank < 64 → v.extractLsb' 24 4 = BitVec.ofNat 4 x.code ∧ v.extractLsb' 18 6 = BitVec.ofNat 6 x.rank ∧
            v.extractLsb' 28 4 = (match x.state with | .settingUp => 1 | .running => 2 | .halted => 3 | .stopped => 4))) ∧
      (nc = none → Table.look s.slots (i.k.ctx * 16 + slot) = none →
        exec (.cqueryResult g f) s = .next (acquireL1 (i.answered s reg 0) i.ck 4)))

namespace Sys2Proof.Machine

/-! ## Kernels and groups (02 R46; 07 R152, R173; 16 R338 to R348; 17 R358, R359; 18 R371 to R376) -/

/-- The state with a kernel in place of the old one. -/
def State.withKernel (s : State) (k : Nat) (x : Kernel) : State := { s with kernels := Table.ins s.kernels k x }

/-- A kernel interrupted with a code and its detail (16 R344, R347). -/
def Kernel.stopped (x : Kernel) (code info : Nat) : Kernel := { x with state := .interrupted, code, info }

/-- A group as its record holds it (18 R371). -/
def Group.asSaved (g : Group) (gt : Nat) : Group :=
  { g with
    state := .saved, savedAt := gt, preempt := false, starved := false, lentBy := [], ahead := [], board := []
    sumOps := g.sumOps.filter fun o => match o.kind with | .rd .. => false | _ => true
    fibres := g.fibres.map fun e => (e.1, savedFibre e.2) }

/-- What a gang's placing leaves of its kernel (16 R344; 06 R143): the first one launches it and samples the context's
registers. -/
def Kernel.placedFor (x : Kernel) (c : Context) (gt : Nat) : Kernel :=
  if x.state = .staged then { x with placedAny := true, state := .launched, gtStart := gt, sampled := sampleRegs c }
  else { x with placedAny := true }

end Sys2Proof.Machine

/-- 16 R338, R343, R344, R347, R348; 18 R369: a kernel's life. Its record is read and merged, or rejected with CODE 3;
it is released for staging, staged once its working set is, or interrupted with CODE 4; its watchdog's expiry takes its
groups not yet placed away and traps every fibre, and its final limit ends them, evaluations in flight completing, and
the kernel; once draining and past its completion times its record is written and it is complete. How a room is filled,
TEPC and TADDR of the watchdog's trap, and what the final limit discards, are the model's (log entries 22, 31, 50 and
51). -/
def Obligations.KernelEventsTakeEffect : Prop :=
  (∀ (s : State) (k : Nat) (x : Kernel), kernelAt s k = some x →
    (x.state = .described → x.readDone = false → ctxServed s x.ctx = true →
      (x.recordAt % 512 ≠ 0 → exec (.kernelRecordRead k) s = .next (s.withKernel k (x.stopped 3 0xFFFFFF))) ∧
      (∀ s1 bs p, x.recordAt % 512 = 0 → dieGet s x.ctx (ctxDie s x.ctx) x.recordAt 512 = (.ok bs, s1) →
        packetAt s1 x.ctx x.queue x.seq = some p →
        let y := { x with record := mergeRecord bs p.bytes, readDone := true }
        exec (.kernelRecordRead k) s = .next (match recordFault (s1.withKernel k y) k y with
          | none => s1.withKernel k y
          | some off => s1.withKernel k (y.stopped 3 off)))) ∧
    (∀ p, x.state = .described → x.readDone = true → packetAt s x.ctx x.queue x.seq = some p → p.begun = true →
      exec (.kernelRelease k) s = .next (s.withKernel k { x with
        state := .staging, stageStart := gtOf s (ctxDie s x.ctx), count := 0, expired := none, wdEnded := 0
        placedAny := false, tileCount := [], tilesOver := false, named := []
        pendingGroups := if x.tileMode then [] else x.gridGroups })) ∧
    (x.state = .staging → ctxServed s x.ctx = true →
      (worksetEntries x = [] → exec (.kernelStaged k) s = .next (s.withKernel k { x with state := .staged })) ∧
      (∀ s1 y, stagePass k x (worksetEntries x) [] s = (.staged, s1) → kernelAt s1 k = some y →
        exec (.kernelStaged k) s = .next (s1.withKernel k { y with state := .staged })) ∧
      (∀ s1 y j, stagePass k x (worksetEntries x) [] s = (.fail j, s1) → kernelAt s1 k = some y →
        exec (.kernelStaged k) s = .next (s1.withKernel k (y.stopped 4 j)))) ∧
    (x.state = .staging → x.stageStart + 1000 * x.wdog ≤ gtOf s (ctxDie s x.ctx) →
      exec (.stagingTimeout k) s = .next (s.withKernel k (x.stopped 4 (unstagedEntry s x)))) ∧
    (watchdogRuns s x = true → 1000 * x.wdog ≤ x.count → s.barriers = [] →
      (∀ g gr, s.groups = [(g, gr)] → gr.kernel = k → gr.state = .saved →
        exec (.watchdogExpiry k) s = .next { s.withKernel k
            { x with expired := some (gtOf s (ctxDie s x.ctx)), pendingGroups := [] } with
          groups := [(g, { gr with watchdogTrap := true })] }) ∧
      (∀ g gr f y, s.groups = [(g, gr)] → gr.kernel = k → gr.state = .begun → gr.fibres = [(f, y)] → y.state = .ready →
        y.traps = [] → y.midChain = false → y.doomed = false → y.handler = none → y.buffer = [] → (x.sample 1 ++ x.sample 0 : DWord) ≠ 0 →
        Happens (.watchdogExpiry k) s fun t => t.mem = s.mem ∧
          (∃ x', kernelAt t k = some x' ∧ x'.expired = some (gtOf s (ctxDie s x.ctx)) ∧ x'.pendingGroups = [] ∧
            x'.wdEnded = x.wdEnded + 1) ∧
          ∃ g' y', groupAt t g = some g' ∧ g'.tcause = 0x0A ∧ g'.tepc = y.epc ∧ g'.tmask = y.p0 ∧
            Table.look g'.fibres f = some y' ∧ y'.state = .ready ∧ y'.pc = x.sample 1 ++ x.sample 0 ∧
            y'.handler = some y.stack.length ∧ y'.doomed = true ∧ y'.traps = [] ∧ y'.p0 = y.p0)) ∧
    (∀ t0 g gr f y, x.expired = some t0 → t0 + 1000 * x.wdog ≤ gtOf s (ctxDie s x.ctx) →
      x.state = .launched ∨ x.state = .running → s.groups = [(g, gr)] → gr.kernel = k → gr.fibres = [(f, y)] →
      y.state ≠ .ended → s.barriers = [] →
      x.pendingGroups = [] →
      let ended := x.wdEnded + if gr.watchdogTrap then 1 else 0
      (evaluating s g = false → Happens (.watchdogFinal k) s fun t => t.mem = s.mem ∧ t.groups = [] ∧
        ∃ x', kernelAt t k = some x' ∧ x'.wdEnded = ended ∧ x'.state = .interrupted ∧ x'.code = 1) ∧
      (evaluating s g = true → Happens (.watchdogFinal k) s fun t => t.mem = s.mem ∧
        (∃ g', groupAt t g = some g' ∧ (∀ e ∈ g'.fibres, e.2.state = .ended) ∧ g'.v = gr.v ∧ g'.s = gr.s) ∧
        t.evals = s.evals.map (fun e => if e.2.gid = g then (e.1, { e.2 with mute := true }) else e) ∧
        kernelAt t k = some { x with wdEnded := ended })) ∧
    (∀ (w : Nat) (s1 : State) (c : Context), x.state = .draining → x.isEnded = false → ctxAt s x.ctx = some c →
      c.state = .ready ∨ c.state = .running → writeBackCtx s x.ctx = (w, s1) → (∀ e ∈ s1.writes, e.2.kernel ≠ k) →
      (max w x.wct = 0 ∨ max w x.wct < gtOf s1 (ctxDie s1 x.ctx)) → kernelAt s1 k = some x → s1.contexts = s.contexts →
      let a := x.crec.toNat
      let die := ctxDie s1 x.ctx
      let s2 := (diePut s1 x.ctx die a (completionRecord x (gtOf s1 die))).2
      (a = 0 → Happens (.kernelComplete k) s fun t => t.mem = s1.mem ∧
        kernelAt t k = some { x with wct := max w x.wct, isEnded := true, state := .complete }) ∧
      (a ≠ 0 → a % 32 = 0 → ctxRanks s1 x.ctx ≠ [] → dieHalt s1 x.ctx die a 32 = none →
        Happens (.kernelComplete k) s fun t => t.mem = s2.mem ∧
          kernelAt t k = some { x with wct := max w x.wct, isEnded := true, state := .complete })))

/-- 02 R46, R52; 07 R152, R173; 17 R358, R359; 18 R371 to R376: groups. A new group's registers, lanes and address; a
gang placed launches its kernel, makes its context run and samples its registers; a group all of whose fibres have ended
and whose stores are past their completion times retires, its slot's generation moving on; a record's place lies within
the save area and meets no other's; a group is saved into the record whose place its gang's placing reserved, and
restored to a seat in its turn, or at once after STARV; a drain token frees its slot. That a save record is the group
itself is the model's choice (log entry 34). -/
def Obligations.GroupEventsTakeEffect : Prop :=
  (∀ (k : Kernel) (kid block s3 s2 s1 : Nat) (given : Mask),
    let g := newGroup k kid block s3 s2 s1 given
    g.fibres = [(0, startFibre k (given ||| k.helperLanes given))] ∧
    (startFibre k (given ||| k.helperLanes given)).pc = BitVec.ofNat 64 (rec64 k.record 0x008) ∧
    (∀ j l : Nat, g.readV j l = 0 ∧ g.readO j l = 0) ∧ (∀ n : Nat, Table.rd g.flags 0 n = 0 ∧ Table.rd g.p 0 n = 0)) ∧
  (∀ (k : Kernel) (s1 s2 s3 die core room j x : Nat),
    [k.width, s1, s2, s3, k.arg.toNat % 2 ^ 32, k.arg.toNat / 2 ^ 32, die, 4 * core + room][j]? = some x →
      Table.rd (startS k s1 s2 s3 die core room) 0 j = BitVec.ofNat 32 x) ∧
  (∀ (s s0 s1 : State) (k : Nat) (x x1 : Kernel) (ws : List Waiter) (c : Context), latchTiles s = s0 →
    kernelAt s0 k = some x → (unheld (waiters s0 (kernelPart s0 x)) []).filter (fun w => w.1 = k && w.2.2.2) = ws → ws ≠ [] →
    placeFirst s0 k x ws = some s1 → kernelAt s1 k = some x1 →
    hasGroups s1 k = true → ctxAt s1 x.ctx = some c →
    Happens (.gangPlace k) s fun t => t.groups = s1.groups ∧ t.blocks = s1.blocks ∧ t.mem = s1.mem ∧
      kernelAt t k = some (x1.placedFor c (gtOf s1 (ctxDie s1 x1.ctx))) ∧
      ∃ c', ctxAt t x.ctx = some c' ∧ c'.state = if c.state = .ready then .running else c.state) ∧
  (∀ (s : State) (g : Nat) (x : Group) (d : Die), groupAt s g = some x → (x.state = .begun ∨ x.state = .resident) →
    allEnded x = true → groupQuiet s g x = true → dieAt s x.die = some d → Table.wf d.gens 0 = true →
    (∀ e ∈ s.l1, e.1 / 2 ^ 48 = coreKey x.die x.core → e.2.dirty = true → e.2.owner ≠ some g) →
    Happens (.groupRetire g) s fun t => (Table.look (Table.del s.groups g) g = none → groupAt t g = none) ∧ t.mem = s.mem ∧
      (∀ n h, n ≠ g → groupAt s n = some h → ∃ l b, groupAt t n = some { h with links := l, lentBy := b } ∧
        ((∀ e ∈ s.helps, e.1 ≠ g) → b = h.lentBy)) ∧
      ∃ d', dieAt t x.die = some d' ∧ Table.rd d'.gens 0 ((4 * x.core + x.room) * 32 + x.slot) = (x.gen + 1) % 16 ∧
        (x.gen = 15 → ((4 * x.core + x.room) * 32 + x.slot, s.nextId) ∈ d'.draining)) ∧
  (∀ (s : State) (die room slot token : Nat) (d : Die), dieAt s die = some d →
    d.draining.find? (fun x => x.1 = room * 32 + slot) = some (room * 32 + slot, token) → aheadOf s token = false →
    Happens (.drainTokenReturn die room slot) s fun t => t.groups = s.groups ∧
      dieAt t die = some { d with draining := d.draining.filter fun x => x ≠ (room * 32 + slot, token) }) ∧
  (∀ (s t : State) (ctx key units : Nat) (kind : RecKind), reserveRecord s ctx kind key units = some t →
    ∃ r, t.saves = r :: s.saves.filter (recordStands s) ∧ r.kind = kind ∧ r.key = key ∧ r.ctx = ctx ∧ r.units = units ∧
      r.filled = false ∧ r.off + units ≤ saveUnits s ctx ∧
      ∀ q ∈ s.saves, recordStands s q = true → q.ctx = ctx → q.off + q.units ≤ r.off ∨ r.off + units ≤ q.off) ∧
  (∀ (s s1 : State) (g w : Nat) (x x1 : Group) (k : Kernel) (c : Context), groupAt s g = some x →
    kernelAt s x.kernel = some k → saveWanted s x = true → x.state = .begun → saveReady s g x = true →
    writeBackFor s g x k.ctx (!(s.groups.any fun e => e.1 ≠ g && e.2.block = x.block &&
      (e.2.state = .resident || e.2.state = .begun))) = (w, s1) → (max w x.savedAt = 0 ∨ max w x.savedAt < gtOf s1 x.die) →
    groupAt s1 g = some x1 → x1.state = .begun → ctxAt s1 k.ctx = some c → (c.saveABad = false ∨ c.saveBBad = false) →
    Happens (.groupSave g) s fun t => groupAt t g = some (x1.asSaved (gtOf s1 x.die)) ∧
      ((∀ l : Nat, badLine s1 l = false) → t.mem = s1.mem) ∧
      ∀ r ∈ s1.saves, r.kind = .group → r.key = g → ∃ r' ∈ t.saves, r'.kind = .group ∧ r'.key = g ∧ r'.ctx = r.ctx ∧
        r'.off = r.off ∧ r'.units = r.units ∧ r'.filled = true ∧ r'.badA = c.saveABad ∧ r'.badB = c.saveBBad ∧
        ((∀ l : Nat, badLine s1 l = false) → r'.textA = copyText s1 c false r ∧ r'.textB = copyText s1 c true r)) ∧
  (∀ (s s1 : State) (g : Nat) (x : Group) (k : Kernel) (c : Context), groupAt s g = some x →
    kernelAt s x.kernel = some k → x.state = .saved → restorable s x.kernel k (k.gangOf x.s3 x.s2) = true →
    ctxAt s k.ctx = some c → recordsLost s c (gangGroups s x.kernel k (k.gangOf x.s3 x.s2)) = false →
    restoreGang (readRecords s k.ctx c (gangGroups s x.kernel k (k.gangOf x.s3 x.s2))) x.kernel k (k.gangOf x.s3 x.s2) = some s1 →
    ((∃ w ∈ unheld (waiters s (kernelPart s k)) [], w.1 = x.kernel ∧ w.2.1 = k.gangOf x.s3 x.s2 ∧ w.2.2.2 = false) →
      Happens (.groupRestore g) s fun t => t.groups = s1.groups ∧ t.mem = s1.mem ∧ t.saves = s1.saves) ∧
    (placing s k = true → x.savedAt + starvOf s k.ctx ≤ gtOf s x.die →
      Happens (.starvRestore g) s fun t => t.mem = s1.mem ∧ t.saves = s1.saves ∧
        t.groups = s1.groups.map fun e => if e.2.kernel = x.kernel ∧ k.gangOf e.2.s3 e.2.s2 = k.gangOf x.s3 x.s2 ∧
            e.2.state ≠ .saved
          then (e.1, { e.2 with starvRestored := gtOf s1 e.2.die }) else e)) ∧
  (∀ (s s1 : State) (kid g : Nat) (x : Group) (k : Kernel) (y : Group), gangGroups s kid k (k.gangOf x.s3 x.s2) = [(g, x)] →
    k.expired = none → seatBlocks s k [(x.block, x.die)] = some s1 → groupAt s1 g = some y →
    ∃ t, restoreGang s kid k (k.gangOf x.s3 x.s2) = some t ∧ (∀ r ∈ t.saves, r.kind = .group → r.key = g → r.filled = false) ∧
      (x.state ≠ .pending → ∃ l, groupAt t g = some { y with
        state := .begun, clearing := false, lastIssue := gtOf s1 y.die, lentBy := l
        fibres := y.fibres.map fun f =>
          if f.2.state = .ready then (f.1, { f.2 with readySince := some (gtOf s1 y.die), due := false }) else f }) ∧
      (x.state = .pending → groupAt t g = some { y with
        s := startS k y.s1 y.s2 y.s3 y.die y.core y.room
        fibres := y.fibres.map fun f => (f.1, { f.2 with readySince := some (gtOf s1 y.die) }) }))

namespace Sys2Proof.Machine

/-! ## Queues and packets (17 R349 to R362, R443; 06 R148, R149) -/

/-- The state with a queue of a context in place of the old one. -/
def State.withQueue (s : State) (ctx q : Nat) (c : Context) (u : Queue) : State :=
  s.withCtx ctx { c with queues := Table.ins c.queues q u }

/-- A journal entry that an accepted packet makes (17 R355). -/
def Queue.accepted (u : Queue) (bs : List Byte) (err : Nat) (kernel : Option Nat) (copies : List Nat) : Packet :=
  { seq := u.next, bytes := bs, begun := decide (err ≠ 0), ended := false, err, kernel, wct := 0, lastRead := 0
    worked := decide (err ≠ 0), copies }

/-- A packet that has done its work, up to a WCT. -/
def Packet.did (p : Packet) (w : Nat) : Packet := { p with begun := true, worked := true, wct := max p.wct w }

/-- The group of a LAUNCH instruction whose status has come: its token register, its token and its flag. -/
def LaunchOp.answered (l : LaunchOp) (id status info : Nat) (g g' : Group) : Prop :=
  g'.s = (g.writeS l.reg (BitVec.ofNat 32 (status * 2 ^ 28 + info % 2 ^ 28))).s ∧ g'.flags = (g.lowered l.flag).flags ∧
    g'.tokens = (g.tokens.filter fun e => decide (e.2 ≠ id)) ∧ g'.fibres = g.fibres

end Sys2Proof.Machine

/-- 17 R349 to R355, R443; 06 R148, R149: queues. A doorbell announces packets to a host queue, one at or below ACCEPT
leaves a single try, and a device queue ignores it; a slot that does not match is read again, and a kick that stays
unanswered for STALE goes stale; a packet that matches is journalled on the dies of its copies, with its kernel where it
is a LAUNCH that can run, and ACCEPT advances; a device-side LAUNCH appends its packet to its queue, or answers why not.
Moments that the rules leave open are the model's (log entry 32). -/
def Obligations.QueueEventsTakeEffect : Prop :=
  (∀ (s : State) (ctx q : Nat) (c : Context) (u : Queue), queueAt s ctx q = some (c, u) →
    (∀ kick : Word, u.device = false →
      let kmax := if newer u.kmax.toNat kick.toNat = true then kick else u.kmax
      (newer u.accept.toNat kick.toNat = true → exec (.doorbell ctx q kick) s = .next (s.withQueue ctx q c { u with
        kmax, kicked := true, lastKick := gtOf s (ctxDie s ctx), lastTry := 0 })) ∧
      (newer u.accept.toNat kick.toNat = false →
        exec (.doorbell ctx q kick) s = .next (s.withQueue ctx q c { u with kmax, oneTry := true }))) ∧
    (∀ kick : Word, u.device = true → exec (.doorbell ctx q kick) s = .next s) ∧
    (∀ s1 c1, trying s ctx u = true → u.lastTry + 250 ≤ gtOf s (ctxDie s ctx) → slotMatch s ctx u = (none, s1) →
      queueAt s1 ctx q = some (c1, u) → exec (.acceptReread ctx q) s =
        .next (s1.withQueue ctx q c1 { u with lastTry := gtOf s1 (ctxDie s1 ctx), oneTry := false })) ∧
    (∀ s1 c1, u.kicked = true → ctxServed s ctx = true → u.lastKick + 1000 * u.stale ≤ gtOf s (ctxDie s ctx) →
      slotMatch s ctx u = (none, s1) → queueAt s1 ctx q = some (c1, u) →
      (newer u.kmax.toNat u.next = true →
        exec (.staleKick ctx q) s = .next (s1.withQueue ctx q c1 { u with kicked := false })) ∧
      (newer u.kmax.toNat u.next = false → Happens (.staleKick ctx q) s fun t =>
        ∃ c', queueAt t ctx q = some (c', { u with kicked := false, stalek := true }))) ∧
    (∀ s1 c1 bs, trying s ctx u = true → slotMatch s ctx u = (some bs, s1) → queueAt s1 ctx q = some (c1, u) →
      (packetFault c q bs = 0 → pkType bs = 1 → Happens (.packetAccept ctx q) s fun t =>
        (∃ c', queueAt t ctx q = some (c', { u with
          accept := BitVec.ofNat 32 u.next, oneTry := false
          journal := u.journal ++ [u.accepted bs 0 (some s1.nextId) (journalDies s1 ctx)] })) ∧
        ∃ k, kernelAt t s1.nextId = some k ∧ k.ctx = ctx ∧ k.queue = q ∧ k.seq = rec32 bs 4 ∧ k.state = .described ∧
          k.recordAt = rec64 bs 0x10 ∧ k.arg = BitVec.ofNat 64 (rec64 bs 0x18) ∧ k.crec = BitVec.ofNat 64 (rec64 bs 0x20)) ∧
      (packetFault c q bs ≠ 0 ∨ pkType bs ≠ 1 → Happens (.packetAccept ctx q) s fun t => t.kernels = s1.kernels ∧
        ∃ c', queueAt t ctx q = some (c', { u with
          accept := BitVec.ofNat 32 u.next, oneTry := false
          journal := u.journal ++ [u.accepted bs (packetFault c q bs) none (journalDies s1 ctx)] })))) ∧
  (∀ (s : State) (ctx a b : Nat) (rest : List Nat), ctxRanks s ctx = a :: b :: rest → journalDies s ctx = [a, b]) ∧
  (∀ (s s1 : State) (la : Nat) (l : LaunchOp) (bs : List Byte) (g : Group), Table.look s.launches la = some l →
    groupAt s1 l.gid = some g → dieGet s l.ctx (ctxDie s l.ctx) l.va 64 = (.ok bs, s1) →
    let answer (status info : Nat) (t : State) : Prop :=
      t.launches = Table.del s1.launches la ∧ ∃ g', groupAt t l.gid = some g' ∧ l.answered la status info g g'
    (pkType bs ≠ 1 → Happens (.launchAppend la) s fun t => t.mem = s1.mem ∧ answer 3 (pkType bs) t) ∧
    (pkType bs = 1 → queueAt s1 l.ctx l.queue = none → Happens (.launchAppend la) s fun t => t.mem = s1.mem ∧ answer 2 0 t) ∧
    (∀ c u, pkType bs = 1 → queueAt s1 l.ctx l.queue = some (c, u) →
      let sn := (u.kmax.toNat + 1) % 2 ^ 32
      (u.device = false → Happens (.launchAppend la) s fun t => t.mem = s1.mem ∧ answer 2 0 t) ∧
      (u.device = true → 2 ^ u.log2n < (sn + 2 ^ 32 - u.accept.toNat) % 2 ^ 32 →
        Happens (.launchAppend la) s fun t => t.mem = s1.mem ∧ answer 1 0 t) ∧
      (∀ filled : List Byte, u.device = true → (sn + 2 ^ 32 - u.accept.toNat) % 2 ^ 32 ≤ 2 ^ u.log2n →
        dieHalt s1 l.ctx (ctxDie s l.ctx) (u.slot sn) 64 = none →
        filled = putBytes (putBytes bs 4 (toBytes 4 sn ++ toBytes 4 0)) 8
          (toBytes 4 (packetCheck (putBytes bs 4 (toBytes 4 sn ++ toBytes 4 0)))) →
        groupAt (diePut s1 l.ctx (ctxDie s l.ctx) (u.slot sn) filled).2 l.gid = some g →
        Happens (.launchAppend la) s fun t =>
          t.mem = (diePut s1 l.ctx (ctxDie s l.ctx) (u.slot sn) filled).2.mem ∧ answer 0 sn t ∧
          ∃ c' u', queueAt t l.ctx l.queue = some (c', u') ∧ u'.kmax = BitVec.ofNat 32 sn ∧ u'.kicked = true ∧
            u'.accept = u.accept ∧ u'.journal = u.journal)))

/-- 17 R353, R356, R361, R362; 10 R217: packets. Each kind does its work when its turn comes: LAUNCH begins, NOP does
nothing, COPY copies, WAIT compares and is read again, SIGNAL stores or adds, STAGE stages a range, INVALIDATE drops
translations, RESYNC writes its snapshot; a packet whose work is done and past its completion time ends, and DONE
advances. The snapshot's numbers, and when INVALIDATE ends, are the model's (log entries 30 and 35). -/
def Obligations.PacketEventsTakeEffect : Prop :=
  (∀ (s : State) (ctx q sn : Nat) (p : Packet),
    let now (s1 t : State) (p' : Packet) : Prop := t.mem = s1.mem ∧ t.groups = s1.groups ∧ packetAt t ctx q sn = some p'
    let die := ctxDie s ctx
    (runnable s ctx q sn 1 = some p →
      Happens (.pktLaunch ctx q sn) s fun t => now s t { p with begun := true }) ∧
    (runnable s ctx q sn 8 = some p → Happens (.pktNop ctx q sn) s fun t => now s t (p.did 0)) ∧
    (∀ s1 bs, runnable s ctx q sn 2 = some p → dieGet s ctx die (rec64 p.bytes 0x10) (rec64 p.bytes 0x20) = (.ok bs, s1) →
      dieHalt s1 ctx die (rec64 p.bytes 0x18) bs.length = none →
      let put := diePut s1 ctx die (rec64 p.bytes 0x18) bs
      Happens (.pktCopy ctx q sn) s fun t => now put.2 t (p.did put.1)) ∧
    (∀ s1 bs, runnable s ctx q sn 3 = some p →
      dieGet s ctx die (rec64 p.bytes 0x10) (if bits (rec32 p.bytes 0x20) 2 2 = 1 then 8 else 4) = (.ok bs, s1) →
      let after : Packet := if waitHolds p.bytes (ofBytes bs) = true then p.did 0
        else { p with begun := true, lastRead := gtOf s1 (ctxDie s1 ctx) }
      (p.begun = false → Happens (.pktWait ctx q sn) s fun t => now s1 t after) ∧
      (p.begun = true → p.lastRead + 1000 ≤ gtOf s die ∨ waitHolds p.bytes (ofBytes bs) = true →
        Happens (.pktWaitReread ctx q sn) s fun t => now s1 t after)) ∧
    (∀ s1 bs, runnable s ctx q sn 4 = some p →
      let va := rec64 p.bytes 0x10
      let n := if bits (rec32 p.bytes 0x20) 1 1 = 1 then 8 else 4
      let pg := translateCp s ctx va
      (pg.scope = 4 → pg.atom = true ∧ (pg.served = true →
        atomicPath s ctx { t := { lane := 0, off := 0, va, n }, p := pg, key := pg.key s ctx die va } = true)) →
      dieGet s ctx die va n = (.ok bs, s1) → dieHalt s1 ctx die va n = none →
      let x := if bits (rec32 p.bytes 0x20) 0 0 = 1 then (ofBytes bs + numAt p.bytes 0x18 n) % 2 ^ (8 * n)
        else numAt p.bytes 0x18 n
      let put := diePut s1 ctx die va (toBytes n x)
      Happens (.pktSignal ctx q sn) s fun t => now put.2 t (p.did put.1)) ∧
    (runnable s ctx q sn 5 = some p →
      (∀ g ∈ pagesOfRange s ctx (rec64 p.bytes 0x10) (rec64 p.bytes 0x18), pageStaged (rec32 p.bytes 0x20) g = true) →
      Happens (.pktStage ctx q sn) s fun t => now s t (p.did 0)) ∧
    (runnable s ctx q sn 6 = some p →
      (p.begun = false → rec64 p.bytes 0x18 = 0 → rec32 p.bytes 0x20 % 2 = 0 →
        Happens (.pktInvalidate ctx q sn) s fun t => now s t { p with begun := true, lastRead := s.nextId } ∧
          t.rangeTlb = s.rangeTlb ∧ t.tlb = s.tlb.filter fun e => decide (e.ctx ≠ ctx)) ∧
      (p.begun = false → rec64 p.bytes 0x18 ≠ 0 → rec32 p.bytes 0x20 % 2 = 0 →
        Happens (.pktInvalidate ctx q sn) s fun t => now s t { p with begun := true, lastRead := s.nextId } ∧
          t.rangeTlb = s.rangeTlb ∧ t.tlb = s.tlb.filter fun e => !(decide (e.ctx = ctx ∧
            e.va < rec64 p.bytes 0x10 + rec64 p.bytes 0x18 ∧ rec64 p.bytes 0x10 < e.va + 2 ^ e.size))) ∧
      (p.begun = false → rec32 p.bytes 0x20 % 2 = 1 →
        Happens (.pktInvalidate ctx q sn) s fun t => now s t { p with begun := true, lastRead := s.nextId } ∧
          (t.rangeTlb = s.rangeTlb.filter fun e => decide (e.2.1 ≠ ctx)) ∧
          ∀ c, ctxAt s ctx = some c → ∃ c', ctxAt t ctx = some c' ∧ c'.live = c.ranges ∧ c'.mapped = c.desc) ∧
      (p.begun = true → (∀ e ∈ s.writes, e.1 < p.lastRead → e.2.ctx ≠ ctx) → (∀ e ∈ s.ops, e.1 < p.lastRead → e.2.ctx ≠ ctx) →
        ∀ c, ctxAt s ctx = some c → Happens (.pktInvalidate ctx q sn) s fun t => now s t (p.did c.wct))) ∧
    (∀ c, runnable s ctx q sn 7 = some p → ctxAt s ctx = some c →
      let snap := resyncBytes s c.part (gtOf s die)
      let bs := if rec64 p.bytes 0x18 < 64 + snap.2.length then snap.1 else snap.1 ++ snap.2
      dieHalt s ctx die (rec64 p.bytes 0x10) bs.length = none →
      let put := diePut s ctx die (rec64 p.bytes 0x10) bs
      Happens (.pktResync ctx q sn) s fun t => now put.2 t (p.did put.1))) ∧
  (∀ (s : State) (ctx q : Nat) (c : Context) (u : Queue) (p : Packet) (rest : List Packet), queueAt s ctx q = some (c, u) →
    u.journal = p :: rest → p.worked = true → p.ended = false → p.err = 0 → pkNotify p.bytes = false → pkType p.bytes ≠ 6 →
    (p.wct = 0 ∨ p.wct < gtOf s (ctxDie s ctx)) → c.state = .ready ∨ c.state = .running →
    (∀ r ∈ rest, r.ended = false ∧ r.seq ≠ p.seq) → u.done ≠ BitVec.ofNat 32 p.seq →
    Happens (.packetEnd ctx q p.seq) s fun t =>
      (∀ n g, groupAt s n = some g → ∃ fs b, groupAt t n = some { g with fibres := fs, lentBy := b }) ∧ ∃ c',
      queueAt t ctx q = some (c', { u with done := BitVec.ofNat 32 p.seq, journal := rest }))

namespace Sys2Proof.Machine

/-! ## The provider's commands (18 R363 to R366; 26 R442; 00 R6) -/

/-- A mailbox with its RESULT and, where the command answers one, the value of word 15 (18 R364). -/
def Mailbox.answered (m : Mailbox) (result : Byte) (value : Option Word) : Mailbox :=
  { m with
    result
    words := match value with
      | some x => Table.wr m.words 0 15 x
      | none => m.words }

/-- The PF's mailbox with a RESULT. -/
def State.answer (s : State) (result : Byte) : State := { s with mailbox := s.mailbox.answered result none }

/-- The PF's mailbox takes a command. -/
def State.pfReady (s : State) : Prop := s.mailbox.busy = false

/-- A die's registers and log in host memory: what LOGREAD writes (26 R442). -/
def logReadBytes (d : Die) : List Byte := logBytes d fun _ => true

end Sys2Proof.Machine

/-- 18 R364 to R366; 26 R442; 00 R6: the provider's commands and register writes. PCREATE makes a partition of idle
positions and answers its number; CCREATE makes a context from its descriptor, CUPDATE takes one anew, CRUN, CRESTORE
and CSAVE move it between its states, CDESTROY and PDESTROY end it and its partition; LOGREAD writes a die's log to host
memory; an unknown code answers 1; a write to the command block is held, one to QSTAT clears STALEK, one to a read-only
register does nothing. Corners that the rules leave open are the model's (log entries 34 and 39). -/
def Obligations.ProviderCommandsTakeEffect : Prop :=
  (∀ (s : State) (x0 y0 w h starv : Nat), s.pfReady → 1 ≤ w → w ≤ 6 → 1 ≤ h → h ≤ 6 → x0 + w ≤ 6 → y0 + h ≤ 6 →
    (∃ d ∈ rectangle x0 y0 w h, dieActive s d = true) → 100 ≤ starv → starv ≤ 100000 →
    ((∀ p ∈ s.partitions, ∀ d ∈ rectangle x0 y0 w h, p.2.holds d = false) →
      Happens (.pcreate 0 x0 y0 w h starv) s fun t =>
        t.mailbox = s.mailbox.answered 0 (some (BitVec.ofNat 32 (6 * y0 + x0))) ∧ t.contexts = s.contexts ∧
        ∃ p, partAt t (6 * y0 + x0) = some p ∧ p.x0 = x0 ∧ p.y0 = y0 ∧ p.w = w ∧ p.h = h ∧ p.starv = starv ∧
          (∃ key, p.keys = [(0, key)]) ∧ p.passport = none ∧ p.edKey = none ∧ p.mlKey = none) ∧
    ((∃ p ∈ s.partitions, ∃ d ∈ rectangle x0 y0 w h, p.2.holds d = true) →
      exec (.pcreate 0 x0 y0 w h starv) s = .next (s.answer 4))) ∧
  (∀ (s : State) (p : Nat) (x : Partition), s.pfReady → partAt s p = some x → (∀ c ∈ s.contexts, c.2.part ≠ p) →
    Happens (.pdestroy 0 p) s fun t => t.partitions = Table.del (Table.upd s.partitions p fun x =>
        { x with closing := true, keys := x.keys.filter fun k => k.1 = 0, passport := none }) p ∧
      t.contexts = s.contexts ∧ t.mailbox.busy = false ∧ t.mailbox.result = 0) ∧
  (∀ (s : State) (vf p addr : Nat), vf ≠ 0 → (mailboxOf s vf).busy = false →
    exec (.ccreate vf p addr) s = .next (updMailbox s vf fun m => { m with result := 1 })) ∧
  (∀ (s s1 : State) (p addr : Nat) (x : Partition) (d tab : List Byte), s.pfReady → partAt s p = some x → x.closing = false →
    addr % 2048 = 0 → readDesc s addr = (d, tab, s1) → descOk s1 x d = true →
    (∀ q : Nat, q < 64 → qdescOk (qdesc tab q) = true) →
    (∀ c ∈ s1.contexts, ¬(c.2.part = p ∧ c.2.state ≠ .destroyed ∧
      (c.2.num = bits (rec32 d 4) 3 0 ∨ c.2.vf = bits (rec32 d 4) 15 8))) →
    ctxAt s1 (p * 16 + bits (rec32 d 4) 3 0) = none →
    Happens (.ccreate 0 p addr) s fun t => t.mem = s1.mem ∧ t.mailbox = s1.mailbox.answered 0 none ∧
      ∃ c, ctxAt t (p * 16 + bits (rec32 d 4) 3 0) = some c ∧ c.part = p ∧ c.num = bits (rec32 d 4) 3 0 ∧
        c.vf = bits (rec32 d 4) 15 8 ∧ c.state = .created ∧ c.desc = d ∧ c.tvec = BitVec.ofNat 64 (rec64 d 0x058 / 4 * 4) ∧
        c.lease = 0x102008 ∧ c.fairt = 1000 ∧ c.rngctl = 0 ∧ c.opaq = 0x3F7F0000 ∧ c.gwin = 256 ∧ c.dens = 0x2000 ∧
        c.outl = 0x400 ∧ c.hotthr = 192 ∧ c.trcb = 0 ∧ c.nets = [] ∧
        c.tdi = if s.tdiErrors.contains c.vf then .error else .unlocked) ∧
  (∀ (s s1 : State) (p n addr : Nat) (x : Partition) (c : Context) (d tab : List Byte), s.pfReady → n < 16 → partAt s p = some x →
    ctxAt s (p * 16 + n) = some c → c.state ≠ .destroyed → c.state ≠ .lost → c.tdi = .unlocked → addr % 2048 = 0 →
    readDesc s addr = (d, tab, s1) → ctxAt s1 (p * 16 + n) = some c → c.saveABad = false → c.saveBBad = false →
    let d' := putBytes d 0x004 (toBytes 4 (rec32 c.desc 0x004) ++ toBytes 8 (rec64 d 0x008) ++
      toBytes 8 (rec64 c.desc 0x010) ++ toBytes 8 (rec64 c.desc 0x018))
    descOk s1 x d' = true → (∀ q : Nat, q < 64 → qdescOk (qdesc tab q) = true) →
    Happens (.cupdate 0 p n addr) s fun t => t.mem = s1.mem ∧ t.mailbox = s1.mailbox.answered 0 none ∧
      ctxAt t (p * 16 + n) = some { c with
        desc := d', tvec := tvecOf d', ranges := descRanges d', queues := descQueues tab c.queues }) ∧
  (∀ (s : State) (p n : Nat), s.pfReady → 16 ≤ n → exec (.crun 0 p n) s = .next (s.answer 1) ∧
    exec (.csave 0 p n) s = .next (s.answer 1) ∧ exec (.crestore 0 p n) s = .next (s.answer 1) ∧
    exec (.cdestroy 0 p n) s = .next (s.answer 1)) ∧
  (∀ (s : State) (p n : Nat) (c : Context), s.pfReady → n < 16 → ctxAt s (p * 16 + n) = some c →
    (c.tdi = .unlocked → c.state = .created → exec (.crun 0 p n) s =
      .next ((s.withCtx (p * 16 + n) { c with state := .ready }).answer 0)) ∧
    (c.tdi = .unlocked → c.state ≠ .created → exec (.crun 0 p n) s = .next (s.answer 2)) ∧
    (c.tdi ≠ .unlocked → exec (.crun 0 p n) s = .next (s.answer 3)) ∧
    (c.state = .saved → exec (.crestore 0 p n) s =
      .next ((s.withCtx (p * 16 + n) { c with state := .ready }).answer 0)) ∧
    (c.state ≠ .saved → exec (.crestore 0 p n) s = .next (s.answer 2)) ∧
    (c.state = .ready ∨ c.state = .running →
      (∃ e ∈ s.groups, ∃ k, kernelAt s e.2.kernel = some k ∧ k.ctx = p * 16 + n ∧ e.2.state ≠ .saved ∧
        e.2.state ≠ .pending) →
      exec (.csave 0 p n) s = .next { s.withCtx (p * 16 + n) { c with state := .preempting } with
        mailbox := { s.mailbox with busy := true, waiting := some (csaveKey (p * 16 + n)) } }) ∧
    (c.state = .ready ∨ c.state = .running →
      (∀ e ∈ s.groups, ∀ k, kernelAt s e.2.kernel = some k → k.ctx = p * 16 + n →
        e.2.state = .saved ∨ e.2.state = .pending) →
      exec (.csave 0 p n) s = .next { s.withCtx (p * 16 + n) { c with state := .saved } with
        mailbox := { s.mailbox with busy := false, result := 0, waiting := none } }) ∧
    (c.state = .destroyed → exec (.cdestroy 0 p n) s = .next (s.answer 2)) ∧
    (c.state ≠ .destroyed → s.kernels = [] → s.groups = [] → s.slots = [] → c.queues = [] → s.l1 = [] →
      partAt s c.part = none ∨ (∃ x, partAt s c.part = some x ∧ x.closing = false) →
      Happens (.cdestroy 0 p n) s fun t => t.contexts = Table.del (Table.ins s.contexts (p * 16 + n)
          { c with state := .destroyed, nets := [], tdi := .unlocked, ide := [] }) (p * 16 + n) ∧
        t.mailbox = { s.mailbox with busy := false, result := 0, waiting := none } ∧
        ∀ a : Nat, ¬(rec64 c.desc 0x010 ≤ a ∧ a < rec64 c.desc 0x010 + rec64 c.desc 0x020) →
          ¬(rec64 c.desc 0x018 ≤ a ∧ a < rec64 c.desc 0x018 + rec64 c.desc 0x020) → Memory.read t.mem a = Memory.read s.mem a)) ∧
  (∀ (s : State) (die addr : Nat) (d : Die), s.pfReady → dieAt s die = some d → d.active = true →
    addr % 64 = 0 → exec (.logread 0 die addr) s = .next (State.answer (hostPut s addr (logReadBytes d)) 0)) ∧
  (∀ (s : State) (code : Nat), s.pfReady → (code = 0 ∨ 10 ≤ code) →
    exec (.mailboxUnknownCode 0 code) s = .next (s.answer 1)) ∧
  (∀ (s : State) (val : Word),
    (∀ vf i : Nat, i < 16 → exec (.registerWrite (.mailboxWord vf i) val) s =
      .next (updMailbox s vf fun m => { m with words := Table.wr m.words 0 i val })) ∧
    (∀ vf : Nat, exec (.registerWrite (.mbstat vf) val) s = .next s ∧
      (val ≠ 1 → exec (.registerWrite (.mbdoor vf) val) s = .next s)) ∧
    (∀ (ctx q : Nat) (c : Context) (u : Queue), ctxAt s ctx = some c → Table.look c.queues q = some u →
      exec (.registerWrite (.qstat ctx q) val) s =
        .next (s.withQueue ctx q c { u with stalek := u.stalek && !val.getLsbD 1 })) ∧
    (∀ r ∈ [RegTarget.buact0, .buact1], exec (.registerWrite r val) s = .next s) ∧
    (∀ ctx q : Nat, exec (.registerWrite (.accept ctx q) val) s = .next s ∧
      exec (.registerWrite (.done ctx q) val) s = .next s))

namespace Sys2Proof.Machine

/-! ## Attestation, keys, passports, TDISP (18 R379 to R385) -/

/-- A host link is there, with the record `l` (01 R14, R15). -/
def LinkUp (s : State) (k : Nat) (l : HostLink) : Prop := s.hostLinks[k]? = some l ∧ linkAvailable s k = true

/-- The state with a host link's record in place of the old one. -/
def State.withLink (s : State) (k : Nat) (l : HostLink) : State :=
  { s with hostLinks := s.hostLinks.mapIdx fun i x => if i = k then l else x }

/-- A host link whose responder has answered a request, both of them in the transcript (R379). -/
def HostLink.heard (l : HostLink) (req resp : List Byte) : HostLink :=
  { l with reply := resp, transcript := l.transcript ++ req ++ resp }

/-- What signs a response to a request: in OpaqueData one element with the ML-DSA-65 signature of the transcript's hash, then
its Ed25519 signature (R379). -/
def HostLink.signatures (l : HostLink) (req resp : List Byte) : List Byte :=
  let hash := digestBytes (Config.sha384 (l.transcript ++ req ++ resp))
  let sig := Config.mldsaSign hash
  toBytes 2 (2 + sig.length) ++ toBytes 2 sig.length ++ sig ++ Config.ed25519Sign hash

/-- A host link whose responder has answered a request with a signed response. -/
def HostLink.signs (l : HostLink) (req resp : List Byte) : HostLink := l.heard req (resp ++ l.signatures req resp)

/-- A host link whose session is a partition's tenant's, or is free to become it while no other session is (log entry 39). -/
def HostLink.tenantIs (l : HostLink) (s : State) (p : Nat) : Prop :=
  l.tenant = some p ∨ (l.tenant = none ∧ ∀ x ∈ s.hostLinks, x.session = true → x.tenant ≠ some p)

/-- A host link whose session has become a partition's tenant's. -/
def HostLink.bound (l : HostLink) (p : Nat) : HostLink := { l with tenant := some p }

/-- A host link with a response that no transcript holds. -/
def HostLink.said (l : HostLink) (bs : List Byte) : HostLink := { l with reply := bs }

/-- What a request on the secured session leaves: `s` with the link's answer that the request was done. -/
def State.vendor (s : State) (k : Nat) (l : HostLink) (bs : List Byte) : State :=
  s.withLink k (l.said ([0x13, 0x7E, 0, 0] ++ bs))

/-- The state with a partition in place of the old one. -/
def State.withPart (s : State) (p : Nat) (x : Partition) : State := { s with partitions := Table.ins s.partitions p x }

end Sys2Proof.Machine

/-- 18 R379 to R385: the responder. Negotiation goes on stage by stage and an earlier request restarts it; digests,
certificates, challenges and measurements are answered, with both signatures over the hash of the transcript, which
every request and response lengthens; a key exchange that FINISH closes makes a secured session, which END_SESSION ends.
On the session of a partition's tenant, and on no other, keys go into slots 1 to 15, and no byte changes but those under
a slot whose key is replaced, a tenant's keys and a valid passport are installed, an interface is locked, started,
stopped, from ERROR too, and reported, and streams are keyed; GETNONCE and PPDEL need none. A passport at its expiry
ends. The codes and layouts of replies are presumed (log entry 40), what cryptography gives is free (log entry 41), and
which requests need a session, that a stray TLP ends a locked interface, and that a key for an empty slot changes no
byte are the model's choices (log entries 39 and 66). -/
def Obligations.AttestationEventsTakeEffect : Prop :=
  (∀ (s : State) (k : Nat) (l : HostLink), LinkUp s k l →
    exec (.getVersion k) s = .next (s.withLink k (
      { l with spdm := 1, algs := 0, session := false, tenant := none, transcript := [] }.heard [0x13, 0x84, 0, 0] [0x13, 0x04, 0, 0])) ∧
    (1 ≤ l.spdm → exec (.getCapabilities k) s =
      .next (s.withLink k ({ l with spdm := max l.spdm 2 }.heard [0x13, 0xE1, 0, 0] [0x13, 0x61, 0, 0]))) ∧
    (∀ algs : Word, 2 ≤ l.spdm → algs &&& 0xF = 0xF → exec (.negotiateAlgorithms k algs) s =
      .next (s.withLink k ({ l with spdm := max l.spdm 3, algs := 0xF }.heard ([0x13, 0xE3, 0, 0] ++ toBytes 4 algs.toNat)
        [0x13, 0x63, 0, 0, 0x0F, 0, 0, 0]))) ∧
    (3 ≤ l.spdm →
      exec (.getDigests k) s = .next (s.withLink k (l.heard [0x13, 0x81, 0, 0] ([0x13, 0x01, 0, 1] ++
        digestBytes (Config.sha384 (Config.certChain 0))))) ∧
      exec (.getCertificate k 0) s =
        .next (s.withLink k (l.heard [0x13, 0x82, 0, 0] ([0x13, 0x02, 0, 0] ++ Config.certChain 0))) ∧
      (∀ nonce : BitVec 256, exec (.challenge k nonce) s =
        .next (s.withLink k (l.signs ([0x13, 0x83, 0, 0] ++ toBytes 32 nonce.toNat)
          ([0x13, 0x03, 0, 1] ++ digestBytes (Config.sha384 (Config.certChain 0)) ++ toBytes 32 nonce.toNat)))) ∧
      (∀ (idx : Nat) (nonce : BitVec 256) (x : BitVec 384), measurement s idx = some x →
        exec (.getMeasurements k idx nonce) s =
          .next (s.withLink k (l.signs ([0x13, 0xE0, 1] ++ toBytes 1 idx ++ toBytes 32 nonce.toNat)
            ([0x13, 0x60, 0, 0] ++ (toBytes 1 idx ++ digestBytes x) ++ toBytes 32 nonce.toNat)))) ∧
      (∀ req : Nat, exec (.keyExchange k req) s = .next (s.withLink k (
        { l with spdm := 4, session := false, tenant := none }.signs ([0x13, 0xE4, 0, 0] ++ toBytes 2 req)
          ([0x13, 0x64, 0, 0] ++ toBytes 2 req))))) ∧
    (4 ≤ l.spdm → exec (.finish k true) s =
      .next (s.withLink k ({ l with spdm := 3, session := true }.heard [0x13, 0xE5, 0, 0] [0x13, 0x65, 0, 0]))) ∧
    (l.spdm < 3 → ∀ nonce : BitVec 256, exec (.challenge k nonce) s = .next (s.withLink k (l.said [0x13, 0x7F, 0x04, 0])))) ∧
  (∀ (s : State) (k : Nat) (l : HostLink), LinkUp s k l → l.session = true →
    exec (.endSession k) s = .next (s.withLink k { l with session := false, tenant := none, reply := [0x13, 0x6C, 0, 0] }) ∧
    exec (.heartbeat k) s = .next (s.withLink k (l.said [0x13, 0x68, 0, 0])) ∧
    (∀ (p slot : Nat) (key : BitVec 512) (x : Partition), partAt s p = some x → l.tenantIs s p → 1 ≤ slot → slot ≤ 15 →
      ((∀ old, Table.look x.keys slot = some old → old = key) →
        exec (.setkey k p slot key) s = .next ((s.withPart p { x with keys := Table.ins x.keys slot key }).vendor k (l.bound p) [])) ∧
      (s.memoryForm → Happens (.setkey k p slot key) s fun t => t.groups = s.groups ∧ t.contexts = s.contexts ∧
        partAt t p = some { x with keys := Table.ins x.keys slot key } ∧
        ∀ a : Nat, underSlot s p slot a = false → Memory.read t.mem a = Memory.read s.mem a)) ∧
    (∀ (p : Nat) (ed ml : List Byte) (x : Partition), partAt s p = some x → l.tenantIs s p →
      exec (.pkeys k p ed ml) s = .next ((s.withPart p { x with edKey := some ed, mlKey := some ml }).vendor k (l.bound p) [])) ∧
    (∀ (p : Nat) (pass : List Byte) (x : Partition), partAt s p = some x → l.tenantIs s p → x.passport = none →
      Happens (.ppinst k p pass) s fun t => t.groups = s.groups ∧ t.contexts = s.contexts ∧ ∃ y, partAt t p = some y ∧
        y.keys = x.keys ∧ y.passport = if passportOk s p x pass = true
          then some { feat := BitVec.ofNat 3 (rec32 pass 8), expiry := rec64 pass 0x20, bytes := pass } else none) ∧
    (∀ p : Nat, ¬ l.tenantIs s p → ∀ (slot : Nat) (key : BitVec 512) (ed ml pass : List Byte),
      let refused := Host.Outcome.next (s.withLink k (l.said [0x13, 0x7F, 0x0B, 0]))
      exec (.setkey k p slot key) s = refused ∧ exec (.pkeys k p ed ml) s = refused ∧ exec (.ppinst k p pass) s = refused) ∧
    (∀ vf : Nat, ctxOfVf s vf = none → vf ∈ s.tdiErrors → exec (.stopInterface k vf) s =
      .next ({ s with tdiErrors := s.tdiErrors.filter fun x => decide (x ≠ vf) }.vendor k l [])) ∧
    (∀ (vf n : Nat) (c : Context), ctxOfVf s vf = some (n, c) → ctxAt s n = some c → l.tenantIs s c.part →
      let l := l.bound c.part
      (c.state = .created → c.tdi = .unlocked →
        exec (.lockInterface k vf) s = .next ((s.withCtx n { c with tdi := .locked }).vendor k l [])) ∧
      (c.state ≠ .created → exec (.lockInterface k vf) s = .next (s.withLink k (l.said [0x13, 0x7F, 0x04, 0]))) ∧
      (c.state = .created → c.tdi = .locked →
        exec (.startInterface k vf) s = .next ((s.withCtx n { c with tdi := .run, state := .ready }).vendor k l [])) ∧
      exec (.getDeviceInterfaceReport k vf) s =
        .next (s.vendor k l (Config.barRanges vf ++ toBytes 4 c.part ++ toBytes 4 c.num)) ∧
      (∀ strm : Nat, l.ideStreams.length < 8 → strm ∉ l.ideStreams → strm ∉ c.ide → exec (.ideKm k vf strm) s =
        .next ((s.withCtx n { c with ide := strm :: c.ide }).vendor k { l with ideStreams := strm :: l.ideStreams } [])) ∧
      (∃ t, exec (.stopInterface k vf) s = .next t ∧ t.contexts = (destroyContext (s.withLink k l) n).contexts ∧
        vf ∉ t.tdiErrors ∧ ∃ l', (destroyContext (s.withLink k l) n).hostLinks[k]? = some l' ∧
          t.hostLinks[k]? = some (l'.said [0x13, 0x7E, 0, 0])))) ∧
  (∀ (s : State) (k p : Nat) (l : HostLink) (x : Partition), LinkUp s k l → partAt s p = some x →
    exec (.getnonce k p) s = .next (s.vendor k l (toBytes 16 x.nonce.toNat)) ∧
    (∀ y, x.passport = some y → Happens (.ppdel k p) s fun t => ∃ x', partAt t p = some x' ∧ x'.passport = none ∧
      x'.keys = x.keys ∧ ∀ g gr kn c, groupAt s g = some gr → kernelAt s gr.kernel = some kn → ctxAt s kn.ctx = some c →
        c.part = p → groupAt t g = some { gr with pcsel := [], pcnt := [], dbgctl := 0, brk := 0 })) ∧
  (∀ (s : State) (p : Nat) (x : Partition) (y : Passport), partAt s p = some x → x.passport = some y →
    y.expiry ≤ gtOf s ((ranks s x).headD 0) →
    Happens (.passportExpiry p) s fun t => partAt t p = some { x with passport := none } ∧
      (∀ n c, ctxAt s n = some c → c.part = p → ctxAt t n = some { c with trcb := 0, trcsz := 0, trcpos := 0 }) ∧
      ∀ g gr kn c, groupAt s g = some gr → kernelAt s gr.kernel = some kn → ctxAt s kn.ctx = some c → c.part = p →
        groupAt t g = some { gr with pcsel := [], pcnt := [], dbgctl := 0, brk := 0 }) ∧
  (∀ (s : State) (vf n : Nat) (c : Context), ctxOfVf s vf = some (n, c) → ctxAt s n = some c →
    (c.tdi = .locked ∨ c.tdi = .run → exec (.tlpOutsideIdeStream vf) s =
      .next (destroyContext ({ s with unsupported := Table.wr s.unsupported 0 vf (Table.rd s.unsupported 0 vf + 1) }.withCtx n
        { c with tdi := .error }) n)) ∧
    exec (.vfFlr vf) s = .next (destroyContext s n))

namespace Sys2Proof.Machine

/-! ## Time, links and the module (01 R22 to R26; 06 R146, R147; 18 R378; 19 R389 to R401; 20 R414; 26 R434 to R440) -/

/-- A failed exchange's retry failed too (01 R26, 19 R391): it is logged, the boundary's sideband has failed twice and an up
boundary retrains, and the die counts a parent lost. -/
def sidebandLost (s : State) (die p : Nat) (x : Die) : State :=
  let s := logError s die 2 0 p 0 0 (partWord s die)
  let s := retrain (updBoundary s (boundaryOf die p) fun y => { y with sideFails := 2 }) (boundaryOf die p)
  updDie s die fun y => { y with req := none, retried := false, exchangeFails := x.exchangeFails + 1 }

/-- The link direction of a boundary, or `none` where the panel has no such boundary. -/
def dirAt (s : State) (b dir : Nat) : Option LinkDir := (s.boundaries[b]?).map fun x => linkDir x dir

/-- A boundary that carries flits (19 R391). -/
def carries (s : State) (b : Nat) : Prop := bndState s b = .up ∨ bndState s b = .degraded

/-- A panel with nothing left of what ran on it (26 R436): no context, partition, key, passport, mailbox command, log, or
byte of its own memory; the host's is as it was in `s`. -/
def lostAll (s t : State) : Prop :=
  t.contexts = [] ∧ t.partitions = [] ∧ t.kernels = [] ∧ t.groups = [] ∧ t.poison = [] ∧ t.saves = [] ∧
    (∀ e, e ∈ t.mem ↔ e ∈ s.mem ∧ keyTier e.1 ≠ 0) ∧
    t.mailbox.busy = false ∧ (∀ x ∈ t.dies, x.log = [] ∧ x.gt = 0)

/-- No partition, context or Courier program stands on the panel. -/
def State.vacant (s : State) : Prop := s.partitions = [] ∧ s.contexts = [] ∧ s.insts = [] ∧ s.deliveries = []

end Sys2Proof.Machine

/-- 01 R24 to R26: an exchange that is due sends t1; the parent stamps t2, which the path's asymmetry moves, and then
t3; the correction, once the reply is back, is half of (t2 − t1) + (t3 − t4), slewed up to 10 ns, stepped forward or
held for beyond up to 64 ns, above which the die is time-lost, in place of what is left of the last one (the model's
choice, log entry 37); an exchange that fails is logged as transient and made once more; a parent lost after that is
replaced by the one of R23, and the dies below it that are now too far fail; and an announced hand-over gives a die its
parent in the new tree. The order of parents, and what a failed exchange logs, are the model's (log entries 17 and 37).
-/
def Obligations.TimeEventsTakeEffect : Prop :=
  (∀ (s : State) (d p : Nat) (x : Die), dieAt s d = some x → x.parent = some p →
    (dieActive s d = true → d ≠ s.root → x.req = none → (∀ t, x.lastExchange = some t → t + 10000 ≤ x.gt) →
      carries s (boundaryOf d p) → exec (.timeExchange d) s = .next (updDie s d fun x => { x with
        req := some { t1 := x.gt * 64 + x.frac, t2 := none, t3 := none, sent := s.refNs, arrived := 0, replied := 0 }
        lastExchange := some x.gt })) ∧
    (∀ r y, dieAt s p = some y → dieActive s p = true → carries s (boundaryOf d p) → x.req = some r →
      (∀ b, s.boundaries[boundaryOf d p]? = some b → r.t2 = none → exec (.timeReply d) s = .next (updDie s d fun x => { x with
        req := some { r with t2 := some (((y.gt * 64 + y.frac : Nat) : Int) + b.asym).toNat, arrived := s.refNs } })) ∧
      (r.t2 ≠ none → r.t3 = none → exec (.timeReply d) s =
        .next (updDie s d fun x => { x with req := some { r with t3 := some (y.gt * 64 + y.frac), replied := s.refNs } }))) ∧
    (∀ r, x.req = some r → dieActive s d = true → carries s (boundaryOf d p) →
      exec (.timeExchangeRetry d true) s = .next (if x.retried then s else updDie (logPart s (.boundary (boundaryOf d p)) 1) d
        fun x => { x with req := none, lastExchange := none, retried := true })) ∧
    (∀ r q, x.req = some r → dieActive s d = true → carries s (boundaryOf d p) → p ≠ s.root → d ≠ s.root → x.exchangeFails = 0 →
      timeParent (sidebandLost s d p x) d = some q →
      exec (.timeExchangeRetry d false) s = .next (failDies 36 [] (updDie (sidebandLost s d p x) d fun x =>
        { x with parent := some q, req := none, retried := false, lastExchange := none, handOver := false })))) ∧
  (∀ (s : State) (d p t2 t3 : Nat) (x : Die) (r : TimeReq) (c : Int), dieAt s d = some x →
    dieActive s d = true → x.parent = some p → carries s (boundaryOf d p) →
    x.req = some r → r.t2 = some t2 → r.t3 = some t3 → r.replied + (r.arrived - r.sent) ≤ s.refNs →
    c = Int.tdiv (((t2 : Int) - r.t1) + ((t3 : Int) - (x.gt * 64 + x.frac : Nat))) 2 →
    (-640 ≤ c → c ≤ 640 → exec (.timeCorrection d) s = .next (countGt s (updDie s d fun x =>
      { x with req := none, exchangeFails := 0, retried := false, slew := c, hold := 0, phase := 0, drift := 0 }))) ∧
    (c < -4096 ∨ 4096 < c → exec (.timeCorrection d) s = .next (failDie s d 5)) ∧
    (640 < c → c ≤ 4096 → Happens (.timeCorrection d) s fun t => ∃ y, dieAt t d = some y ∧
      y.gt = (x.gt * 64 + x.frac + c.toNat) / 64 % 2 ^ 64 ∧ y.frac = (x.gt * 64 + x.frac + c.toNat) % 64 ∧
      y.slew = 0 ∧ y.hold = 0) ∧
    (c < -640 → -4096 ≤ c → Happens (.timeCorrection d) s fun t => ∃ y, dieAt t d = some y ∧
      y.hold = (-c).toNat ∧ y.slew = 0 ∧ y.gt = x.gt ∧ y.frac = x.frac)) ∧
  (∀ (s : State) (d q : Nat) (x : Die), dieAt s d = some x → dieActive s d = true → d ≠ s.root → x.handOver = true →
    timeParent s d = some q → exec (.handOverAnnouncement d) s = .next (updDie s d fun x =>
      { x with parent := some q, req := none, retried := false, lastExchange := none, handOver := false }))

/-- 19 R389 to R391, R400; 20 R414; 18 R378: a flit with its CRC and number in order is delivered, any other asks for a
replay, which the sender grants once, a second failure retraining the boundary; an acknowledged flit leaves the retry
buffer; training ends up, degraded, once more or failed, as the broken modules and the time say; a frame in order for
one running slot writes its data, and the last of a SEND all of whose frames were written raises the counter past all
their completion times; for none it is dropped and counted, and one that cannot be written is reported; a lost link
comes back or its port fails; acknowledged frames are done, others are sent again after 20 µs and after eight resends
the port is lost; on a link with CXL.cache active a snooped line comes home once its leases have passed. What the retry
buffer holds before a flit arrives is the model's choice (log entry 42). -/
def Obligations.LinkEventsTakeEffect : Prop :=
  (∀ (s : State) (b dir : Nat) (l : LinkDir) (f : Flit), dirAt s b dir = some l → carries s b →
    let fresh : Prop := f.sn = l.nextSeq ∧ l.retry.length < 2048
    (f.payload.length ≠ 250 ∨ f.sn = l.nextSeq ∧ 2048 ≤ l.retry.length → exec (.flitReceive b dir f) s = .next s) ∧
    (f.payload.length = 250 → fresh ∨ f.sn ≠ l.nextSeq ∧ l.keeps f = true →
      f.crc = flitCheck f → f.sn = l.expected → l.replayed = none →
      Happens (.flitReceive b dir f) s fun t => t.mem = s.mem ∧ t.dies = s.dies ∧ ∃ m, dirAt t b dir = some m ∧
        m.expected = l.expected + 1 ∧ m.delivered = l.delivered ++ [f] ∧ m.wantReplay = none) ∧
    (f.payload.length = 250 → fresh ∧ (f.crc ≠ flitCheck f ∨ f.sn ≠ l.expected) ∨
        f.sn ≠ l.nextSeq ∧ (f.crc ≠ flitCheck f ∨ f.sn ≠ l.expected ∨ l.keeps f = false) →
      Happens (.flitReceive b dir f) s fun t => t.dies = s.dies ∧ ∃ m, dirAt t b dir = some m ∧
        m.expected = l.expected ∧ m.delivered = l.delivered ∧ m.wantReplay = some l.expected)) ∧
  (∀ (s : State) (b dir sn : Nat) (l : LinkDir), dirAt s b dir = some l → carries s b →
    l.wantReplay = some (BitVec.ofNat 12 sn) →
    (l.replayed ≠ some (BitVec.ofNat 12 sn) → (∃ f ∈ l.retry, f.sn = BitVec.ofNat 12 sn) →
      Happens (.replayRequest b dir sn) s fun t => bndState t b = bndState s b ∧ ∃ m, dirAt t b dir = some m ∧
        m = { l with replayed := some (BitVec.ofNat 12 sn), wantReplay := none }) ∧
    (l.replayed = some (BitVec.ofNat 12 sn) →
      Happens (.replayRequest b dir sn) s fun t => bndState t b = .retraining ∧ ∃ m, dirAt t b dir = some m ∧
        m = { l with replayed := none, wantReplay := none })) ∧
  (∀ (s : State) (b dir sn : Nat) (l : LinkDir) (f : Flit) (xs ys : List Flit), dirAt s b dir = some l →
    l.retry = xs ++ f :: ys → f.sn = BitVec.ofNat 12 sn → (∀ g ∈ xs, g.sn ≠ BitVec.ofNat 12 sn) →
    Happens (.flitAcknowledge b dir sn) s fun t => dirAt t b dir = some { l with retry := ys }) ∧
  (∀ (s : State) (b : Nat) (x : Boundary) (bad : List Nat), s.boundaries[b]? = some x →
    (x.state = .training ∨ x.state = .retraining →
      ((∀ m ∈ bad, 128 ≤ m) → exec (.trainingComplete b bad) s = .next (s.kernels.foldl (fun t k => settleBarriers t k.1)
        (updBoundary (if x.attempts = 0 then s else logPart s (.boundary b) 1) b fun x =>
          { x with state := .up, badModules := [], attempts := 0, sideFails := 0 }))) ∧
      ((∃ m ∈ bad, m < 64) → (∀ m ∈ bad, m < 64 ∨ 128 ≤ m) → Happens (.trainingComplete b bad) s fun t =>
        bndState t b = .degraded ∧ ∃ y, t.boundaries[b]? = some y ∧ y.badModules = bad.filter (· < 128)) ∧
      ((∃ m ∈ bad, 64 ≤ m ∧ m < 128) → (∀ m ∈ bad, 64 ≤ m) → Happens (.trainingComplete b bad) s fun t =>
        bndState t b = .degraded ∧ ∃ y, t.boundaries[b]? = some y ∧ y.badModules = bad.filter (· < 128)) ∧
      ((∃ m ∈ bad, m < 64) → (∃ m ∈ bad, 64 ≤ m ∧ m < 128) →
        (x.attempts = 0 → Happens (.trainingComplete b bad) s fun t => ∃ y, t.boundaries[b]? = some y ∧
          y.state = x.state ∧ y.attempts = 1) ∧
        (1 ≤ x.attempts → exec (.trainingComplete b bad) s = exec (.partFail (.boundary b)) s))) ∧
    (x.state = .retraining → x.since + 50000 ≤ gtOf s (boundaryDie s b) →
      (x.attempts = 0 → exec (.trainingTimeout b) s = .next (updBoundary s b fun y =>
        { y with attempts := y.attempts + 1, since := gtOf s (boundaryDie s b) })) ∧
      (1 ≤ x.attempts → exec (.trainingTimeout b) s = exec (.partFail (.boundary b)) s)) ∧
    (carries s b → Happens (.barrierSidebandFailure b) s fun t => bndState t b = .retraining ∧ t.mem = s.mem ∧ t.groups = s.groups)) ∧
  (∀ (s : State) (e : Nat) (f : EthFrame) (x : EthPort), s.ethPorts[e]? = some x → ethUp s e = true →
    f.dst = Config.portMac e → f.sn = x.expected →
    let took (lost : Bool) (w : Nat) : EthPort :=
      { x with
        expected := x.expected + 1, acked := x.expected + 1, errors := x.errors + (if lost then 1 else 0)
        rxWct := if f.last then 0 else max x.rxWct w, rxIntact := f.last || (x.rxIntact && !lost) }
    (8192 < f.data.length → exec (.ethFrameReceive e f) s = .next s) ∧
    (f.data.length ≤ 8192 → frameSlots s e f.slot = [] → exec (.ethFrameReceive e f) s = .next (updPort s e fun _ => took true 0)) ∧
    (∀ key i sl, f.data.length ≤ 8192 → frameSlots s e f.slot = [key] → runningOn s key (ethDie e) = some i →
      Table.look s.slots key = some sl →
      let va := (f.base + f.offset) % 2 ^ 64
      let put := diePut s sl.ctx i.die va f.data
      (∀ st a c, dieHalt s sl.ctx i.die va f.data.length = some (.fail st a c) → Happens (.ethFrameReceive e f) s fun t =>
        t.mem = s.mem ∧ t.deliveries = s.deliveries ∧ t.ethPorts[e]? = some { took true 0 with
          reports := x.reports ++ if st = 0 then [] else [(f.sn, st)] }) ∧
      (dieHalt s sl.ctx i.die va f.data.length = none → Happens (.ethFrameReceive e f) s fun t =>
        t.mem = put.2.mem ∧ t.ethPorts[e]? = some (took false put.1) ∧
        (f.last = false ∨ x.rxIntact = false → t.deliveries = s.deliveries) ∧
        (f.last = true → x.rxIntact = true → ∃ m, Table.look t.deliveries m = some
          { slotKey := key, fromRank := 64, step := 0, toRank := i.rank, nc := f.nc, va := va, data := [], eth := none
            applied := some (max x.rxWct put.1) })))) ∧
  (∀ (s : State) (e : Nat) (x : EthPort), s.ethPorts[e]? = some x →
    (∀ sn : Nat, (∃ f ∈ x.unacked, f.sn ≤ sn) → Happens (.frameAcknowledge e sn) s fun t =>
      t.ethPorts[e]? = some { x with
        unacked := x.unacked.filter (sn < ·.sn), owner := x.owner.filter (sn < ·.1), resends := 0, lastSend := gtOf s (ethDie e) } ∧
      (∀ n : Nat, (∃ k, (k, n) ∈ x.owner) → (∀ o ∈ x.owner, o.2 = n → o.1 ≤ sn) → Table.look t.deliveries n = none) ∧
      ∀ n : Nat, (∀ o ∈ x.owner, o.2 = n → sn < o.1) → Table.look t.deliveries n = Table.look s.deliveries n) ∧
    (x.failed = false → x.unacked ≠ [] → x.lastSend + 20000 ≤ gtOf s (ethDie e) →
      (x.resends < 8 → exec (.ethResendTimeout e) s = .next (updPort s e fun x =>
        { x with resends := x.resends + 1, lastSend := gtOf s (ethDie e) })) ∧
      (8 ≤ x.resends → exec (.ethResendTimeout e) s = exec (.partFail (.ethPort e)) s)) ∧
    (x.failed = true → exec (.ethLinkLoss e) s = .next s) ∧
    (∀ n u, x.failed = false → choose s 2 = (n, u) → exec (.ethLinkLoss e) s =
      if n = 0 then exec (.partFail (.ethPort e)) u else .next (logPart u (.ethPort e) 1)) ∧
    (x.failed = false → Happens (.partFail (.ethPort e)) s fun t => ∃ y, t.ethPorts[e]? = some y ∧ y.failed = true)) ∧
  (∀ (s : State) (line : Nat), keyTier (line * 128) = 2 → (∀ h, Table.look s.homes line = some h →
      h.eMax = 0 ∨ h.eMax + 4 < gtOf s (lineDie s line)) → partialsOf s line = [] →
    (tierOpen s (lineCtx s line) (line * 128) = false → exec (.cxlSnoop line) s = .next s) ∧
    (tierOpen s (lineCtx s line) (line * 128) = true → (homeOf s line).holders ≠ [] → Happens (.cxlSnoop line) s fun t =>
      (homeOf t line).holders = [] ∧ (homeOf t line).hold = none ∧ t.mem = s.mem))

/-- 18 R378; 19 R393; 01 R26: a part fails once: it is logged and marked. A failed die's stack and a failed
pseudo-channel are lost memory, a failed boundary carries nothing, a failed port keeps no frames, a failed host link no
session; a save copy is marked; a transient fault is logged and nothing else. Which die logs, and what is marked, are
the model's choices (log entry 38). -/
def Obligations.PartFaultsTakeEffect : Prop :=
  (∀ (s : State) (d : Nat), s.vacant → dieActive s d = true →
    Happens (.partFail (.die d)) s fun t => dieActive t d = false ∧ (d, none) ∈ t.deadMem ∧ t.mem = s.mem) ∧
  (∀ (s : State) (d c : Nat), s.vacant → dieActive s d = true → c < 128 → (d, some c) ∉ s.deadMem →
    Happens (.partFail (.pseudoChannel d c)) s fun t => t.deadMem = (d, some c) :: s.deadMem ∧ t.mem = s.mem ∧
      t.dies = (logError s d 2 1 c 0 0 0xFFFFFFFF).dies) ∧
  (∀ (s : State) (b : Nat), s.vacant → bndState s b ≠ .absent → bndState s b ≠ .failed → b < s.boundaries.length →
    Happens (.partFail (.boundary b)) s fun t => bndState t b = .failed ∧ t.mem = s.mem) ∧
  (∀ (s : State) (k : Nat) (l : HostLink), s.vacant → s.hostLinks[k]? = some l → dieActive s (linkDie k) = true →
    l.failed = false → Happens (.partFail (.hostLink k)) s fun t =>
      t.hostLinks[k]? = some { l with failed := true, session := false, tenant := none } ∧
      t.dies = (logError s (linkDie k) 2 3 k 0 0 0xFFFFFFFF).dies) ∧
  (∀ (s : State) (e : Nat) (p : EthPort), s.vacant → s.ethPorts[e]? = some p → dieActive s (ethDie e) = true →
    p.failed = false → Happens (.partFail (.ethPort e)) s fun t =>
      t.ethPorts[e]? = some { p with failed := true, unacked := [], owner := [] } ∧
      t.dies = (logError s (ethDie e) 2 4 e 0 0 0xFFFFFFFF).dies) ∧
  (∀ (s : State) (n : Nat) (c : Context), ctxAt s n = some c →
    (c.saveABad = false → Happens (.partFail (.saveCopy n false)) s fun t =>
      ctxAt t n = some { c with saveABad := true } ∧ t.mem = s.mem ∧ t.kernels = s.kernels) ∧
    (c.saveBBad = false → Happens (.partFail (.saveCopy n true)) s fun t =>
      ctxAt t n = some { c with saveBBad := true } ∧ t.mem = s.mem ∧ t.kernels = s.kernels)) ∧
  (∀ (s : State) (d c : Nat), exec (.partFail (.core d c)) s = .next s ∧ exec (.transientFault (.core d c)) s = .next s) ∧
  (∀ (s : State) (k : Nat), dieActive s (linkDie k) = true → exec (.transientFault (.hostLink k)) s =
    .next (logError s (linkDie k) 1 3 k 0 0 (partWord s (linkDie k)))) ∧
  (∀ (s : State) (d : Nat), dieActive s d = true →
    exec (.transientFault (.die d)) s = .next (logError s d 1 0 d 0 0 (partWord s d)))

/-- 26 R435 to R440; 06 R146, R147; 18 R381: power that falls, a shutdown or an undervoltage loses everything but what
the host's memory holds; power that rises, or RESET_N in a module that is on, begins panel reset, with every die under
test, every boundary training and no host link; bring-up ends with GT at zero, the root of R23, failed dies mapped out,
READY set and the host links training, or silent where R438 fails the test; a die with a firmware image that does not
load fails test (18 R381). A throttle changes only time. A link's reset is that link's; a PF's reset with no partition
changes nothing, and nor does that of a VF without a context. A failing noise source sets HFAIL for the contexts on its
core, is logged once after 1 ms, and passing ends it. What a module that is not on ignores, and which contexts a failed
health test concerns, are the model's choices (log entries 43 and 69). -/
def Obligations.ModuleEventsTakeEffect : Prop :=
  (∀ s : State,
    (∀ w ∈ [Instr.powerEnFall, .undervoltage, .thermalShutdown 0], Happens w s fun t => t.power = .off ∧ lostAll s t ∧
      (∀ l ∈ t.hostLinks, l.training = false) ∧ ∀ d : Nat, dieActive t d = false) ∧
    (∀ d : Nat, exec (.thermalShutdown d) s = exec .powerEnFall s) ∧
    (s.power = .off → Happens .powerEnRise s fun t => t.power = .boot ∧ lostAll s t ∧
      (∀ l ∈ t.hostLinks, l.training = false) ∧ ∀ b ∈ t.boundaries, b.state = .training) ∧
    (s.power ≠ .off → exec .powerEnRise s = .next s) ∧
    (s.power = .on ∨ s.power = .boot → Happens .resetNAssert s fun t => t.power = .boot ∧ lostAll s t ∧
      (∀ l ∈ t.hostLinks, l.training = false) ∧ ∀ b ∈ t.boundaries, b.state = .training) ∧
    (s.power = .silent → exec .resetNAssert s = .next s) ∧
    (∀ d : Nat, Happens (.thermalThrottle d) s fun t => t = { s with dies := t.dies } ∧ t.dies.length = s.dies.length ∧
      ∀ k x, dieAt s k = some x → dieAt t k = some { x with throttled := x.throttled || decide (k = d) }) ∧
    (∀ k l, s.hostLinks[k]? = some l → Happens (.hostLinkReset k) s fun t => t = { s with hostLinks := t.hostLinks } ∧
      t.hostLinks[k]? = some { HostLink.reset with failed := l.failed } ∧
      ∀ j : Nat, j ≠ k → t.hostLinks[j]? = s.hostLinks[j]?) ∧
    (s.partitions = [] → exec .pfFlr s = .next s) ∧
    (∀ p x, s.partitions = [(p, x)] → s.contexts = [] → Happens .pfFlr s fun t => t.partitions = [] ∧ t.mem = s.mem)) ∧
  (∀ s : State, (∀ e ∈ s.images, imageLoads s.fuses e.2 = true) →
    Happens (.bringUpEnd [] []) (panelBoot s) (fun t => t.power = .on ∧ t.root = 14 ∧ buact0 t = 0xFFFFFFFF ∧
      buact1 t = 0x8024FFFF ∧ (∀ l ∈ t.hostLinks, l.training = true) ∧ ∀ x ∈ t.dies, x.active = true ∧ x.gt = 0 ∧ x.frac = 0) ∧
    Happens (.bringUpEnd [3, 14] []) (panelBoot s) (fun t => t.power = .on ∧ t.root = 15 ∧ buact0 t = 0xFFFFBFF7 ∧
      buact1 t = 0x8022FFDF ∧ ∀ x ∈ t.dies, x.gt = 0 ∧ x.frac = 0)) ∧
  (∀ s : State,
    (∀ dead bad : List Nat, exec (.bringUpEnd dead bad) s =
      exec (.bringUpEnd (dead ++ (s.images.filter fun e => !imageLoads s.fuses e.2).map (·.1)) bad) s) ∧
    (∀ dead bad : List Nat, s.power = .boot → s.panelForm → ([2, 3, 32, 33] ⊆ dead ∨ [14, 15, 20] ⊆ dead ∨ [0, 1, 2] ⊆ dead) →
      Happens (.bringUpEnd dead bad) s fun t => t.power = .silent ∧ buact1 t = 0 ∧
        t.hostLinks = s.hostLinks) ∧
    (∀ dead bad : List Nat, s.power ≠ .boot → exec (.bringUpEnd dead bad) s = .next s)) ∧
  (∀ (s : State) (core : Nat) (x : Die), dieAt s (coreDie core) = some x →
    ((∀ e ∈ x.healthFail, e.1 ≠ core % 96) → s.groups = [] → exec (.healthTestFail core) s =
      .next (updDie s (coreDie core) fun x => { x with healthFail := x.healthFail ++ [(core % 96, x.gt, false)] })) ∧
    (∀ gid g k c, s.groups = [(gid, g)] → g.state = .begun → g.die = coreDie core → g.core = core % 96 →
      kernelAt s g.kernel = some k → ctxAt s k.ctx = some c →
      Happens (.healthTestFail core) s fun t => ctxAt t k.ctx = some { c with rngctl := c.rngctl ||| 0x80000000 } ∧
        t.groups = s.groups) ∧
    Happens (.healthTestPass core) s (fun t => ∃ y, dieAt t (coreDie core) = some y ∧
      (∀ e ∈ y.healthFail, e.1 ≠ core % 96) ∧ ∀ e ∈ x.healthFail, e.1 ≠ core % 96 → e ∈ y.healthFail) ∧
    (∀ t0, x.healthFail = [(core % 96, t0, false)] → t0 + 1000000 ≤ x.gt → x.log.length < 256 →
      Happens (.healthFailLog core) s fun t => ∃ y, dieAt t (coreDie core) = some y ∧
        y.healthFail = [(core % 96, t0, true)] ∧ y.log = x.log ++ [⟨x.gt, 4, 6, core % 96, 0, 0, partWord s (coreDie core)⟩]) ∧
    (∀ t0, x.healthFail = [(core % 96, t0, true)] → exec (.healthFailLog core) s = .next s))

namespace Sys2Proof.Machine

/-! ## Queues, repetition, stochastic rounding, bad fields (03 R61; 04 R96, R101; 07 R171, R172) -/

/-- The row of a short-latency word under its modifiers. -/
def laneRowOf (m : Mods) (w : Instr) : Option LaneRow :=
  (integerRow m w).orElse fun _ => (floatRowOf m w).orElse fun _ => packedRow m w

/-- The register fields of a row with their uses. -/
def LaneRow.fields (r : LaneRow) (m : Mods) : List (Use × LReg) := [(r.du, r.d), (r.au, r.a), (r.bu, r.b), (r.cu, m.c)]

/-- The fields are admitted, a queue only where it is declared and a single register stands, and nothing is awaited. -/
def LaneRow.queueReady (r : LaneRow) (i : Iss) (m : Mods) : Prop :=
  (∀ x ∈ r.fields m, useOk i.g.window x.1 x.2 = true ∧ ∀ k, x.2 = .q k → x.1 ≠ .imm ∧ 1 ≤ i.k.qdepth k.val) ∧
    onBoard i.g (r.fields m) = false ∧ pendingS i.g (sCodes (r.fields m)) = none

/-- The queues that a row pops, in the order A, B, C, and the one that it pushes. -/
def LaneRow.pops (r : LaneRow) (m : Mods) : List Nat := popsOf [r.a, r.b, m.c]
def LaneRow.pushes (r : LaneRow) : Option Nat := match r.d with | .q k => some k.val | _ => none

/-- The number that a source field holds in a lane: the element popped for it, or its registers' bits. -/
def LaneRow.source (i : Iss) (u : Use) (x : LReg) (e : Table Word) (l : Nat) : Nat :=
  match x with | .q _ => (Table.rd e 0 l).toNat | _ => readWide i.g i.f x l u.count

/-- The active lanes' results of a row whose sources pop queues. -/
def LaneRow.queueResults (r : LaneRow) (i : Iss) (m : Mods) : List (Nat × Nat) :=
  let es := dealElems [r.a, r.b, m.c] (popAll (r.pops m) i.b).1
  (Mask.lanes (i.f.p0 &&& i.g.readP i.f.p0 m.msel)).map fun l =>
    (l, r.val (LaneRow.source i r.au r.a (es.getD 0 []) l) (LaneRow.source i r.bu r.b (es.getD 1 []) l)
      (LaneRow.source i r.cu m.c (es.getD 2 []) l))

/-- The block after a row's pops. -/
def LaneRow.popped (r : LaneRow) (i : Iss) (m : Mods) : Block := (popAll (r.pops m) i.b).2

/-- The state with the issuing fibre's block changed. -/
def State.withBlock (s : State) (i : Iss) (b : Block) : State := { s with blocks := Table.ins s.blocks i.g.block b }

/-- The state after a row whose sources pop queues: as after any row, with the popped elements in the fields' place. -/
def LaneRow.afterQueue (r : LaneRow) (s : State) (i : Iss) (m : Mods) : State :=
  let off := if m.mz then i.f.p0 &&& ~~~(i.f.p0 &&& i.g.readP i.f.p0 m.msel) else 0
  let res := r.queueResults i m
  let g := (writeResults i.g r.d r.du.count res (Mask.lanes off)).withBoard (i.g.board ++ boardCodes r.du r.d)
  i.put (if r.pops m = [] then s else s.withBlock i (r.popped i m))
    (i.withFibre g { i.passed with last := (pushResults g r.d r.du.count res i.f).last })

/-- One repetition of a row: the group with its results, the fibre with its last results. -/
def LaneRow.once (r : LaneRow) (m : Mods) (i : Iss) : Iss :=
  let f := { i.f with last := (pushResults (r.group i m) r.d r.du.count (r.results i m) i.f).last }
  { i with g := i.withFibre (r.group i m) f, f }

/-- A row with its fields stepped (04 R96). -/
def LaneRow.stepped (r : LaneRow) (w : Nat) (j : Nat) (sd sa sb : Int) : Option LaneRow :=
  match stepReg w r.d (j * sd), stepReg w r.a (j * sa), stepReg w r.b (j * sb) with
  | some d, some a, some b => some { r with d, a, b }
  | _, _, _ => none

/-- The issuing fibre and its group after repetitions `j` to `j + n − 1` of a row. -/
def LaneRow.repeated (r : LaneRow) (m : Mods) (sd sa sb : Int) : Nat → Nat → Iss → Iss
  | 0, _, i => i
  | n + 1, j, i =>
    match r.stepped i.g.window j sd sa sb with
    | some x => r.repeated m sd sa sb n (j + 1) (x.once m i)
    | none => i

/-- The FP32 words that draw once in each active lane, with their exact result (03 R61; 05 R119). -/
def drawingWord (w : Instr) : Option (LReg × LReg × LReg × Bool × (Ext → Ext → Ext → Ext)) :=
  match w with
  | .fadd d a b => some (d, a, b, false, fun x y _ => Ext.add false x y)
  | .fsub d a b => some (d, a, b, false, fun x y _ => Ext.add false x y.negate)
  | .fmul d a b => some (d, a, b, false, fun x y _ => Ext.mul x y)
  | .ffma d a b => some (d, a, b, true, fun x y z => Ext.add false (Ext.mul x y) z)
  | _ => none

/-- The short-latency words, whose every form issues at once, stalls, waits or traps. -/
def isRowWord (w : Instr) : Bool :=
  match w with
  | .iadd .. => true | .isub .. => true | .and .. => true | .or .. => true | .xor .. => true
  | .fadd .. => true | .fsub .. => true | .fmul .. => true | .hadd2 .. => true | .hmul2 .. => true
  | _ => false

/-- The D, A and B fields of those words. -/
def rowFields (w : Instr) : LReg × LReg × LReg :=
  match w with
  | .iadd d a b => (d, a, b) | .isub d a b => (d, a, b) | .and d a b => (d, a, b) | .or d a b => (d, a, b)
  | .xor d a b => (d, a, b) | .fadd d a b => (d, a, b) | .fsub d a b => (d, a, b) | .fmul d a b => (d, a, b)
  | .hadd2 d a b => (d, a, b) | .hmul2 d a b => (d, a, b)
  | _ => (.zero, .zero, .zero)

/-! ## Steps, encodings, reset (00 R1; 01 R16, R22; 04 R80 to R99; 26 R437 to R440) -/

/-- What follows a word in its slot: a lane instruction is counted (18 R386), a held word keeps its fibre's stamps (07 R163), and
a group that has not issued has not begun (07 R152). -/
def afterWord (was : State) (gid fid : Nat) (o : Out) : Out :=
  match o with
  | .next t => .next (keepUnissued was (countLane was t gid fid) gid fid)
  | x => x

end Sys2Proof.Machine

/-- 07 R171, R172: a short-latency word whose fields name declared queues pops the oldest elements for A, B and C and
pushes its results, zero in every lane that is not active, in one step; it waits while a queue it pops is too short or
the one it pushes is full; a queue not declared raises trap 0x09. TMASK 0 of trap 0x09 is the model's choice (log entry
61). -/
def Obligations.QueueFieldsPopAndPush : Prop :=
  ∀ (s : State) (i : Iss) (m : Mods) (w : Instr) (r : LaneRow),
    i.modified s m → laneRowOf m w = some r →
    (r.queueReady i m →
      ((∀ q ∈ r.pops m, (r.pops m).count q ≤ (i.b.queue q).length) →
        (∀ q, r.pushes = some q → (i.b.queue q).length - (r.pops m).count q < i.k.qdepth q) →
        (∀ q, r.pushes = some q → ∃ e : Table Word,
          exec w s = .next (i.past (s.withBlock i ((r.popped i m).push q e)) i.g) ∧ ∀ l : Nat, Table.rd e 0 l =
            BitVec.ofNat 32 ((((r.queueResults i m).find? fun x => decide (x.1 = l)).map (·.2)).getD 0)) ∧
        (r.pushes = none → exec w s = .next (r.afterQueue s i m))) ∧
      (((∃ q ∈ r.pops m, (i.b.queue q).length < (r.pops m).count q) ∨
          ∃ q, r.pushes = some q ∧ i.k.qdepth q ≤ (i.b.queue q).length - (r.pops m).count q) →
        exec w s = .next (i.put s (i.withFibre i.g
          { i.f with state := .waiting (.queue (r.pops m) r.pushes), readySince := none, due := false })))) ∧
    ((∀ x ∈ r.fields m, useOk i.g.window x.1 x.2 = true) → (∃ x ∈ r.fields m, ∃ k, x.2 = .q k ∧ x.1 ≠ .imm ∧ i.k.qdepth k.val = 0) →
      exec w s = .next (trapHere s i 0x09 0 0))

/-- 04 R96: after REP a short-latency word issues COUNT + 1 times, its fields stepped each time, each repetition seeing
the one before, where no stepped field is awaited; a nonzero step on a field that cannot step traps before the first.
TMASK 0 of that trap is the model's choice (log entry 61). -/
def Obligations.RepIssuesEveryRepetition : Prop :=
  ∀ (s : State) (i : Iss) (m : Mods) (w : Instr) (r : LaneRow) (c : Chain) (n : BitVec 6) (sd sa sb : BitVec 3),
    issuing s = some i → i.quiet s → i.f.chain = some c → c.rep = some (n, sd, sa, sb) → c.done = 0 → c.upto = none → m = modsOf i.f.chain →
    laneRowOf m w = some r → (r.pops m = [] ∧ r.pushes = none) →
    ((sd = 0 ∨ canStep r.du r.d = true) → (sa = 0 ∨ canStep r.au r.a = true) → (sb = 0 ∨ canStep r.bu r.b = true) →
      (∀ j : Nat, j ≤ n.toNat → ∃ x, r.stepped i.g.window j sd.toInt sa.toInt sb.toInt = some x ∧
        (∀ y ∈ x.fields m, useOk i.g.window y.1 y.2 = true) ∧ onBoard i.g (x.fields m) = false ∧
          pendingS i.g (sCodes (x.fields m)) = none) →
      onBoard i.g (r.fields m) = false → pendingS i.g (sCodes (r.fields m)) = none →
      let e := r.repeated m sd.toInt sa.toInt sb.toInt (n.toNat + 1) 0 i
      exec w s = .next (e.put s (e.withFibre e.g e.passed))) ∧
    (isRowWord w = true → ((sd ≠ 0 ∧ canStep r.du r.d = false) ∨ (sa ≠ 0 ∧ canStep r.au r.a = false) ∨
      (sb ≠ 0 ∧ canStep r.bu r.b = false)) → exec w s = .next (illegal s i))

/-- 03 R60, R61; 05 R119: under SR an FP32 word draws one value for each active lane, in ascending order, and rounds
each lane's exact result with it. The draws are free values (log entry 9). -/
def Obligations.StochasticRoundingDrawsInLaneOrder : Prop :=
  ∀ (s : State) (i : Iss) (m : Mods) (w : Instr) (d a b : LReg) (usesC : Bool) (f : Ext → Ext → Ext → Ext) (x : Die),
    i.modified s m → drawingWord w = some (d, a, b, usesC, f) →
    m.rnd = 5 → m.ty ≤ 1 → m.ord = 0 → m.fb = false → m.imm = none → (usesC = false → m.c = .zero) →
    let fs := [(Use.dst, d), (Use.src, a), (Use.src, b), (if usesC then Use.src else Use.unused, m.c)]
    (∀ y ∈ fs, useOk i.g.window y.1 y.2 = true ∧ isQueue y.2 = false) → onBoard i.g fs = false →
    pendingS i.g (sCodes fs) = none → (i.k.sample 0x018).toNat % 4 = 0 → drawsOwed i.g = false →
    s.dies[i.g.die]? = some x → (∀ e ∈ x.healthFail, e.1 ≠ i.g.core) →
    let ls := Mask.lanes (i.f.p0 &&& i.g.readP i.f.p0 m.msel)
    let v (y : LReg) (l : Nat) : Ext := Fmt.fp32.value (readReg i.g i.f y l).toNat
    let res := ls.mapIdx fun j l =>
      (l, roundTo .fp32 5 m.sat (Config.noise (s.draws + j)).toNat (f (v a l) (v b l) (v m.c l)))
    let off := if m.mz then i.f.p0 &&& ~~~(i.f.p0 &&& i.g.readP i.f.p0 m.msel) else 0
    let g := (writeResults i.g d 1 res (Mask.lanes off)).withBoard (i.g.board ++ boardCodes .dst d)
    exec w s = .next (i.put { s with draws := s.draws + ls.length }
      (i.withFibre g { i.passed with last := (pushResults g d 1 res i.f).last }))

/-- 02 R31, R40; 06 R132, R134, R135, R138: a uniform word with an illegal field, a CALL on a full stack and a RET on an
empty one raise the illegal-encoding trap, at the word's address and with TADDR 0. 04 R100, R101: a short-latency word
with a field outside its use, a TYPE or a rounding mode that it does not accept, an ORD or flag-B modifier, or a C
operand it does not use, raises the illegal-encoding trap; nothing else of it happens. TMASK 0 of these traps is the
model's choice (log entry 61). -/
def Obligations.BadFieldsRaiseTheIllegalTrap : Prop :=
  (∀ (s : State) (i : Iss) (w : Instr), i.plain s → badUniformFields i w = true →
      exec w s = .next (takeTrap s i.gid i.fid 0x01 i.f.pc 0 0 i.f.clause)) ∧
  (∀ (s : State) (i : Iss) (m : Mods) (w : Instr), i.modified s m → isRowWord w = true → m.imm = none →
      (useOk i.g.window .dst (rowFields w).1 = false ∧ m.ty ≤ 1 ∨ 5 < m.rnd ∨ m.ord ≠ 0 ∨ m.fb = true ∨ 14 ≤ m.ty ∨
        (m.c ≠ .zero ∧ isQueue m.c = false) ∨ (rowFields w).2.1 = .none ∨ (rowFields w).2.2 = .none) →
      exec w s = .next (illegal s i))

/-- 04 R80 to R82: a step that gives a group an issue slot runs the word at its next fibre's PC, decoded: inside a
clause the clause's own word, at a clause start the CLAUSE word fetched there. The step marks the fibre as issuing
before the word and counts an instruction, a lane instruction that issues is counted as one, and a word held in its slot
keeps the fibre's stamps. The agenda, and a slot of its own for a CLAUSE word, are the model's (log entries 6 and 20).
-/
def Obligations.StepRunsTheDecodedWord : Prop :=
  ∀ (s s0 : State) (gid fid : Nat) (g : Group) (rest : List Move) (i : Iss) (ins : Instr) (w : Word),
    s.agenda = .issue gid :: rest → s0 = { s with agenda := rest } → roomTakes s0 gid = true → groupAt s0 gid = some g →
    nextFibre s0 g = some fid →
    let s1 := markIssued s0 gid fid
    let s2 := if i.f.chain = none then countEvent s1 gid 1 1 else s1
    issuing s1 = some i → breakHits s2 i.g i.k i.f = false → i.f.pc.toNat % 4 = 0 → decode w = .ok ins →
    (∀ c, i.f.clause = some c → c.words.getD ((i.f.pc - c.start).toNat / 4 - 1) none = some w →
      step s = afterWord s0 gid fid (exec ins s2)) ∧
    (i.f.clause = none → (field w 24 8).toNat = 0x80 →
      ∀ s3, fetchWord s2 gid i.g i.k i.f.pc.toNat = (.word w, s3) → step s = afterWord s0 gid fid (exec ins s3))

/-- 01 R16, R22; 19 R390; 26 R436: a step that an event stands first for runs that event with nothing issuing, where the
module's power admits it, and leaves the state where a retraining boundary holds what the event needs; which events a
module that is not on admits is the model's choice (log entry 43). A step for the passing of time, with nothing that
happens by itself before it has passed, adds it to each active die's GT that neither slews nor holds; one for a write by
the host to a line that no core holds with permission writes its bytes. The agenda of moves is the model's own (log
entry 6). -/
def Obligations.StepTakesTheFirstMove : Prop :=
  ∀ (s s0 : State) (m : Move) (rest : List Move), s.agenda = m :: rest → s0 = { s with agenda := rest } →
    (∀ w, m = .event w → s.power = .on → step s = undone s0 (exec w { s0 with cur := none })) ∧
    (∀ w, m = .event w → eventAllowed s.power w = false → step s = .next s0) ∧
    (∀ (ns d : Nat) (x : Die), m = .tick ns → dieAt s d = some x → x.active = true → x.failed = false → x.slew = 0 →
      x.hold = 0 → x.frac < 64 → x.gt + ns < 2 ^ 64 → s.power = .on → (∀ e ∈ s.groups, e.2.logQueue = []) →
      s.outbox = [] → latchTiles s0 = s0 → (∀ l ∈ slotLimits s0 ++ limits s0, l.1 ≠ 0 ∧ ns ≤ l.1) →
        ∃ t, step s = .next t ∧ ∃ y, dieAt t d = some y ∧ y.gt = x.gt + ns ∧ y.frac = x.frac ∧ t.mem = s.mem) ∧
    (∀ (a : Nat) (b : Byte), m = .hostWrite a [b] → partialsOf s (a / 128) = [] → (homeOf s (a / 128)).holders = [] →
      s.held = false → s.memoryForm → snoopHeld s a 1 = false → ∃ t, step s = .next t ∧ Memory.read t.mem a = b ∧ ∀ x : Nat, x ≠ a → Memory.read t.mem x = Memory.read s.mem x)

/-- 04 R83 to R99: some words with the instruction that each encodes, among them the words that the specification's
examples give. -/
def Obligations.ExampleWordsDecode : Prop :=
  decode 0xE8308002 = .ok (.cstart 12 8 2) ∧ decode 0xE900C340 = .ok (.carm 12 13 0) ∧
  decode 0xEA38C000 = .ok (.cquery 14 12 0) ∧ decode 0x1900D5D4 = .ok (.mov (.v 0) .lid) ∧
  decode 0xA1240003 = .ok (.smovi 9 3) ∧ decode 0x171100E9 = .ok (.icmp 2 1 (.v 0) (.s 9)) ∧
  decode 0x87040004 = .ok (.brp 1 0 4) ∧ decode 0x8F000000 = .ok .exit ∧ decode 0x80000003 = .ok (.clause 0 0 0 3) ∧
  decode 0x01090506 = .ok (.isub (.v 9) (.v 5) (.v 6)) ∧ decode 0x1B000000 = .error .reservedOpcode ∧
  decode 0x84000001 = .error .fixedBits

/-- Whether an instruction is one of the 206 that have a word; the other rows are events of the machine. -/
def Sys2Proof.Instr.hasWord (i : Instr) : Bool := decide (i.ctorIdx < 206)

/-- 04 R86 to R99: every instruction word encodes, and the decoder reads back every field of it at every value that its
encoding admits. -/
def Obligations.EncodedWordsDecode : Prop :=
  (∀ i : Instr, i.hasWord = true → ∃ w : Word, encode i = some w) ∧
  ∀ (i : Instr) (w : Word), encode i = some w → decode w = .ok i

/-- 04 R86 to R99: a word that decodes is the one encoding of its instruction, so that no two words are one instruction
and no bit of a word is ignored. -/
def Obligations.DecodedWordsEncode : Prop :=
  ∀ (i : Instr) (w : Word), decode w = .ok i → encode i = some w

/-- 01 R12 to R15, R22, R23; 26 R436 to R440: after panel reset every die's GT and fraction are zero and its log is
empty, die 14 is the root, no partition, context, kernel, group or mailbox command stands, the bring-up report says
READY. That all 36 dies and every boundary work, that memory reads zero, and that no die slews, holds or has a part of a
nanosecond, are the model's choice (log entries 15, 2 and 16). -/
def Obligations.ResetLeavesTheSpecifiedState : Prop :=
  let s := State.reset
  (∀ x ∈ s.dies, x.gt = 0 ∧ x.frac = 0 ∧ x.log = [] ∧ x.hold = 0 ∧ x.slew = 0) ∧ s.root = 14 ∧ s.power = .on ∧
  s.partitions = [] ∧ s.contexts = [] ∧ s.kernels = [] ∧ s.groups = [] ∧ s.blocks = [] ∧ s.mailbox.busy = false ∧
  s.panelForm ∧ s.memoryForm ∧ buact0 s = 0xFFFFFFFF ∧ buact1 s = 0x8024FFFF

namespace Sys2Proof.Machine

/-- The opcode of an instruction word. -/
def opcodeOf (w : Instr) : Option Nat := (encode w).map fun x => (field x 24 8).toNat

/-- The words whose effect is on registers alone: the short-latency lane words, the prefixes and NOP, and the scalar,
predicate and lane-transfer words (R98, R99). -/
def isRegisterWord (w : Instr) : Bool :=
  (opcodeOf w).any fun n => n < 0x50 || (0x81 ≤ n && n ≤ 0x84) || (0x90 ≤ n && n ≤ 0xAB)

end Sys2Proof.Machine

/-- 00 R4; 05; 06 R132 to R135: whatever a register word meets (operands, waits, draws, a trap, a trap that faults its
context), memory stays in its canonical form, and the module's power, root, partitions, links and ports stay as they
are. -/
def Obligations.RegisterWordsKeepThePanel : Prop :=
  ∀ (s t : State) (w : Instr), s.memoryForm → isRegisterWord w = true → exec w s = .next t →
    t.memoryForm ∧ t.power = s.power ∧ t.root = s.root ∧ t.partitions = s.partitions ∧ t.hostLinks = s.hostLinks ∧
      t.ethPorts = s.ethPorts ∧ t.linkMap = s.linkMap ∧ t.agenda = s.agenda
end

