-- ==== Sys2Proof/Laws/Lane.lean ====
section
/-! SUPPORT. What a short-latency lane instruction does once nothing stops it: one repetition, results into registers. -/

namespace Sys2Proof.Machine

theorem countEvent_off {s : State} {i : Iss} (h : issuing s = some i) (hp : debugOn s i.k.ctx 0 = false) (c n : Nat) :
    countEvent s i.gid c n = s := by
  obtain ⟨-, hg, -, hk, -⟩ := issuing_parts h
  simp [countEvent, groupAt, kernelAt, hg, hk, hp]

theorem commitDraws_zero (s : State) (gid : Nat) : commitDraws s gid 0 = s := by simp [commitDraws]

/-- Whether two groups differ at most in their lane registers. -/
def sameButLanes (g h : Group) : Prop := h = { g with v := h.v, o := h.o }

theorem sameButLanes_refl (g : Group) : sameButLanes g g := rfl

theorem sameButLanes_trans {g h k : Group} (a : sameButLanes g h) (b : sameButLanes h k) : sameButLanes g k := by
  unfold sameButLanes at *
  rw [b, a]

theorem sameButLanes_writeReg (g : Group) (r : LReg) (l : Nat) (x : Word) : sameButLanes g (writeReg g r l x) := by
  cases r <;> rfl

theorem sameButLanes_writeWide (n : Nat) : ∀ (g : Group) (r : LReg) (l x : Nat), sameButLanes g (writeWide g r l n x) := by
  induction n with
  | zero => intro g r l x; rfl
  | succ n ih => intro g r l x; exact sameButLanes_trans (sameButLanes_writeReg g r l _) (ih _ _ _ _)

theorem sameButLanes_foldl {β : Type} (f : Group → β → Group) (hf : ∀ g b, sameButLanes g (f g b)) (bs : List β) (g : Group) :
    sameButLanes g (bs.foldl f g) := by
  induction bs generalizing g with
  | nil => rfl
  | cons b bs ih => exact sameButLanes_trans (hf g b) (ih _)

/-- Results written to lane registers change nothing else of a group. -/
theorem sameButLanes_writeResults (g : Group) (d : LReg) (n : Nat) (res : List (Nat × Nat)) (zero : List Nat) :
    sameButLanes g (writeResults g d n res zero) :=
  sameButLanes_trans (sameButLanes_foldl _ (fun g l => sameButLanes_writeWide n g d l 0) zero g)
    (sameButLanes_foldl _ (fun g (r : Nat × Nat) => sameButLanes_writeWide n g d r.1 r.2) res _)

/-- The sources of one repetition where no field is a queue. -/
def plainSrcs (i : Iss) (fm : Form) (m : Mods) (a b : LReg) (imm : Nat) : Srcs :=
  { a := fieldVal i.g i.f (fm.a m.ty) a []
    b := if fm.bUse m = .imm then fun _ => imm else fieldVal i.g i.f (fm.bUse m) b []
    c := fieldVal i.g i.f (fm.c m.ty) m.c [] }

/-- The results of one repetition that draws nothing. -/
def plainResults (i : Iss) (m : Mods) (fn : LaneFn) (x : Srcs) : List (Nat × Nat) :=
  laneResults fn m x [] (Mask.lanes (activeLanes i m)) 0

/-- The group after one repetition's results. -/
def resultGroup (i : Iss) (fm : Form) (m : Mods) (d : LReg) (res : List (Nat × Nat)) : Group :=
  (writeResults i.g d (fm.d m.ty).count res (Mask.lanes (zeroLanes i m))).withBoard (i.g.board ++ boardCodes (fm.d m.ty) d)

/-- A repetition's results change a group's lane registers and scoreboard alone. -/
theorem resultGroup_eq (i : Iss) (fm : Form) (m : Mods) (d : LReg) (res : List (Nat × Nat)) :
    resultGroup i fm m d res = { i.g with
      v := (resultGroup i fm m d res).v, o := (resultGroup i fm m d res).o
      board := i.g.board ++ boardCodes (fm.d m.ty) d } := by
  have h := sameButLanes_writeResults i.g d (fm.d m.ty).count res (Mask.lanes (zeroLanes i m))
  unfold resultGroup Group.withBoard
  conv_lhs => rw [h]

theorem resultGroup_fibres (i : Iss) (fm : Form) (m : Mods) (d : LReg) (res : List (Nat × Nat)) :
    (resultGroup i fm m d res).fibres = i.g.fibres := by rw [resultGroup_eq]

theorem dealElems_nil (rs : List LReg) (h : popsOf rs = []) : ∀ j, (dealElems rs []).getD j [] = [] := by
  induction rs with
  | nil => intro j; simp [dealElems]
  | cons r rs ih =>
    intro j
    cases r <;> simp [popsOf] at h <;> cases j <;> simp [dealElems] <;> exact ih (by simpa [popsOf] using h) _

/-- One repetition with no queue field and no draw. -/
theorem runOnce_plain {s : State} {i : Iss} (h : issuing s = some i) (fm : Form) (m : Mods) (d a b : LReg) (imm : Nat)
    (fn : LaneFn) (hr : m.rnd = 5 → ∀ x l, fn.draws m x l = 0) (hd : isQueue d = false)
    (hp : popsOf [a, if fm.bUse m = .imm then .zero else b, m.c] = []) :
    let res := plainResults i m fn (plainSrcs i fm m a b imm)
    let g := resultGroup i fm m d res
    runOnce s i fm m d a b imm fn .regs = .ok (i.put s (i.withFibre g (pushResults g d (fm.d m.ty).count res i.f))) := by
  have hel := dealElems_nil _ hp
  have htot : ∀ x : Srcs, (if m.rnd = 5 then ((Mask.lanes (activeLanes i m)).map (fn.draws m x)).sum else 0) = 0 := by
    intro x
    by_cases h5 : m.rnd = 5
    · have : (Mask.lanes (activeLanes i m)).map (fn.draws m x) = (Mask.lanes (activeLanes i m)).map fun _ => 0 :=
        List.map_congr_left fun l _ => hr h5 x l
      rw [if_pos h5, this]
      simp
    · rw [if_neg h5]
  have hdv : drawValues s i.k i.g 0 = some [] := by
    simp [drawValues, drawAny]
  have hor : openReplay s i.k i.g 0 = s := by
    unfold openReplay
    split <;> simp
  intro res g
  unfold runOnce
  simp only [hp, popAll, queuesReady, htot, hor, hdv, List.all_nil, Bool.true_and, commitDraws_zero, if_true, hel]
  have hs : (match d with
      | .q k => RepOut.ok (updBlock s i.g.block fun bb => bb.push k.val
          (res.foldl (fun t r => Table.wr t 0 r.1 (BitVec.ofNat 32 r.2)) []))
      | _ => .ok (i.put s (i.withFibre g (pushResults g d (fm.d m.ty).count res i.f)))) =
        RepOut.ok (i.put s (i.withFibre g (pushResults g d (fm.d m.ty).count res i.f))) := by
    cases d <;> first | rfl | simp [isQueue] at hd
  refine Eq.trans ?_ hs
  have hu : ∀ gg : Group, gg = g →
      (match groupAt (i.put s gg) i.gid with
        | some g' => RepOut.ok (updFibre (i.put s gg) i.gid i.fid (pushResults g' d (fm.d m.ty).count res))
        | none => .ok (i.put s gg)) = .ok (i.put s (i.withFibre g (pushResults g d (fm.d m.ty).count res i.f))) := by
    intro gg e
    subst e
    rw [groupAt_put]
    simp only
    rw [updFibre_put s i _ i.f (by rw [resultGroup_fibres]; exact (issuing_parts h).2.2.1)]
  have hg : ({ writeResults i.g d (fm.d m.ty).count res (Mask.lanes (zeroLanes i m)) with
      board := (writeResults i.g d (fm.d m.ty).count res (Mask.lanes (zeroLanes i m))).board ++ boardCodes (fm.d m.ty) d } : Group) = g := by
    have h := sameButLanes_writeResults i.g d (fm.d m.ty).count res (Mask.lanes (zeroLanes i m))
    have hbd : (writeResults i.g d (fm.d m.ty).count res (Mask.lanes (zeroLanes i m))).board = i.g.board := by rw [h]
    rw [hbd]; rfl
  cases d <;> first
    | (simp [isQueue] at hd; done)
    | (simp only [updGroup_issuing h]; exact hu _ hg)

/-- The last-result file after a repetition's results are pushed. -/
def pushedLast (i : Iss) (g : Group) (d : LReg) (n : Nat) (res : List (Nat × Nat)) : Table Word :=
  (pushResults g d n res i.f).last

theorem pushResults_last (g : Group) (d : LReg) (n : Nat) (res : List (Nat × Nat)) (f : Fibre) :
    pushResults g d n res f = { f with last := (pushResults g d n res f).last } := by
  unfold pushResults
  generalize List.range n = js
  suffices ∀ (x : Fibre), x = { f with last := x.last } →
      js.foldl (fun f j => pushLast f (pushedValues g f d j res)) x =
        { f with last := (js.foldl (fun f j => pushLast f (pushedValues g f d j res)) x).last } from this f rfl
  intro x hx
  induction js generalizing x with
  | nil => exact hx
  | cons j js ih =>
    rw [List.foldl_cons]
    refine ih _ ?_
    rw [hx]
    rfl

theorem issuing_put {s : State} {i : Iss} (h : issuing s = some i) (g : Group) (f : Fibre) (hk : g.kernel = i.g.kernel)
    (hb : g.block = i.g.block) (hf : Table.look g.fibres i.fid = some f) :
    issuing (i.put s g) = some { i with g := g, f := f } := by
  obtain ⟨hc, -, -, hk', hb'⟩ := issuing_parts h
  have hc' : (i.put s g).cur = some (i.gid, i.fid) := hc
  unfold issuing
  rw [hc']
  simp only [groupAt_put]
  have h1 : kernelAt (i.put s g) g.kernel = some i.k := by rw [hk]; exact hk'
  have h2 : blockAt (i.put s g) g.block = some i.b := by rw [hb]; exact hb'
  rw [h1, h2, hf]

theorem moveOn_last (f : Fibre) (t : Table Word) (pc : DWord) :
    moveOn { f with last := t } pc = { moveOn f pc with last := t } := rfl

/-- A SHORT-LATENCY LANE WORD that nothing stops, with no REP, no queue field and no draw: the results stand in the group,
one last-result entry a register is pushed, the word is passed, and nothing else of the state changes. -/
theorem laneRun_plain {s : State} {i : Iss} {m : Mods} (hm : i.modified s m) (fm : Form)
    (d a b : LReg) (low : Nat) (imm : Mods → Nat) (fn : LaneFn) (hok : modsOk fm i.f.clause m low = true)
    (hf : fieldTrap i.k i.g.window false (fm.fields m d a b) = none) (hb : onBoard i.g (fm.fields m d a b) = false)
    (ht : pendingS i.g (sCodes (fm.fields m d a b)) = none)
    (hr : m.rnd = 5 → ∀ x l, fn.draws m x l = 0) (hd : isQueue d = false)
    (hpop : popsOf [a, if fm.bUse m = .imm then .zero else b, m.c] = []) :
    let res := plainResults i m fn (plainSrcs i fm m a b (imm m))
    let g := resultGroup i fm m d res
    laneRun s i fm d a b low imm fn .regs =
      i.put s (i.withFibre g { i.passed with last := pushedLast i g d (fm.d m.ty).count res }) := by
  obtain ⟨h, hq, hrep, hdone, rfl⟩ := hm
  intro res g
  have hfrom : (i.f.chain.map (·.done)).getD 0 = 0 := by
    cases hc : i.f.chain with
    | none => rfl
    | some c => simp [(hdone c hc).1]
  have hupto : min 1 ((i.f.chain.bind (·.upto)).getD 1) = 1 := by
    cases hc : i.f.chain with
    | none => rfl
    | some c =>
      have := (hdone c hc).2
      cases hu : c.upto with
      | none => simp [hu]
      | some n =>
        have : n ≠ 0 := fun e => this (by rw [hu, e])
        simp only [Option.bind_some, hu, Option.getD_some]
        omega
  have hhold : ∀ fs, onBoard i.g fs = false → pendingS i.g (sCodes fs) = none → boardHold i.g.board s i fs = none := by
    intro fs h1 h2
    have h1' : (fs.any fun f => (boardCodes f.1 f.2).any i.g.board.contains) = false := h1
    simp [boardHold, h1', h2]
  have hkeep : Table.look g.fibres i.fid = some i.f := by
    rw [resultGroup_fibres]; exact (issuing_parts h).2.2.1
  unfold laneRun
  simp only [hrep, hok, hf, hfrom, Option.getD_none, Bool.not_true, Bool.or_false, Bool.false_eq_true, if_false,
    if_true, hupto, hhold _ hb ht]
  simp only [runReps, stepReg, Nat.cast_zero, zero_mul, if_true, hf, hhold _ hb ht]
  rw [runOnce_plain h fm _ d a b (imm _) fn hr hd hpop]
  have hiss := issuing_put h (i.withFibre g (pushResults g d (fm.d (modsOf i.f.chain).ty).count res i.f))
    (pushResults g d (fm.d (modsOf i.f.chain).ty).count res i.f) ?_ ?_ (Table.look_ins_same _ _ _)
  · simp only
    rw [hiss]
    simp only []
    unfold finish
    rw [updFibre_put s i _ _ (Table.look_ins_same _ _ _), pushResults_last, moveOn_last, moveOn_passed]
    have hw : ∀ x y : Fibre, i.withFibre (i.withFibre g x) y = i.withFibre g y := by
      intro x y; simp [Iss.withFibre]
    rw [hw, if_neg (Nat.lt_irrefl 1), raisePending_quiet (s := s) ?_ hq]
    · exact stepTrap_quiet rfl rfl hq
    · intro f hf
      rw [fibreAt_put] at hf
      cases hf
      rfl
  · change (resultGroup i fm (modsOf i.f.chain) d res).kernel = _; rw [resultGroup_eq]
  · change (resultGroup i fm (modsOf i.f.chain) d res).block = _; rw [resultGroup_eq]

end Sys2Proof.Machine
end

