-- ==== Sys2Proof/Laws/Memory.lean ====
section
/-! SUPPORT. The laws of memory: read after write, and the canonical form kept by every operation that writes memory. -/

namespace Sys2Proof.Machine

theorem Memory.wf_write {m : List Host.Cell} (h : Memory.wf m = true) (a : Nat) (b : Byte) :
    Memory.wf (Memory.write m a b) = true := Table.wf_wr h a b

theorem Memory.wf_writeN {m : List Host.Cell} (h : Memory.wf m = true) (a : Nat) (bs : List Byte) :
    Memory.wf (Memory.writeN m a bs) = true := by
  induction bs generalizing m a with
  | nil => exact h
  | cons b bs ih => exact ih (Memory.wf_write h a b) (a + 1)

theorem Memory.wf_filter {m : List Host.Cell} (h : Memory.wf m = true) (p : Host.Cell → Bool) :
    Memory.wf (m.filter p) = true := Table.wf_filter h p

/-- A byte written is read back. -/
theorem Memory.read_write_same {m : List Host.Cell} (h : Memory.wf m = true) (a : Nat) (b : Byte) :
    Memory.read (Memory.write m a b) a = b := Table.rd_wr_same h a b

/-- A byte written leaves every other byte alone. -/
theorem Memory.read_write_other (m : List Host.Cell) {a c : Nat} (b : Byte) (h : a ≠ c) :
    Memory.read (Memory.write m a b) c = Memory.read m c := Table.rd_wr_other m _ b h

/-- Bytes written leave every byte outside them alone. -/
theorem Memory.read_writeN_outside (m : List Host.Cell) (a : Nat) (bs : List Byte) (c : Nat)
    (h : c < a ∨ a + bs.length ≤ c) : Memory.read (Memory.writeN m a bs) c = Memory.read m c := by
  induction bs generalizing m a with
  | nil => rfl
  | cons b bs ih =>
    simp only [List.length_cons] at h
    rw [Memory.writeN, ih _ _ (by omega), Memory.read_write_other _ _ (by omega)]

/-- Bytes written are read back. -/
theorem Memory.read_writeN_inside {m : List Host.Cell} (h : Memory.wf m = true) (a : Nat) (bs : List Byte) (j : Nat)
    (hj : j < bs.length) : Memory.read (Memory.writeN m a bs) (a + j) = bs[j] := by
  induction bs generalizing m a j with
  | nil => simp at hj
  | cons b bs ih =>
    rw [Memory.writeN]
    cases j with
    | zero =>
      rw [Memory.read_writeN_outside _ _ _ _ (by omega)]
      simpa using Memory.read_write_same h a b
    | succ j =>
      have := ih (Memory.wf_write h a b) (a + 1) j (by simpa using hj)
      simpa [Nat.add_assoc, Nat.add_comm 1 j] using this

/-- A frame's bytes copied keep the canonical form. -/
theorem Memory.wf_copyCells {m : List Host.Cell} (h : Memory.wf m = true) (src dst n : Nat) :
    Memory.wf (copyCells m src dst n) = true := by
  have key : ∀ (cs : List Host.Cell) (m : List Host.Cell), Memory.wf m = true →
      Memory.wf (cs.foldl (fun m c => Memory.write m c.1 c.2) m) = true := by
    intro cs
    induction cs with
    | nil => intro m h; exact h
    | cons c cs ih => intro m h; exact ih _ (Memory.wf_write h _ _)
  exact key _ _ (Memory.wf_filter h _)

/-! ## The operations on the state that write memory -/

/-- Memory is empty after panel reset, and so in its canonical form. -/
theorem memoryForm_reset : State.reset.memoryForm := rfl

/-- A fold of operations each of which keeps the form keeps it. -/
theorem memoryForm_foldl {β : Type} (f : State → β → State) (hf : ∀ s b, s.memoryForm → (f s b).memoryForm) (bs : List β)
    {s : State} (h : s.memoryForm) : (bs.foldl f s).memoryForm := by
  induction bs generalizing s with
  | nil => exact h
  | cons b bs ih => exact ih (hf s b h)

theorem choose_mem (s : State) (n : Nat) : (choose s n).2.mem = s.mem := by
  unfold choose
  split <;> rfl

theorem memoryForm_choose {s : State} (h : s.memoryForm) (n : Nat) : (choose s n).2.memoryForm := by
  unfold State.memoryForm
  rw [choose_mem]
  exact h

/-- What a request counts and which lines slices hold is no part of memory. -/
theorem countHot_mem (s : State) (ctx key requester m : Nat) : (countHot s ctx key requester m).mem = s.mem := by
  unfold countHot
  dsimp only
  split
  · rfl
  · split <;> rfl

theorem intoSlice_mem (s : State) (f : Nat → Nat) (held : List (Nat × Nat)) (die line cap : Nat) :
    (intoSlice s f held die line cap).2.mem = s.mem := by
  unfold intoSlice
  dsimp only
  split
  · rfl
  · split
    · rfl
    · exact choose_mem _ _

/-- A home slice's access leaves memory. -/
theorem homeTouch_mem (s : State) (ctx requester line : Nat) (write : Bool) :
    (homeTouch s ctx requester line write).mem = s.mem := by
  have hw : (if write ∧ !s.written.contains line then { s with written := line :: s.written } else s).mem = s.mem := by
    split <;> rfl
  unfold homeTouch
  dsimp only
  generalize (if write ∧ !s.written.contains line then { s with written := line :: s.written } else s) = t at hw ⊢
  split
  · exact hw
  · refine (intoSlice_mem _ _ _ _ _ _).trans ?_
    split
    · exact (intoSlice_mem _ _ _ _ _ _).trans ((countHot_mem _ _ _ _ _).trans hw)
    · exact hw

theorem memoryForm_homeTouch {s : State} (h : s.memoryForm) (ctx requester line : Nat) (write : Bool) :
    (homeTouch s ctx requester line write).memoryForm := by
  unfold State.memoryForm
  rw [homeTouch_mem]
  exact h

theorem memoryForm_of_mem {s t : State} (h : s.memoryForm) (e : t.mem = s.mem) : t.memoryForm := by
  unfold State.memoryForm
  rw [e]
  exact h

/-- What a way through the mesh needs is no part of memory. -/
theorem needWay_mem (s : State) (src dest : Nat) : (needWay s src dest).mem = s.mem := by
  unfold needWay
  split <;> rfl

theorem needHome_mem (s : State) (ctx die line : Nat) : (needHome s ctx die line).mem = s.mem := by
  unfold needHome
  dsimp only
  split <;> split <;> exact needWay_mem _ _ _

theorem updHome_mem (s : State) (line : Nat) (f : HomeLine → HomeLine) : (updHome s line f).mem = s.mem := rfl

theorem memoryForm_writeLeaf {s : State} (h : s.memoryForm) (ctx a leaf : Nat) : (writeLeaf s ctx a leaf).memoryForm :=
  Memory.wf_writeN (memoryForm_homeTouch h _ _ _ _) a _

theorem memoryForm_clearPoison {s : State} (h : s.memoryForm) (ls : List Nat) : (clearPoison s ls).memoryForm := by
  unfold clearPoison
  dsimp only
  split
  · exact h
  · refine memoryForm_foldl _ (fun s x hs => ?_) _ h
    split
    · exact memoryForm_writeLeaf hs _ _ _
    · exact hs

theorem keepHelps_mem (s : State) (hs : List (Nat × Nat)) : (keepHelps s hs).mem = s.mem := by
  unfold keepHelps
  split <;> rfl

theorem memoryForm_wakeSpin {s : State} (h : s.memoryForm) (line : Nat) : (wakeSpin s line).memoryForm :=
  memoryForm_of_mem h (keepHelps_mem _ _)

theorem memoryForm_foldPartial {s : State} (h : s.memoryForm) (p : Partial) : (foldPartial s p).memoryForm := by
  unfold foldPartial
  split
  · exact h
  · exact memoryForm_wakeSpin (s := { homeTouch s p.ctx (coreDie p.core) (p.addr / 128) true with mem := _ })
      (Memory.wf_writeN (memoryForm_homeTouch h _ _ _ _) _ _) _

theorem memoryForm_recallLine {s : State} (h : s.memoryForm) (line : Nat) : (recallLine s line).memoryForm := by
  have ways : ∀ (cs : List (Nat × Nat)) (d : Nat), (cs.foldl (fun s c =>
      needWay (needWay s d (coreDie c.1)) (coreDie c.1) d) s).memoryForm := fun cs d =>
    memoryForm_foldl _ (fun s c hs => memoryForm_of_mem (memoryForm_of_mem hs (needWay_mem _ _ _)) (needWay_mem _ _ _)) _ h
  have one : ∀ (es : List (Nat × Partial)) (u : State), u.memoryForm → (es.foldl (fun s e =>
      { foldPartial s e.2 with partials := Table.del s.partials e.1 }) u).memoryForm := fun es u hu =>
    memoryForm_foldl _ (fun s e hs => memoryForm_of_mem (memoryForm_foldPartial hs e.2) rfl) _ hu
  unfold recallLine
  dsimp only
  split
  · exact h
  · refine memoryForm_of_mem (s := List.foldl _ _ _) ?_ (updHome_mem _ _ _)
    refine memoryForm_foldl _ (fun s ck hs => ?_) _ ?_
    · exact one _ s hs
    · exact memoryForm_choose (ways _ _) _

/-- A home's line recalled and touched for a request keeps the form. -/
theorem memoryForm_homeAccess {s : State} (h : s.memoryForm) (ctx die l : Nat) (w : Bool) :
    (homeTouch (recallLine (needHome s ctx die l) l) ctx die l w).memoryForm :=
  memoryForm_homeTouch (memoryForm_recallLine (memoryForm_of_mem h (needHome_mem _ _ _ _)) l) _ _ _ _

theorem memoryForm_homeBytes {s : State} (h : s.memoryForm) (k : Nat) (bs : List Byte) :
    (homeBytes s k bs).memoryForm :=
  memoryForm_clearPoison (s := { s with mem := Memory.writeN s.mem k bs }) (Memory.wf_writeN h k bs) _

theorem memoryForm_engineRead {s : State} (h : s.memoryForm) (ctx die k n : Nat) :
    (engineRead s ctx die k n).2.memoryForm :=
  memoryForm_foldl _ (fun _ l hs => memoryForm_homeAccess hs _ _ l _) _ h

theorem memoryForm_engineWrite {s : State} (h : s.memoryForm) (ctx die k : Nat) (bs : List Byte) :
    (engineWrite s ctx die k bs).2.memoryForm := by
  have h1 : ((linesOf k bs.length).foldl
      (fun s l => homeTouch (recallLine (needHome s ctx die l) l) ctx die l true) s).memoryForm :=
    memoryForm_foldl _ (fun _ l hs => memoryForm_homeAccess hs _ _ l _) _ h
  unfold engineWrite
  dsimp only
  exact memoryForm_foldl _ (fun _ l hs => memoryForm_wakeSpin hs l) _
    (memoryForm_homeBytes (s := updCtx _ ctx _) (memoryForm_of_mem h1 rfl) k bs)

theorem memoryForm_writePool {s : State} (h : s.memoryForm) (ctx j d0 d1 : Nat) :
    (writePool s ctx j d0 d1).memoryForm := by
  unfold writePool
  split
  · exact h
  · exact Memory.wf_writeN (memoryForm_homeTouch h _ _ _ _) _ _

theorem memoryForm_settleFrame {s : State} (h : s.memoryForm) (key n : Nat) : (settleFrame s key n).memoryForm :=
  memoryForm_foldl _ (fun _ l hs => memoryForm_recallLine hs l) _ h

theorem memoryForm_copyFrame {s t : State} (h : s.memoryForm) (src dst n : Nat) (e : copyFrame s src dst n = some t) :
    t.memoryForm := by
  unfold copyFrame at e
  dsimp only at e
  split at e
  · cases e
  · cases e
    refine memoryForm_foldl _ (fun _ l hs => memoryForm_wakeSpin hs l) _ (memoryForm_clearPoison ?_ _)
    have hw : Memory.wf (settleFrame (settleFrame s src n) dst n).mem = true :=
      memoryForm_settleFrame (memoryForm_settleFrame h src n) dst n
    exact Memory.wf_copyCells hw src dst n

end Sys2Proof.Machine
end

