-- ==== Sys2Proof/WellFormed.lean ====
section
/-! DEFINITION. The instructions that are well formed by their own fields: what an issue would refuse whatever the state is
(02 R35 to R44, 04 R83 to R95, 05 R116, 07 R172), and for events the parts that exist (01 R12 to R15). -/

namespace Sys2Proof

/-- A destination of 32 bits: class V or O, ZERO, or a queue (02 R35). -/
def dstOk (r : LReg) : Bool := match r with | .v _ => true | .o _ => true | .zero => true | .q _ => true | _ => false

/-- A source of 32 bits: anything but the field value that names nothing (02 R35). -/
def srcOk (r : LReg) : Bool := match r with | .none => false | _ => true

/-- `n` registers of class V or O from a multiple of `n` (02 R37). -/
def runOk (n : Nat) (r : LReg) : Bool :=
  match r with
  | .v k => decide (k.val % n = 0 ∧ k.val + n ≤ 192)
  | .o k => decide (k.val % n = 0 ∧ k.val + n ≤ 16)
  | _ => false

/-- The data of a load or a store of `n` registers: a run, or ZERO (11 R234, R235). -/
def dataOk (n : Nat) (r : LReg) : Bool := runOk n r || decide (r = .zero)

/-- A global address: an even pair of class V, O or S (04 R87). -/
def addressOk (r : LReg) : Bool :=
  match r with | .v k => k.val % 2 = 0 | .o k => k.val % 2 = 0 | .s k => k.val % 2 = 0 | _ => false

/-- A main register. -/
def mainOk (r : LReg) : Bool := match r with | .v _ => true | _ => false

/-- A main register that begins a fragment, a multiple of 4 (12 R270, 15 R325). -/
def fragmentOk (r : LReg) : Bool := match r with | .v k => k.val % 4 = 0 | _ => false

/-- An operand register that begins the eight of ACCRD or ACCWR (12 R273). -/
def operandRunOk (r : LReg) : Bool := match r with | .o k => decide (k.val % 4 = 0 ∧ k.val + 8 ≤ 16) | _ => false

/-- A lane register that RDLANE and WRLANE may name (06 R135). -/
def vregKindOk (r : LReg) : Bool := match r with | .v _ => true | .o _ => true | _ => false

/-- A condition code up to `top` (05 R116). -/
def condOk (top : Nat) (c : BitVec 5) : Bool := decide (c.toNat ≤ top)

/-- A predicate that may be written: P1 to P7 (02 R31, R41). -/
def predOk (p : BitVec 3) : Bool := decide (p ≠ 0)

/-- A uniform register that may begin a pair (02 R40). -/
def evenOk (k : BitVec 6) : Bool := decide (k.toNat % 2 = 0)

/-- A flag that an instruction counts against: F1 to F12 (02 R44). -/
def flagOk (f : BitVec 4) : Bool := decide (1 ≤ f.toNat ∧ f.toNat ≤ 12)

/-- The counting flags of a CLAUSE: B needs A, and the two differ (04 R83). -/
def flagsOk (a b : BitVec 4) : Bool :=
  decide (a.toNat ≤ 12 ∧ b.toNat ≤ 12) && (decide (b = 0) || (decide (a ≠ 0) && decide (a ≠ b)))

/-- A rounding mode that PFX may name: RNE, RTZ, RUP, RDN, RNA or SR (03 R59). -/
def roundOk (r : BitVec 3) : Bool := decide (r.toNat ≤ 5)

/-- The type of B that MMA names: 0, or a matrix type (12 R266). -/
def typeOk (y : BitVec 4) : Bool := decide (y.toNat = 0 ∨ (2 ≤ y.toNat ∧ y.toNat ≤ 5) ∨ y.toNat = 10 ∨ y.toNat = 11)

/-- The access sizes of SLD and SST: 4, 8 and 16 bytes (11 R246). -/
def sizeOk (z : BitVec 2) : Bool := decide (z ≠ 3)

/-- A barrier number of its level: 4 at group and grid level, 16 at block level, 8 at cluster level (08 R174). -/
def levelOk (l : BitVec 2) (n : BitVec 4) : Bool :=
  match l.toNat with | 0 => decide (n.toNat ≤ 3) | 1 => true | 2 => decide (n.toNat ≤ 7) | _ => decide (n.toNat ≤ 3)

/-- A query code of SUMRD (13 R295). -/
def queryOk (q : BitVec 6) : Bool := decide (q.toNat ≤ 6)

/-- The parts that the panel has (01 R12 to R15, R20; 02 R32). -/
def Part.inPanel (p : Part) : Bool :=
  match p with
  | .die d => decide (d < 36)
  | .pseudoChannel d c => decide (d < 36 ∧ c < 128)
  | .boundary b => decide (b < 60)
  | .hostLink k => decide (k < 4)
  | .ethPort e => decide (e < 8)
  | .saveCopy _ _ => true
  | .core d c => decide (d < 36 ∧ c < 96)

/-- Whether an instruction is well formed. -/
def Instr.wf (i : Instr) : Bool :=
  match i with
  | .iadd d a b => dstOk d && srcOk a && srcOk b
  | .isub d a b => dstOk d && srcOk a && srcOk b
  | .imul d a b => dstOk d && srcOk a && srcOk b
  | .imulh d a b => dstOk d && srcOk a && srcOk b
  | .umulh d a b => dstOk d && srcOk a && srcOk b
  | .imad d a b => dstOk d && srcOk a && srcOk b
  | .imin d a b => dstOk d && srcOk a && srcOk b
  | .imax d a b => dstOk d && srcOk a && srcOk b
  | .umin d a b => dstOk d && srcOk a && srcOk b
  | .umax d a b => dstOk d && srcOk a && srcOk b
  | .and d a b => dstOk d && srcOk a && srcOk b
  | .or d a b => dstOk d && srcOk a && srcOk b
  | .xor d a b => dstOk d && srcOk a && srcOk b
  | .andn d a b => dstOk d && srcOk a && srcOk b
  | .shl d a b => dstOk d && srcOk a && srcOk b
  | .shr d a b => dstOk d && srcOk a && srcOk b
  | .sar d a b => dstOk d && srcOk a && srcOk b
  | .rol d a b => dstOk d && srcOk a && srcOk b
  | .popc d a => dstOk d && srcOk a
  | .clz d a => dstOk d && srcOk a
  | .brev d a => dstOk d && srcOk a
  | .bfx d a b => dstOk d && srcOk a && srcOk b
  | .bfi d a b => dstOk d && srcOk a && srcOk b
  | .icmp c p a b => condOk 5 c && predOk p && srcOk a && srcOk b
  | .ucmp c p a b => condOk 5 c && predOk p && srcOk a && srcOk b
  | .mov d a => dstOk d && srcOk a
  | .sel d a b => dstOk d && srcOk a && srcOk b
  | .iaddi d a _ => dstOk d && srcOk a
  | .shli d a _ => dstOk d && srcOk a
  | .shri d a _ => dstOk d && srcOk a
  | .sari d a _ => dstOk d && srcOk a
  | .andi d a _ => dstOk d && srcOk a
  | .ori d a _ => dstOk d && srcOk a
  | .xori d a _ => dstOk d && srcOk a
  | .movi d _ => dstOk d
  | .fadd d a b => dstOk d && srcOk a && srcOk b
  | .fsub d a b => dstOk d && srcOk a && srcOk b
  | .fmul d a b => dstOk d && srcOk a && srcOk b
  | .ffma d a b => dstOk d && srcOk a && srcOk b
  | .fmin d a b => dstOk d && srcOk a && srcOk b
  | .fmax d a b => dstOk d && srcOk a && srcOk b
  | .fcmp c p a b => condOk 7 c && predOk p && srcOk a && srcOk b
  | .fclass d a => dstOk d && srcOk a
  | .frcp d a => dstOk d && srcOk a
  | .frsq d a => dstOk d && srcOk a
  | .fsqrt d a => dstOk d && srcOk a
  | .fexp2 d a => dstOk d && srcOk a
  | .flog2 d a => dstOk d && srcOk a
  | .fsin d a => dstOk d && srcOk a
  | .fcos d a => dstOk d && srcOk a
  | .ftanh d a => dstOk d && srcOk a
  | .hadd2 d a b => dstOk d && srcOk a && srcOk b
  | .hmul2 d a b => dstOk d && srcOk a && srcOk b
  | .hfma2 d a b => dstOk d && srcOk a && srcOk b
  | .hmin2 d a b => dstOk d && srcOk a && srcOk b
  | .hmax2 d a b => dstOk d && srcOk a && srcOk b
  | .dot4 d a b => dstOk d && srcOk a && srcOk b
  | .fdot2 d a b => dstOk d && srcOk a && srcOk b
  | .frnd d a => dstOk d && srcOk a
  | .cvtif d a => dstOk d && srcOk a
  | .cvtfi d a => dstOk d && srcOk a
  | .cvtfh d a b => dstOk d && srcOk a && srcOk b
  | .cvthf d a => runOk 2 d && srcOk a
  | .cvt8p d a => dstOk d && runOk 4 a
  | .cvt8u d a => runOk 4 d && srcOk a
  | .qswapx d a => dstOk d && srcOk a
  | .qswapy d a => dstOk d && srcOk a
  | .qswapd d a => dstOk d && srcOk a
  | .qbcast d a b => dstOk d && srcOk a && srcOk b
  | .shfl d a b => dstOk d && srcOk a && srcOk b
  | .shflup d a b => dstOk d && srcOk a && srcOk b
  | .shfldn d a b => dstOk d && srcOk a && srcOk b
  | .reorder b k _ _ => mainOk b && runOk 1 k
  | .ld8u d a _ => dataOk 1 d && addressOk a
  | .ld8s d a _ => dataOk 1 d && addressOk a
  | .ld16u d a _ => dataOk 1 d && addressOk a
  | .ld32 d a _ => dataOk 1 d && addressOk a
  | .ld64 d a _ => dataOk 2 d && addressOk a
  | .ld128 d a _ => dataOk 4 d && addressOk a
  | .st8 d a _ => srcOk d && addressOk a
  | .st16 d a _ => srcOk d && addressOk a
  | .st32 d a _ => srcOk d && addressOk a
  | .st64 d a _ => dataOk 2 d && addressOk a
  | .st128 d a _ => dataOk 4 d && addressOk a
  | .lcpy d a _ => srcOk d && addressOk a
  | .lds32 d a _ => dataOk 1 d && srcOk a
  | .lds64 d a _ => dataOk 2 d && srcOk a
  | .lds128 d a _ => dataOk 4 d && srcOk a
  | .sts32 d a _ => srcOk d && srcOk a
  | .sts64 d a _ => dataOk 2 d && srcOk a
  | .sts128 d a _ => dataOk 4 d && srcOk a
  | .atadd d a b => dataOk 1 d && addressOk a && srcOk b
  | .atfadd d a b => dataOk 1 d && addressOk a && srcOk b
  | .atmin d a b => dataOk 1 d && addressOk a && srcOk b
  | .atmax d a b => dataOk 1 d && addressOk a && srcOk b
  | .atand d a b => dataOk 1 d && addressOk a && srcOk b
  | .ator d a b => dataOk 1 d && addressOk a && srcOk b
  | .atxor d a b => dataOk 1 d && addressOk a && srcOk b
  | .atxchg d a b => dataOk 1 d && addressOk a && srcOk b
  | .atcas d a b => dataOk 1 d && addressOk a && srcOk b
  | .atinc d a b => dataOk 1 d && addressOk a && srcOk b
  | .redadd a b => addressOk a && srcOk b
  | .redfadd a b => addressOk a && srcOk b
  | .redmin a b => addressOk a && srcOk b
  | .redmax a b => addressOk a && srcOk b
  | .mma y _ a b => typeOk y && fragmentOk a && fragmentOk b
  | .accrd r _ _ => fragmentOk r || operandRunOk r
  | .accwr r _ _ => fragmentOk r || operandRunOk r
  | .neval d a h => mainOk d && mainOk a && srcOk h
  | .tex d c _ => mainOk d && mainOk c
  | .splat r _ => fragmentOk r
  | .sumq _ v => srcOk v
  | .sumh _ v => srcOk v
  | .sumd _ v => srcOk v
  | .clause _ a b _ => flagsOk a b
  | .pfx _ _ _ r _ _ _ _ => roundOk r
  | .pfxi _ => true
  | .rep _ _ _ _ => true
  | .nop => true
  | .bra _ => true
  | .brc _ _ _ => true
  | .brp _ _ _ => true
  | .call _ => true
  | .ret => true
  | .fork _ _ => true
  | .fdone => true
  | .join _ => true
  | .yield => true
  | .waitf _ => true
  | .exit => true
  | .sadd _ _ _ => true
  | .ssub _ _ _ => true
  | .smul _ _ _ => true
  | .smulh _ _ _ _ => true
  | .sand _ _ _ => true
  | .sor _ _ _ => true
  | .sxor _ _ _ => true
  | .sshl _ _ _ => true
  | .sshlImm _ _ _ => true
  | .sshr _ _ _ => true
  | .sshrImm _ _ _ => true
  | .ssar _ _ _ => true
  | .ssarImm _ _ _ => true
  | .smin _ _ _ _ => true
  | .smax _ _ _ _ => true
  | .scmp _ _ _ _ c => decide (c.toNat ≤ 5)
  | .ssel _ _ _ _ => true
  | .spopc _ _ => true
  | .sclz _ _ => true
  | .smov _ _ => true
  | .smovi _ _ => true
  | .smovh _ _ => true
  | .saddi _ _ => true
  | .sadd64 d a b => evenOk d && evenOk a && evenOk b
  | .sballot p a => predOk p && evenOk a
  | .sballotToS d _ => evenOk d
  | .pand d _ _ => predOk d
  | .por d _ _ => predOk d
  | .pxor d _ _ => predOk d
  | .pnot d _ => predOk d
  | .rdlane _ _ v => vregKindOk v
  | .wrlane _ _ v => vregKindOk v
  | .sld d a _ z _ => sizeOk z && evenOk a && decide (d.toNat % 2 ^ z.toNat = 0)
  | .sst d a _ z _ => sizeOk z && evenOk a && decide (d.toNat % 2 ^ z.toNat = 0)
  | .satom _ a _ _ p => decide (p.toNat ≤ 11) && evenOk a
  | .fence f => decide (f ≠ 0)
  | .icinv a _ => evenOk a
  | .isync => true
  | .cwb a _ => evenOk a
  | .cwbAll => true
  | .pref a _ => evenOk a
  | .prefHome a _ => evenOk a
  | .pcopy t d k f => decide (d.toNat % 8 = 0) && flagOk f && (decide (k = 1) || decide (t = 0))
  | .ptile t d k f => decide (d.toNat % 8 = 0) && flagOk f && (decide (k = 1) || decide (t = 0))
  | .pstore t d k f => decide (d.toNat % 8 = 0) && flagOk f && (decide (k = 1) || decide (t = 0))
  | .pgath t d k f => decide (d.toNat % 8 = 0) && flagOk f && (decide (k = 1) || decide (t = 0))
  | .pscat t d k f => decide (d.toNat % 8 = 0) && flagOk f && (decide (k = 1) || decide (t = 0))
  | .pfill t d k f => decide (d.toNat % 8 = 0) && flagOk f && (decide (k = 1) || decide (t = 0))
  | .mloop d f => decide (d.toNat ≤ 61) && flagOk f
  | .accz _ => true
  | .accld _ _ f => flagOk f
  | .accst _ _ f => flagOk f
  | .mlink l n => levelOk l n
  | .barr _ l n => levelOk l n
  | .barw _ l n => levelOk l n
  | .barrw l n => levelOk l n
  | .barq _ l n => levelOk l n
  | .spinh a => evenOk a
  | .suminit k a f => decide (k ≠ 0) && evenOk a && flagOk f
  | .summerge a b f => evenOk a && evenOk b && flagOk f
  | .sumrd _ a _ q => queryOk q && evenOk a
  | .nbind _ a => evenOk a
  | .nbindRel _ _ => true
  | .spflush _ a f => evenOk a && flagOk f
  | .sptile d a => evenOk a && decide (d.toNat % 4 = 0)
  | .cstart _ a f => evenOk a && flagOk f
  | .carm _ _ _ => true
  | .cquery _ _ _ => true
  | .cqueryState _ _ => true
  | .trap _ => true
  | .rdsr _ _ => true
  | .wrsr _ _ => true
  | .rdtime d => evenOk d
  | .rng _ => true
  | .region => true
  | .launch _ a _ f => evenOk a && decide (f.toNat ≤ 12)
  | .fibreWaitMet _ _ => true
  | .fibreDue _ _ => true
  | .abortedFibreResume _ _ => true
  | .trapDelivery _ _ => true
  | .loadReturn _ => true
  | .ldsReturn _ => true
  | .lcpyComplete _ => true
  | .atomicReturn _ => true
  | .sldReturn _ => true
  | .homeFill _ _ => true
  | .fillInstall _ => true
  | .leaseExpiry core _ => decide (core < 3456)
  | .homeWriteApply _ => true
  | .writeAck _ => true
  | .l1Eviction core _ => decide (core < 3456)
  | .updateOnlyGrant _ => true
  | .partialFold _ => true
  | .recallReply _ => true
  | .pageWalk core _ _ => decide (core < 3456)
  | .stagingDone _ => true
  | .evictionDone _ => true
  | .collapseDone _ => true
  | .migrationBegin _ _ die _ => decide (die < 36)
  | .migrationDone _ => true
  | .uncorrectableError _ => true
  | .hotnessHalve die => decide (die < 36)
  | .porterStart _ => true
  | .porterComplete _ => true
  | .mmaComplete _ _ => true
  | .accrdComplete _ _ => true
  | .accMoveComplete _ _ => true
  | .mloopStart _ _ => true
  | .mloopComplete _ _ => true
  | .barrierRelease _ => true
  | .summaryStep _ _ => true
  | .summaryComplete _ _ => true
  | .sumrdResult _ _ => true
  | .holdRecall _ => true
  | .nbindResolve _ _ => true
  | .caravanLanePlace _ => true
  | .caravanWindowExpiry _ => true
  | .caravanTileDone _ => true
  | .nevalComplete _ => true
  | .texComplete _ => true
  | .splatSubmit _ => true
  | .splatComplete _ => true
  | .waystationFile _ => true
  | .flushRequest _ die => decide (die < 36)
  | .flushListsForward _ => true
  | .tileComposite _ _ => true
  | .spflushComplete _ => true
  | .launchAppend _ => true
  | .courierSetup _ => true
  | .courierProgramBegin _ => true
  | .cstepSend _ rank _ => decide (rank < 36)
  | .cstepRecv _ rank _ => decide (rank < 36)
  | .cstepRred _ rank _ => decide (rank < 36)
  | .cstepRacc _ rank _ => decide (rank < 36)
  | .cstepCopy _ rank _ => decide (rank < 36)
  | .cstepWait _ rank _ => decide (rank < 36)
  | .cstepLoop _ rank _ => decide (rank < 36)
  | .cstepNext _ rank _ => decide (rank < 36)
  | .cstepArm _ rank _ => decide (rank < 36)
  | .cstepSig _ rank _ => decide (rank < 36)
  | .cstepHalt _ rank _ => decide (rank < 36)
  | .courierDelivery _ => true
  | .courierFailure _ rank _ _ => decide (rank < 36)
  | .courierProgramEnd _ => true
  | .gangPlace _ => true
  | .groupRetire _ => true
  | .groupSave _ => true
  | .groupRestore _ => true
  | .drainTokenReturn die _ _ => decide (die < 36)
  | .starvIssue _ => true
  | .starvRestore _ => true
  | .spinhTimeout _ _ => true
  | .watchdogExpiry _ => true
  | .watchdogFinal _ => true
  | .kernelRecordRead _ => true
  | .kernelRelease _ => true
  | .kernelStaged _ => true
  | .stagingTimeout _ => true
  | .kernelComplete _ => true
  | .doorbell _ _ _ => true
  | .acceptReread _ _ => true
  | .staleKick _ _ => true
  | .packetAccept _ _ => true
  | .pktLaunch _ _ _ => true
  | .pktCopy _ _ _ => true
  | .pktWait _ _ _ => true
  | .pktWaitReread _ _ _ => true
  | .pktSignal _ _ _ => true
  | .pktStage _ _ _ => true
  | .pktInvalidate _ _ _ => true
  | .pktResync _ _ _ => true
  | .pktNop _ _ _ => true
  | .packetEnd _ _ _ => true
  | .pcreate _ _ _ _ _ _ => true
  | .pdestroy _ _ => true
  | .ccreate _ _ _ => true
  | .cupdate _ _ _ _ => true
  | .crun _ _ _ => true
  | .csave _ _ _ => true
  | .crestore _ _ _ => true
  | .cdestroy _ _ _ => true
  | .logread _ die _ => decide (die < 36)
  | .mailboxUnknownCode _ _ => true
  | .registerWrite _ _ => true
  | .partFail part => part.inPanel
  | .getVersion link => decide (link < 4)
  | .getCapabilities link => decide (link < 4)
  | .negotiateAlgorithms link _ => decide (link < 4)
  | .getDigests link => decide (link < 4)
  | .getCertificate link _ => decide (link < 4)
  | .challenge link _ => decide (link < 4)
  | .getMeasurements link _ _ => decide (link < 4)
  | .keyExchange link _ => decide (link < 4)
  | .finish link _ => decide (link < 4)
  | .endSession link => decide (link < 4)
  | .heartbeat link => decide (link < 4)
  | .setkey link _ _ _ => decide (link < 4)
  | .getnonce link _ => decide (link < 4)
  | .pkeys link _ _ _ => decide (link < 4)
  | .ppinst link _ _ => decide (link < 4)
  | .ppdel link _ => decide (link < 4)
  | .passportExpiry _ => true
  | .lockInterface link _ => decide (link < 4)
  | .startInterface link _ => decide (link < 4)
  | .stopInterface link _ => decide (link < 4)
  | .getDeviceInterfaceReport link _ => decide (link < 4)
  | .ideKm link _ _ => decide (link < 4)
  | .tlpOutsideIdeStream _ => true
  | .timeExchange die => decide (die < 36)
  | .timeReply die => decide (die < 36)
  | .timeCorrection die => decide (die < 36)
  | .timeExchangeRetry die _ => decide (die < 36)
  | .flitReceive bnd dir flit => decide (bnd < 60) && decide (dir < 2) && decide (flit.payload.length = 250)
  | .replayRequest bnd dir _ => decide (bnd < 60) && decide (dir < 2)
  | .trainingComplete bnd _ => decide (bnd < 60)
  | .trainingTimeout bnd => decide (bnd < 60)
  | .ethFrameReceive port frame => decide (port < 8) && decide (frame.data.length ≤ 8192)
  | .ethResendTimeout port => decide (port < 8)
  | .ethLinkLoss port => decide (port < 8)
  | .cxlSnoop _ => true
  | .hostLinkReset link => decide (link < 4)
  | .vfFlr _ => true
  | .pfFlr => true
  | .healthTestFail core => decide (core < 3456)
  | .healthTestPass core => decide (core < 3456)
  | .healthFailLog core => decide (core < 3456)
  | .powerEnRise => true
  | .powerEnFall => true
  | .resetNAssert => true
  | .thermalThrottle die => decide (die < 36)
  | .thermalShutdown die => decide (die < 36)
  | .undervoltage => true
  | .flitAcknowledge bnd dir _ => decide (bnd < 60) && decide (dir < 2)
  | .frameAcknowledge port _ => decide (port < 8)
  | .handOverAnnouncement die => decide (die < 36)
  | .barrierSidebandFailure bnd => decide (bnd < 60)
  | .transientFault part => part.inPanel
  | .scoreboardWriteComplete _ => true
  | .clearingComplete _ => true
  | .cqueryResult _ _ => true
  | .bringUpEnd _ _ => true

end Sys2Proof
end

