-- ==== Sys2Proof/Tests/Slice0.lean ====
section
/-! SUPPORT. Tests: words decoded from the specification's encodings, ill-formed terms refused, single steps on small
states, and for each statement states and operands that meet its hypotheses. -/

set_option Elab.async false

namespace Sys2Proof.Tests

open Sys2Proof Sys2Proof.Machine

/-! ## Small states -/

/-- One group of 64 lanes on die 0 with one fibre, which stands at a NOP and is issuing; its context has no range. -/
def sAt : State := { placeWord State.reset 0x84000000 with cur := some (0, 0), agenda := [], rangeTlb := [(0, 0, [])] }

/-- Its issuing fibre, read from a state. -/
def iAt (s : State) : Iss :=
  (issuing s).getD { gid := 0, fid := 0, g := placedGroup 0, f := placedFibre 0, k := placedKernel, b := placedBlock }

/-- That state with its group and its fibre changed. -/
def sWith (g : Group → Group) (f : Fibre → Fibre) : State :=
  { sAt with groups := sAt.groups.map fun e =>
      (e.1, g { e.2 with fibres := e.2.fibres.map fun x => (x.1, f x.2) }) }

/-- That state with a change of its fibre alone. -/
def sFib (f : Fibre → Fibre) : State := sWith id f

/-- Its kernel with a trap vector sampled. -/
def sTrap : State := { sAt with kernels := [(0, { placedKernel with sampled := [(0, 0x100), (1, 1)] })] }

/-- Its kernel with no trap vector. -/
def sNoTrap : State := { sAt with kernels := [(0, { placedKernel with sampled := [] })] }

/-- The prefixes of a chain with a PFX. -/
def pfxChain (c : LReg) (rnd : BitVec 3) (ty : BitVec 4) : Chain :=
  { start := 0x10000, rep := none, pfx := some (c, 0, 0, rnd, ty, 0, 0, 0), pfxi := none, done := 0, upto := none }

/-- A resident, writable, cacheable range over the whole address space, of scope 2, held by the core's TLB. -/
def wholeRange : RangeEntry :=
  { base := 0, limit := 0xFFFFFFFFFFFFFF, offset := 0, attr := BitVec.ofNat 64 (3 * 2 ^ 61 + 2 ^ 59 + 2 ^ 57 + 2 * 2 ^ 54) }

/-- A state with all of memory served, whose fibre holds the lanes `p0`, under the modifiers of a chain. -/
def sMemory (p0 : Mask) (c : Option Chain) : State :=
  { sFib (fun f => { f with p0 := p0, chain := c }) with rangeTlb := [(0, 0, [wholeRange])] }

/-- The same with lane 63 alone and no modifier. -/
def sMem : State := sMemory (1 <<< 63) none

/-! ## Hypotheses met: uniform and lane words -/

theorem wit_UniformWordsWriteTheirResults :
    (∃ s i w rs d x, Iss.plain s i ∧ scalarValue i w = some (rs, d, x) ∧ i.settled (fieldNums rs)) ∧
    (∃ s i w rs d x, Iss.plain s i ∧ pairValue s i w = some (rs, d, x) ∧ (∀ k ∈ rs, k.toNat % 2 = 0) ∧
      i.settled (fieldNums rs ++ (fieldNums rs).map (· + 1))) ∧
    (∃ s i w rs d x, Iss.plain s i ∧ predicateValue i w = some (rs, d, x) ∧ d ≠ 0 ∧ (∀ k ∈ rs, k.toNat % 2 = 0) ∧
      i.settled (fieldNums rs ++ (fieldNums rs).map (· + 1))) ∧
    (∃ s i d a v, Iss.plain s i ∧ laneRegReady i.g v ∧ i.settled (fieldNums [d, a])) :=
  ⟨⟨sAt, iAt sAt, .ssar 63 0 63, [63, 0, 63], 63, 0, by unfold Iss.plain Iss.quiet Iss.settled; decide +kernel⟩,
   ⟨sAt, iAt sAt, .sadd64 62 0 62, [62, 0, 62], 62, 0, by unfold Iss.plain Iss.quiet Iss.settled; decide +kernel⟩,
   ⟨sAt, iAt sAt, .pnot 7 0, [], 7, 0, by unfold Iss.plain Iss.quiet Iss.settled; decide +kernel⟩,
   ⟨sAt, iAt sAt, 63, 62, .v 191, by unfold Iss.plain Iss.quiet Iss.settled laneRegReady; decide +kernel⟩⟩

theorem wit_BranchMovesTheWholeFibre :
    ∃ s i w t, Iss.plain s i ∧ branchTo i w = some t ∧ (∀ r n o, w = .brc r n o → i.settled [r.toNat]) :=
  ⟨sAt, iAt sAt, .bra 0x800000, some (0xFFFFFFFFFE010004, [0x10000]), by unfold Iss.plain Iss.quiet; decide +kernel,
    by decide +kernel, by intro r n o h; cases h⟩

theorem wit_IntegerLaneWordWritesItsResult :
    ∃ s i m w r, Iss.modified s i m ∧ debugOn s i.k.ctx 0 = false ∧ integerRow m w = some r ∧ r.ready i m :=
  ⟨sAt, iAt sAt, Mods.plain, .iadd (.v 191) (.v 0) (.o 15), (integerRow Mods.plain (.iadd (.v 191) (.v 0) (.o 15))).get rfl,
    by unfold Iss.modified Iss.quiet; decide +kernel, by decide +kernel, rfl, by unfold LaneRow.ready; decide +kernel⟩

theorem wit_FloatLaneWordsWriteTheirResults :
    (∃ s i m w r, Iss.modified s i m ∧ debugOn s i.k.ctx 0 = false ∧ floatRowOf m w = some r ∧ r.ready i m) ∧
    (∃ s i m w r, Iss.modified s i m ∧ debugOn s i.k.ctx 0 = false ∧ packedRow m w = some r ∧ r.ready i m) :=
  let s := sFib fun f => { f with chain := some (pfxChain (.s 31) 4 1) }
  let t := sFib fun f => { f with chain := some (pfxChain (.v 3) 1 3) }
  ⟨⟨s, iAt s, modsOf (some (pfxChain (.s 31) 4 1)), .ffma (.v 0) (.v 0) .lid,
    (floatRowOf (modsOf (some (pfxChain (.s 31) 4 1))) (.ffma (.v 0) (.v 0) .lid)).get rfl,
    by unfold Iss.modified Iss.quiet; decide +kernel, by decide +kernel, rfl, by unfold LaneRow.ready; decide +kernel⟩,
   ⟨t, iAt t, modsOf (some (pfxChain (.v 3) 1 3)), .hfma2 (.v 0) (.v 0) (.l 3),
    (packedRow (modsOf (some (pfxChain (.v 3) 1 3))) (.hfma2 (.v 0) (.v 0) (.l 3))).get rfl,
    by unfold Iss.modified Iss.quiet; decide +kernel, by decide +kernel, rfl, by unfold LaneRow.ready; decide +kernel⟩⟩

theorem wit_CompareWordWritesItsPredicate :
    ∃ s i m w c p a b f, Iss.modified s i m ∧ debugOn s i.k.ctx 0 = false ∧ compares w = some (c, p, a, b, f) ∧ p ≠ 0 ∧
      m.common = true ∧ m.sat = false ∧ m.c = .zero ∧ (m.ty = 0 ∨ (m.ty = 1 ∧ ∃ c p a b, w = .fcmp c p a b)) ∧
      (m.imm ≠ none → b = .v 0) ∧
      (∀ x ∈ [(Use.src, a), (if m.imm = none then Use.src else Use.imm, b)],
        useOk i.g.window x.1 x.2 = true ∧ isQueue x.2 = false) ∧
      onBoard i.g [(Use.src, a), (if m.imm = none then Use.src else Use.imm, b)] = false ∧
      pendingS i.g (sCodes [(Use.src, a), (if m.imm = none then Use.src else Use.imm, b)]) = none :=
  ⟨sAt, iAt sAt, Mods.plain, .icmp 5 7 (.v 191) .qid, 5, 7, .v 191, .qid, scalarCondition false 5,
    by unfold Iss.modified Iss.quiet; decide +kernel, by decide +kernel, rfl, by decide, by decide, by decide, by decide,
    .inl rfl, by decide, by decide +kernel, by decide +kernel, by decide +kernel⟩

theorem wit_MovementWordsMoveLanes :
    (∃ s i m w d a b bu σ, Iss.modified s i m ∧ movement w = some (d, a, b, bu, σ) ∧
      m.common = true ∧ m.ty = 0 ∧ m.sat = false ∧ m.c = .zero ∧ (m.imm = none ∨ (bu = .src ∧ b = .v 0)) ∧
      (⟨d, .dst, a, .src, b, if m.imm.isSome then .imm else bu, .unused, fun x _ _ => x⟩ : LaneRow).ready i m) ∧
    (∃ (s : State) (i : Iss) (m : Mods) (base : Fin 192) (k : LReg) (cnt : BitVec 6), Iss.modified s i m ∧
      Table.wf i.g.v 0 = true ∧ Table.wf i.g.o 0 = true ∧ m.common = true ∧ m.ty = 0 ∧
      m.sat = false ∧ m.mz = false ∧ m.imm = none ∧ m.c = .zero ∧ base.val + cnt.toNat < i.g.window ∧
      (match k with
        | .v n => n.val < i.g.window ∧ (n.val < base.val ∨ base.val + cnt.toNat < n.val)
        | .o _ => True
        | _ => False) ∧ onBoard i.g [(.vOnly (cnt.toNat + 1), .v base), (.src, k)] = false) ∧
    (∃ (s : State) (i : Iss) (m : Mods) (k : LReg) (cnt : BitVec 6), Iss.modified s i m ∧ m.mz = false ∧ m.ty = 0 ∧
      m.sat = false ∧ m.imm = none ∧ m.c = .zero ∧ isQueue k = false ∧ ∃ v w : Fin 192, k = .v w ∧ v.val ≤ w.val ∧
        w.val ≤ v.val + cnt.toNat ∧ v.val + cnt.toNat < i.g.window) ∧
    (∃ (i : Iss) (x : Word), (field x 24 8).toNat = 0x4F ∧ x.getLsbD 7 = true ∧ queueBarred i.k x = false) :=
  ⟨⟨sAt, iAt sAt, Mods.plain, .shflup (.v 0) (.v 1) (.s 31), .v 0, .v 1, .s 31, _, _,
    by unfold Iss.modified Iss.quiet; decide +kernel, rfl, by decide, by decide, by decide, by decide,
    .inl rfl, by unfold LaneRow.ready; decide +kernel⟩,
   ⟨sAt, iAt sAt, Mods.plain, 128, .v 127, 63, by unfold Iss.modified Iss.quiet; decide +kernel⟩,
   ⟨sAt, iAt sAt, Mods.plain, .v 191, 63, by unfold Iss.modified Iss.quiet; decide +kernel, by decide, by decide, by decide,
      by decide, by decide, by decide, 128, 191, by decide +kernel⟩,
   ⟨iAt sAt, 0x4F000A81, by decide +kernel⟩⟩

theorem wit_PrefixAndQuietWordsPass :
    (∃ s i w, issuing s = some i ∧ isPrefixWord w = true ∧ (addPrefix i.prefixes w).isSome = true) ∧
    (∃ s i w, issuing s = some i ∧ isPrefixWord w = true ∧ addPrefix i.prefixes w = none) ∧
    (∃ s i, Iss.plain s i ∧ ∃ m : BitVec 12, (∀ j : Nat, j < 12 → m.getLsbD j = true → Table.rd i.g.flags 0 (j + 1) = 0) ∧
      ∀ o ∈ i.f.owed, m.getLsbD (o.flag - 1) = false) ∧
    (∃ s i, ∃ (m : BitVec 12) (j : Nat), Iss.plain s i ∧ j < 12 ∧ m.getLsbD j = true ∧ Table.rd i.g.flags 0 (j + 1) ≠ 0) :=
  let s := sFib fun f => { f with chain := some (pfxChain .zero 0 0) }
  let t := sWith (fun g => { g with flags := [(12, 1)] }) id
  ⟨⟨sAt, iAt sAt, .rep 63 4 3 7, by decide +kernel⟩, ⟨s, iAt s, .rep 0 0 0 0, by decide +kernel⟩,
   ⟨sAt, iAt sAt, by unfold Iss.plain Iss.quiet; decide +kernel, 0xFFF, by decide +kernel⟩,
   ⟨t, iAt t, 0x800, 11, by unfold Iss.plain Iss.quiet; decide +kernel⟩⟩

theorem wit_DivisionAndForkDivideTheFibre :
    (∃ s i p, Iss.plain s i ∧ i.f.buffer = [] ∧ Table.look i.g.fibres i.g.nextFibre = none ∧ (i.split p).1 ≠ 0 ∧
      (i.split p).2 ≠ 0) ∧
    (∃ s i p, Iss.plain s i ∧ i.f.buffer = [] ∧ Table.look i.g.fibres i.g.nextFibre = none ∧ (i.split p).1 ≠ 0 ∧
      (i.split p).2 = 0) ∧
    (∃ s i p, Iss.plain s i ∧ (i.split p).1 = 0) :=
  let s := sWith (fun g => { g with p := [(7, 1)] }) id
  ⟨⟨s, iAt s, 7, by unfold Iss.plain Iss.quiet; decide +kernel⟩, ⟨s, iAt s, 0, by unfold Iss.plain Iss.quiet; decide +kernel⟩,
   ⟨s, iAt s, 1, by unfold Iss.plain Iss.quiet; decide +kernel⟩⟩

theorem wit_BadFieldsRaiseTheIllegalTrap :
    (∃ s i w, Iss.plain s i ∧ badUniformFields i w = true) ∧
    (∃ s i m w, Iss.modified s i m ∧ isRowWord w = true ∧ m.imm = none ∧ useOk i.g.window .dst (rowFields w).1 = false ∧
      m.ty ≤ 1) ∧
    (∃ s i m w, Iss.modified s i m ∧ isRowWord w = true ∧ m.imm = none ∧ 5 < m.rnd) :=
  let s := sWith (fun g => { g with window := 40 }) id
  let t := sFib fun f => { f with chain := some (pfxChain .zero 6 0) }
  ⟨⟨sAt, iAt sAt, .scmp 0 0 0 0 6, by unfold Iss.plain Iss.quiet; decide +kernel⟩,
   ⟨s, iAt s, Mods.plain, .iadd (.v 40) .zero .zero, by unfold Iss.modified Iss.quiet; decide +kernel⟩,
   ⟨t, iAt t, modsOf (some (pfxChain .zero 6 0)), .iadd .zero .zero .zero, by unfold Iss.modified Iss.quiet; decide +kernel⟩⟩

/-! ## Traps, ends, barriers, clauses -/

theorem wit_TrapsEnterTheHandlerOrFaultTheContext :
    (∃ s i, Iss.plain s i ∧ i.freeToTrap ∧ (4 : Nat) ≠ 0x0A) ∧
    (∃ (s : State) (i : Iss) (c : Context), issuing s = some i ∧ i.tvec = 0 ∧ (1 : Nat) ≠ 0x0A ∧ i.f.buffer = [] ∧
      (∀ e ∈ i.g.fibres, e.2.handler = none ∧ e.2.traps = []) ∧
      Table.look s.contexts i.k.ctx = some c ∧ c.state = .running) :=
  ⟨⟨sTrap, iAt sTrap, by unfold Iss.plain Iss.quiet Iss.freeToTrap; decide +kernel⟩,
   ⟨sNoTrap, iAt sNoTrap, placedContext, by decide +kernel⟩⟩

theorem wit_RetResumesAtTheTrap :
    ∃ (s : State) (i : Iss), issuing s = some i ∧ i.f.chain = none ∧ i.f.handler = some i.f.stack.length ∧
      i.f.doomed = false ∧ i.f.traps = [] :=
  let s := sFib fun f => { f with handler := some 1 }
  ⟨s, iAt s, by decide +kernel⟩

theorem wit_FibreEndsParksOrJoins :
    ∃ (s : State) (i : Iss), issuing s = some i ∧ i.f.chain = none ∧ i.f.buffer = [] ∧ i.f.owed = [] ∧
      i.g.fibres = [(i.fid, i.f)] ∧ i.f.state = .ready ∧ i.f.p0 ≠ 0 ∧ s.barriers = [] :=
  ⟨sAt, iAt sAt, by decide +kernel⟩

/-- A barrier instance of the kernel at rest. -/
def idleBarrier (level num : Nat) : Barrier :=
  { kernel := 0, level, num, container := 0, gen := false, state := .idle, covered := [], held := [], came := [], linked := [], sent := [] }

theorem wit_BarrierWordsArriveWaitAndQuery :
    (∃ (s : State) (i : Iss) (l : BitVec 2) (n : BitVec 4) (b : Barrier), i.plain s ∧ i.mayArrive s l n ∧ i.admitted s l n b ∧
      i.settled [63]) ∧
    (∃ (s : State) (i : Iss) (a : BitVec 6) (l : BitVec 2) (n : BitVec 4) (b : Barrier), i.plain s ∧
      barrierOk i.k i.g l.toNat n.toNat = true ∧ i.settled [a.toNat] ∧
      Table.look (i.barrier s l n).2.barriers (i.barrier s l n).1 = some b) :=
  ⟨⟨sAt, iAt sAt, 1, 15, idleBarrier 1 15,
      by unfold Iss.plain Iss.quiet Iss.mayArrive Iss.admitted Iss.settled; decide +kernel⟩,
   ⟨sAt, iAt sAt, 63, 0, 3, idleBarrier 0 3, by unfold Iss.plain Iss.quiet Iss.settled; decide +kernel⟩⟩

/-- A state whose fibre stands at a CLAUSE word, with the words after it fetched ahead. -/
def sClause : State := { placeWord State.reset 0x80000003 with cur := some (0, 0), agenda := [] }

theorem wit_ClauseWordOpensItsClause :
    ∃ (s s1 : State) (i : Iss) (w : BitVec 12) (a b l : BitVec 4) (ws : List (Option Word)),
      issuing s = some i ∧ i.f.clause = none ∧ i.f.chain = none ∧ i.f.state = .ready ∧ i.g.owed = [] ∧ i.f.owed = [] ∧
      (∀ j : Nat, j < 12 → w.getLsbD j = true → Table.rd i.g.flags 0 (j + 1) = 0) ∧
      (a.toNat ≤ 12 ∧ b.toNat ≤ 12 ∧ (b ≠ 0 → a ≠ 0 ∧ a ≠ b)) ∧
      fetchRest i.gid i.g i.k (l.toNat + 1) (i.f.pc.toNat + 4) s = (.ok ws, s1) ∧ clauseWordsOk ws = true ∧
      i.f.pc.toNat / 65536 = (i.f.pc.toNat + 4 * (l.toNat + 1)) / 65536 ∧ debugOn s1 i.k.ctx 1 = false ∧ i.quiet s1 :=
  ⟨sClause, (fetchRest 0 (iAt sClause).g (iAt sClause).k 2 0x10008 sClause).2, iAt sClause, 0xFFF, 12, 11, 1, [some 0, some 0],
    by unfold Iss.quiet; decide +kernel⟩

/-- A state whose fibre's region buffer holds one word's store. -/
def sBuffered : State := sFib fun f => { f with buffer := [{ entries := 1, writes := [.store 0x1000 [1, 2, 3, 4]] }] }

theorem wit_CommitAndCacheWordsComplete :
    (∃ (s : State) (i : Iss) (a b : BitVec 6), i.plain s ∧ bufferConflict s i.ck i.k.ctx i.g.block i.f = none ∧
      i.f.buffer ≠ [] ∧ a.toNat % 2 = 0 ∧ i.settled [a.toNat, a.toNat + 1, b.toNat]) ∧
    (∃ (s : State) (i : Iss), i.plain s ∧ bufferConflict s i.ck i.k.ctx i.g.block i.f = none ∧
      releasePending (commitNow s i.gid i.fid) i.gid i.fid 4 = false) :=
  ⟨⟨sBuffered, iAt sBuffered, 8, 63, by unfold Iss.plain Iss.quiet Iss.settled; decide +kernel⟩,
   ⟨sAt, iAt sAt, by unfold Iss.plain Iss.quiet; decide +kernel⟩⟩

/-! ## System registers, draws, ordering -/

theorem wit_SystemRegistersAreReadAndWritten :
    (∃ (s : State) (i : Iss) (c : Context) (d : BitVec 6) (n : BitVec 18) (x : Word), i.plain s ∧ i.settled [d.toNat] ∧
      Table.look s.contexts i.k.ctx = some c ∧ i.grants s n.toNat 2 ∧ (n.toNat, x) ∈ systemValues i c) ∧
    (∃ (s : State) (i : Iss) (c c' : Context) (d : BitVec 6) (n : BitVec 18), i.plain s ∧ i.settled [d.toNat] ∧
      Table.look s.contexts i.k.ctx = some c ∧ i.grants s n.toNat 2 ∧ (n.toNat, c') ∈ contextWrites c (i.g.readS d.toNat)) ∧
    (∃ (s : State) (i : Iss) (d : BitVec 6) (n : BitVec 18), i.plain s ∧ i.settled [d.toNat] ∧
      (∃ c, Table.look s.contexts i.k.ctx = some c) ∧ i.idle s n.toNat) ∧
    (∃ (s : State) (i : Iss) (d : BitVec 6) (n : BitVec 18), i.plain s ∧ i.settled [d.toNat] ∧ i.grants s n.toNat 0) ∧
    (∃ (s : State) (i : Iss) (d : BitVec 6) (n : BitVec 18), i.plain s ∧ i.settled [d.toNat] ∧ i.grants s n.toNat 1) ∧
    (∃ n : BitVec 18, (∀ p h, (n.toNat, p, h) ∉ directoryRows) ∧ n.toNat < 0x100) :=
  let h := sFib fun f => { f with handler := some 0 }
  ⟨⟨h, iAt h, placedContext, 63, 0x012, 0, by unfold Iss.plain Iss.quiet; decide +kernel, by unfold Iss.settled; decide +kernel,
      by decide +kernel, .inl ⟨1, 2, by decide, by decide +kernel⟩, by decide +kernel⟩,
   ⟨h, iAt h, placedContext, _, 63, 0x012, by unfold Iss.plain Iss.quiet; decide +kernel, by unfold Iss.settled; decide +kernel,
      by decide +kernel, .inl ⟨1, 2, by decide, by decide +kernel⟩, .tail _ (.tail _ (.head _))⟩,
   ⟨sAt, iAt sAt, 0, 0x1FF, by unfold Iss.plain Iss.quiet; decide +kernel, by unfold Iss.settled; decide +kernel,
      ⟨placedContext, by decide +kernel⟩, by decide, by decide, by intro p h k m; simp [debugRows] at m⟩,
   ⟨sAt, iAt sAt, 0, 0, by unfold Iss.plain Iss.quiet; decide +kernel, by unfold Iss.settled; decide +kernel,
      .inl ⟨0, 2, by decide, by decide +kernel⟩⟩,
   ⟨sAt, iAt sAt, 0, 0x014, by unfold Iss.plain Iss.quiet; decide +kernel, by unfold Iss.settled; decide +kernel,
      .inl ⟨1, 1, by decide, by decide +kernel⟩⟩,
   ⟨0x0FF, by intro p h m; simp [directoryRows] at m, by decide⟩⟩

theorem wit_RngMakesTwoDraws :
    (∃ (s : State) (i : Iss) (x : Die) (d : BitVec 6), i.plain s ∧ i.settled [d.toNat] ∧
      (i.k.sample 0x018).toNat % 4 = 0 ∧ drawsOwed i.g = false ∧ s.dies[i.g.die]? = some x ∧
      ∀ e ∈ x.healthFail, e.1 ≠ i.g.core) ∧
    (∃ (s : State) (i : Iss) (x : Die) (d : BitVec 6), i.plain s ∧ i.settled [d.toNat] ∧
      (i.k.sample 0x018).toNat % 4 = 0 ∧ drawsOwed i.g = false ∧ s.dies[i.g.die]? = some x ∧
      ∃ e ∈ x.healthFail, e.1 = i.g.core) :=
  let s : State := updDie sAt 0 fun d => { d with healthFail := [(0, 0, false)] }
  ⟨⟨sAt, iAt sAt, (sAt.dies[0]?).get (by decide +kernel), 63, by unfold Iss.plain Iss.quiet Iss.settled; decide +kernel⟩,
   ⟨s, iAt s, (s.dies[0]?).get (by decide +kernel), 0, by unfold Iss.plain Iss.quiet Iss.settled; decide +kernel⟩⟩

/-- A Porter command of the core that holds byte 0 of global memory for writing. -/
def aPorter : PorterCmd :=
  { op := .copy, gid := 0, fib := 0, core := 0, ctx := 0, block := 0, d := [], token := none, flag := 1
    ranges := [{ scratch := false, write := true, lo := 0, hi := 1 }], started := false, wct := 0, status := 0, info := 0
    failAddr := 0, coins := [], outl := 0, dup := none }

/-- A state whose fibre has buffered a store of byte 0, which that command holds. -/
def sConflict : State :=
  { sFib (fun f => { f with buffer := [{ entries := 1, writes := [.store 0 [1]] }] }) with porter := [(0, aPorter)] }

theorem wit_OrderingWordsPassOrTrap :
    (∃ (s : State) (i : Iss) (a b : BitVec 6), i.plain s ∧ i.f.buffer = [] ∧ releasePending s i.gid i.fid 4 = false ∧
      (∀ e ∈ s.l1, e.1 / 2 ^ 48 = i.ck → e.2.dirty = false ∨ e.2.ctx ≠ i.k.ctx) ∧ a.toNat % 2 = 0 ∧
      i.settled [a.toNat, a.toNat + 1, b.toNat] ∧
      i.nothingServed s (rangePieces (i.g.readPair a.toNat).toNat (i.g.readS b.toNat).toNat)) ∧
    (∃ (s : State) (i : Iss) (x : Nat), i.plain s ∧ bufferConflict s i.ck i.k.ctx i.g.block i.f = some x ∧
      debugOn s i.k.ctx 0 = false) :=
  let s := sWith (fun g => { g with s := [(63, 1)] }) id
  ⟨⟨s, iAt s, 62, 63, by unfold Iss.plain Iss.quiet; decide +kernel, by decide +kernel, by decide +kernel, by decide +kernel,
      by decide, by unfold Iss.settled; decide +kernel,
      by unfold Iss.nothingServed; decide +kernel⟩,
   ⟨sConflict, iAt sConflict, 0, by unfold Iss.plain Iss.quiet; decide +kernel⟩⟩

theorem wit_IcinvAndSpinhWait :
    (∃ (s : State) (i : Iss) (a b : BitVec 6), i.plain s ∧ a.toNat % 2 = 0 ∧ i.settled [a.toNat, a.toNat + 1, b.toNat]) ∧
    (∃ (s t : State) (i : Iss) (a : BitVec 6) (p : Pg), i.plain s ∧ a.toNat % 2 = 0 ∧ i.settled [a.toNat, a.toNat + 1] ∧
      translate s i.ck i.k.ctx (i.g.readPair a.toNat).toNat = (p, t) ∧ (i.g.readPair a.toNat).toNat % 4 = 0 ∧ p.st ≠ 3 ∧
      p.st ≠ 4 ∧ p.st ≠ 6) ∧
    (∃ (s t : State) (i : Iss) (a : BitVec 6) (p : Pg), i.plain s ∧ a.toNat % 2 = 0 ∧ i.settled [a.toNat, a.toNat + 1] ∧
      translate s i.ck i.k.ctx (i.g.readPair a.toNat).toNat = (p, t) ∧ (i.g.readPair a.toNat).toNat % 4 = 0 ∧ p.st = 3) ∧
    (∃ (s : State) (i : Iss) (a : BitVec 6), i.plain s ∧ a.toNat % 2 = 0 ∧ i.settled [a.toNat, a.toNat + 1] ∧
      (i.g.readPair a.toNat).toNat % 4 ≠ 0) :=
  let u := sWith (fun g => { g with s := [(62, 3)] }) id
  ⟨⟨sAt, iAt sAt, 62, 63, by unfold Iss.plain Iss.quiet Iss.settled; decide +kernel⟩,
   ⟨sAt, (translate sAt 0 0 0).2, iAt sAt, 62, (translate sAt 0 0 0).1, by unfold Iss.plain Iss.quiet Iss.settled; decide +kernel⟩,
   ⟨sMem, (translate sMem 0 0 0).2, iAt sMem, 62, (translate sMem 0 0 0).1, by unfold Iss.plain Iss.quiet Iss.settled; decide +kernel⟩,
   ⟨u, iAt u, 62, by unfold Iss.plain Iss.quiet Iss.settled; decide +kernel⟩⟩
/-! ## Memory words -/

/-- The modifiers of a chain that only orders (04 R92). -/
def ordChain (o : BitVec 2) : Chain :=
  { start := 0x10000, rep := none, pfx := some (.zero, 0, 0, 0, 0, 0, o, 0), pfxi := none, done := 0, upto := none }

/-- The page that serves address 0. -/
def pAt (s : State) : Pg := (translate s 0 0 0).1

theorem wit_LaneLoadsAreTaken :
    (∃ (s : State) (i : Iss) (m : Mods) (w : Instr) (d a : LReg) (f : BitVec 8) (size : Nat) (sg : Bool) (fl : Nat) (P : Nat → Pg),
      i.modified s m ∧ loadRow w = some (d, a, f, size, sg) ∧ m.memory [0, 1] f ∧ i.countsOn m fl ∧ i.f.buffer = [] ∧
      i.fieldsReady [(.voz (max 1 (size / 4)), d), (.address, a), (.unused, m.c)] ∧ i.act m &&& i.g.helpers = 0 ∧
      i.memoryLanes m = [63] ∧ i.globalAddress m a f size 63 % size = 0 ∧
      i.unlocked s false false (i.globalAddress m a f size 63) size ∧ i.reaches s false (i.globalAddress m a f size 63) (P 63)) ∧
    (∃ (s : State) (i : Iss) (m : Mods) (w : Instr) (d a : LReg) (f : BitVec 8) (size fl : Nat),
      i.modified s m ∧ scratchLoadRow w = some (d, a, f, size) ∧ m.memory [0] f ∧ i.countsOn m fl ∧
      i.fieldsReady [(.voz (size / 4), d), (.src, a), (.unused, m.c)] ∧ i.act m &&& i.g.helpers = 0 ∧
      i.memoryLanes m = [63] ∧ ∀ l ∈ i.memoryLanes m, i.scratchOffset m a f size l % size = 0 ∧
        i.unlocked s true false (i.scratchOffset m a f size l) size) ∧
    (∃ (s : State) (i : Iss) (m : Mods) (d a : LReg) (f : BitVec 8) (fl : Nat) (P : Nat → Pg),
      i.modified s m ∧ m.memory [0] f ∧ i.countsOn m fl ∧ i.fieldsReady [(.src, d), (.address, a), (.src, m.c)] ∧
      i.memoryLanes m = [63] ∧ (∀ l ∈ i.memoryLanes m, (readReg i.g i.f d l).toNat % 32 = 0) ∧
      ((i.memoryLanes m).filter fun l => decide ((readReg i.g i.f d l).toNat + 32 ≤ i.b.size)) = [63] ∧
      i.unlocked s false false (i.globalAddress m a f 32 63) (min (readReg i.g i.f m.c 63).toNat 32) ∧
      i.unlocked s true true (readReg i.g i.f d 63).toNat 32 ∧ i.reaches s false (i.globalAddress m a f 32 63) (P 63) ∧
      i.globalAddress m a f 32 63 / 128 = (i.globalAddress m a f 32 63 + 31) / 128) :=
  let s := sMemory (1 <<< 63) (some (ordChain 1))
  ⟨⟨s, iAt s, modsOf (some (ordChain 1)), .ld128 (.v 188) (.v 190) 127, .v 188, .v 190, 127, 16, false, 1, fun _ => pAt s,
      by unfold Iss.modified Iss.quiet; decide +kernel, rfl, by unfold Mods.memory; decide +kernel,
      ⟨{ start := 0x10000, flagA := 1, flagB := 2, words := [some 0x84000000] }, by decide +kernel⟩, by decide +kernel,
      by unfold Iss.fieldsReady; decide +kernel, by decide +kernel, by decide +kernel,
      by decide +kernel, by unfold Iss.unlocked; decide +kernel, by unfold Iss.reaches; decide +kernel⟩,
   ⟨sMem, iAt sMem, Mods.plain, .lds128 .zero .zero 127, .zero, .zero, 127, 16, 1,
      by unfold Iss.modified Iss.quiet; decide +kernel, rfl, by unfold Mods.memory; decide +kernel,
      ⟨{ start := 0x10000, flagA := 1, flagB := 2, words := [some 0x84000000] }, by decide +kernel⟩,
      by unfold Iss.fieldsReady; decide +kernel, by decide +kernel, by decide +kernel,
      by unfold Iss.unlocked; decide +kernel⟩,
   ⟨sMem, iAt sMem, Mods.plain, .zero, .v 0, 0, 1, fun _ => pAt sMem,
      by unfold Iss.modified Iss.quiet; decide +kernel, by unfold Mods.memory; decide +kernel,
      ⟨{ start := 0x10000, flagA := 1, flagB := 2, words := [some 0x84000000] }, by decide +kernel⟩,
      by unfold Iss.fieldsReady; decide +kernel, by decide +kernel, by decide +kernel, by decide +kernel,
      by unfold Iss.unlocked; decide +kernel, by unfold Iss.unlocked; decide +kernel, by unfold Iss.reaches; decide +kernel,
      by decide +kernel⟩⟩

theorem wit_LaneStoresAreTaken :
    (∃ (s : State) (i : Iss) (m : Mods) (w : Instr) (d a : LReg) (f : BitVec 8) (size : Nat) (P : Nat → Pg),
      i.modified s m ∧ storeRow w = some (d, a, f, size) ∧ m.memory [0] f ∧ m.fb = false ∧
      i.fieldsReady [(if size ≤ 4 then .src else .voz (size / 4), d), (.address, a), (.unused, m.c)] ∧
      i.memoryLanes m = [63] ∧ i.globalAddress m a f size 63 % size = 0 ∧
      i.unlocked s false true (i.globalAddress m a f size 63) size ∧ i.reaches s true (i.globalAddress m a f size 63) (P 63)) ∧
    (∃ (s : State) (i : Iss), i.f.buffer.map (·.entries) = [48] ∧ segmentCount 16 [i.globalAddress Mods.plain (.v 0) 0 16 63] = 1 ∧
      issuing s = some i) ∧
    (∃ (s : State) (i : Iss) (m : Mods) (w : Instr) (d a : LReg) (f : BitVec 8) (size l : Nat) (p : Pg),
      i.modified s m ∧ storeRow w = some (d, a, f, size) ∧ m.memory [2] f ∧ m.fb = false ∧ i.f.buffer = [] ∧
      i.fieldsReady [(if size ≤ 4 then .src else .voz (size / 4), d), (.address, a), (.unused, m.c)] ∧ i.memoryLanes m = [l] ∧
      i.globalAddress m a f size l % size = 0 ∧ i.unlocked s false true (i.globalAddress m a f size l) size ∧
      i.reaches s true (i.globalAddress m a f size l) p ∧ 2 ≤ p.scope ∧
      translate s i.ck i.k.ctx (i.globalAddress m a f size l) = (p, s)) ∧
    (∃ (s : State) (i : Iss) (m : Mods) (w : Instr) (d a : LReg) (f : BitVec 8) (size : Nat),
      i.modified s m ∧ scratchStoreRow w = some (d, a, f, size) ∧ m.memory [0] f ∧ m.fb = false ∧
      i.fieldsReady [(if size ≤ 4 then .src else .voz (size / 4), d), (.src, a), (.unused, m.c)] ∧ i.memoryLanes m = [63] ∧
      ∀ l ∈ i.memoryLanes m, i.scratchOffset m a f size l % size = 0 ∧ i.unlocked s true true (i.scratchOffset m a f size l) size) :=
  let s := sMemory (1 <<< 63) (some (ordChain 2))
  let u := sFib fun f => { f with buffer := [{ entries := 48, writes := [.store 0 [1]] }] }
  ⟨⟨sMem, iAt sMem, Mods.plain, .st128 .zero (.o 14) 127, .zero, .o 14, 127, 16, fun _ =>
        (translate sMem 0 0 ((iAt sMem).globalAddress Mods.plain (.o 14) 127 16 63 / 65536 * 65536)).1,
      by unfold Iss.modified Iss.quiet; decide +kernel, rfl, by unfold Mods.memory; decide +kernel, rfl,
      by unfold Iss.fieldsReady; decide +kernel, by decide +kernel, by decide +kernel, by unfold Iss.unlocked; decide +kernel, by unfold Iss.reaches; decide +kernel⟩,
   ⟨u, iAt u, by decide +kernel⟩,
   ⟨s, iAt s, modsOf (some (ordChain 2)), .st8 (.v 0) (.v 0) 0, .v 0, .v 0, 0, 1, 63, pAt s,
      by unfold Iss.modified Iss.quiet; decide +kernel, rfl, by unfold Mods.memory; decide +kernel, rfl, by decide +kernel,
      by unfold Iss.fieldsReady; decide +kernel, by decide +kernel, by decide +kernel, by unfold Iss.unlocked; decide +kernel,
      by unfold Iss.reaches; decide +kernel, by decide +kernel, by decide +kernel⟩,
   ⟨sMem, iAt sMem, Mods.plain, .sts32 .lid .zero 0, .lid, .zero, 0, 4,
      by unfold Iss.modified Iss.quiet; decide +kernel, rfl, by unfold Mods.memory; decide +kernel, rfl,
      by unfold Iss.fieldsReady; decide +kernel, by unfold Iss.unlocked; decide +kernel⟩⟩

/-- Below system scope no host link matters to an atomic. -/
theorem reaches_low {s : State} {i : Iss} {va : Nat} {p : Pg} (h : i.reaches s true va p) (h2 : 2 ≤ p.scope) (h4 : p.scope ≠ 4) :
    i.reachesHome s va p := ⟨h, h2, fun e => absurd e h4⟩

theorem wit_AtomicsAndReductionsAreTaken :
    (∃ (s : State) (i : Iss) (m : Mods) (w : Instr) (d a b : LReg) (op : AtomOp) (cas : Bool) (fl : Nat) (P : Nat → Pg),
      i.modified s m ∧ atomicRow m.ty w = some (d, a, b, op, cas) ∧ m.atomic [0, 1, 2, 3] b ∧ i.countsOn m fl ∧
      i.f.buffer = [] ∧ releasePending s i.gid i.fid 4 = false ∧
      i.fieldsReady [(.voz (operandBytes m.ty / 4), d), (.address, a), (if m.imm.isSome then .imm else m.operandUse, b),
        (if cas then m.operandUse else .unused, m.c)] ∧ i.memoryLanes m = [63] ∧
      i.globalAddress { m with imm := none } a 0 1 63 % operandBytes m.ty = 0 ∧
      i.unlocked s false true (i.globalAddress { m with imm := none } a 0 1 63) (operandBytes m.ty) ∧
      i.reachesHome s (i.globalAddress { m with imm := none } a 0 1 63) (P 63)) ∧
    (∃ (s : State) (i : Iss) (m : Mods) (w : Instr) (a b : LReg) (op : AtomOp) (P : Nat → Pg),
      i.modified s m ∧ reductionRow m.ty w = some (a, b, op) ∧ m.atomic [0] b ∧ m.fb = false ∧
      i.fieldsReady [(.address, a), (if m.imm.isSome then .imm else m.operandUse, b), (.unused, m.c)] ∧ i.memoryLanes m = [63] ∧
      i.globalAddress { m with imm := none } a 0 1 63 % operandBytes m.ty = 0 ∧
      i.unlocked s false true (i.globalAddress { m with imm := none } a 0 1 63) (operandBytes m.ty) ∧
      i.reachesHome s (i.globalAddress { m with imm := none } a 0 1 63) (P 63)) :=
  let s := sMemory (1 <<< 63) (some (ordChain 3))
  ⟨⟨s, iAt s, modsOf (some (ordChain 3)), .atcas .zero (.v 0) (.s 31), .zero, .v 0, .s 31, .cas, true, 1, fun _ => pAt s,
      by unfold Iss.modified Iss.quiet; decide +kernel, rfl, by unfold Mods.atomic; decide +kernel,
      ⟨{ start := 0x10000, flagA := 1, flagB := 2, words := [some 0x84000000] }, by decide +kernel⟩, by decide +kernel,
      by decide +kernel, by unfold Iss.fieldsReady; decide +kernel, by decide +kernel,
      by decide +kernel, by unfold Iss.unlocked; decide +kernel, reaches_low (by unfold Iss.reaches; decide +kernel) (by decide +kernel) (by decide +kernel)⟩,
   ⟨sMem, iAt sMem, Mods.plain, .redmax (.s 30) .lid, .s 30, .lid, .smax, fun _ => pAt sMem,
      by unfold Iss.modified Iss.quiet; decide +kernel, rfl, by unfold Mods.atomic; decide +kernel, rfl,
      by unfold Iss.fieldsReady; decide +kernel, by decide +kernel,
      by decide +kernel, by unfold Iss.unlocked; decide +kernel, reaches_low (by unfold Iss.reaches; decide +kernel) (by decide +kernel) (by decide +kernel)⟩⟩

theorem wit_ScalarAccessGoesItsWay :
    ∃ (s : State) (i : Iss) (d a b : BitVec 6) (z : BitVec 2) (p : Pg), i.plain s ∧ i.f.buffer = [] ∧ a.toNat % 2 = 0 ∧
      z ≠ 3 ∧ d.toNat % 2 ^ z.toNat = 0 ∧
      i.settled ([a.toNat, a.toNat + 1, b.toNat] ++ (List.range (2 ^ z.toNat)).map (· + d.toNat)) ∧
      (i.g.readPair a.toNat + BitVec.ofNat 64 (b.toNat * (4 * 2 ^ z.toNat))).toNat = 0 ∧ (i.g.readPair a.toNat).toNat = 0 ∧
      i.unlocked s false true 0 16 ∧ i.reachesHome s 0 p ∧ i.reaches s false 0 p ∧
      releasePending s i.gid i.fid 4 = false :=
  ⟨sMem, iAt sMem, 60, 62, 0, 2, pAt sMem, by unfold Iss.plain Iss.quiet; decide +kernel, by decide +kernel, by decide,
    by decide, by decide, by unfold Iss.settled; decide +kernel, by decide +kernel, by decide +kernel,
    by unfold Iss.unlocked; decide +kernel, reaches_low (by unfold Iss.reaches; decide +kernel) (by decide +kernel) (by decide +kernel),
    by unfold Iss.reaches; decide +kernel, by decide +kernel⟩
/-! ## Words that start an engine -/

/-- The flags of the fibre's clause. -/
theorem counts_first (s : State) (m : Mods) (h : (iAt s).f.clause = some ⟨0x10000, 1, 2, [some 0x84000000]⟩)
    (hf : m.fb = false) (hg : Table.rd (iAt s).g.flags 0 1 < 127) : (iAt s).countsOn m 1 :=
  ⟨_, h, by simp [hf], by decide, hg⟩

theorem wit_PorterWordEntersItsCommand :
    (∃ (s : State) (i : Iss) (w : Instr) (op : PorterOp) (t d : BitVec 6) (k : BitVec 1) (f : BitVec 4) (b : Nat × Nat × Nat),
      i.plain s ∧ porterRow w = some (op, t, d, k, f) ∧ d.toNat % 8 = 0 ∧ i.flagRoom f ∧ (k = 1 ∨ t = 0) ∧ i.f.buffer = [] ∧
      i.settled ((List.range 8).map (d.toNat + ·) ++ if k = 1 then [t.toNat] else []) ∧
      firstBad (porterChecks op ((List.range 8).map fun j => i.g.readS (d.toNat + j)) i.b.size) = some b) ∧
    (∃ (s : State) (i : Iss) (w : Instr) (op : PorterOp) (t d : BitVec 6) (k : BitVec 1) (f : BitVec 4),
      i.plain s ∧ porterRow w = some (op, t, d, k, f) ∧ d.toNat % 8 = 0 ∧ i.flagRoom f ∧ (k = 1 ∨ t = 0) ∧ i.f.buffer = [] ∧
      i.settled ((List.range 8).map (d.toNat + ·) ++ if k = 1 then [t.toNat] else []) ∧
      firstBad (porterChecks op ((List.range 8).map fun j => i.g.readS (d.toNat + j)) i.b.size) = none ∧
      (s.porter.map fun e => if e.2.core = i.ck then e.2.ranges.length else 0).sum +
        (porterRanges op ((List.range 8).map fun j => i.g.readS (d.toNat + j))).length ≤ 256 ∧
      (i.k.sample 0x018).toNat % 4 = 0 ∧
      drawValues s i.k i.g (porterDraws op ((List.range 8).map fun j => i.g.readS (d.toNat + j))) = some []) :=
  let u := sWith (fun g => { g with s := [(59, 1)] }) id
  let v := sWith (fun g => { g with s := [(60, 65536), (61, 2)] }) id
  ⟨⟨u, iAt u, .pfill 63 56 1 12, .fill, 63, 56, 1, 12, (1, 3, 3), by unfold Iss.plain Iss.quiet; decide +kernel, rfl, by decide,
      by unfold Iss.flagRoom; decide +kernel, .inl rfl, by decide +kernel, by unfold Iss.settled; decide +kernel, by decide +kernel⟩,
   ⟨v, iAt v, .pfill 63 56 1 12, .fill, 63, 56, 1, 12, by unfold Iss.plain Iss.quiet; decide +kernel, rfl, by decide,
      by unfold Iss.flagRoom; decide +kernel, .inl rfl, by decide +kernel, by unfold Iss.settled; decide +kernel, by decide +kernel,
      by decide +kernel, by decide +kernel, by decide +kernel⟩⟩

/-- A state whose registers hold an MLOOP of BF16 operands. -/
def sLoop : State := sWith (fun g => { g with s := [(62, 0x00003000)] }) id

theorem wit_TileWordsJoinTheQueueOrWriteTiles :
    (∃ (s : State) (i : Iss) (m : Mods) (y t : BitVec 4) (a b : Fin 192) (ta tb : Nat), i.modified s m ∧ i.g.width = 64 ∧
      m.c = .zero ∧ m.mz = false ∧ (∀ o ∈ i.g.tileOps, (∀ x y z, o.kind ≠ .accwr x y z) ∧ o.kind ≠ .accz) ∧ m.engine [m.ty] ∧
      m.msel = 0 ∧ m.rnd = 0 ∧ i.countsOn m 1 ∧ operandType 3 m.ty = some ta ∧ operandType ta y.toNat = some tb ∧
      t.toNat < i.g.tiles ∧ i.fragment a (chunkSize ta).1 ∧ i.fragment b ((chunkSize tb).2 + (chunkSize tb).1)) ∧
    (∃ (s : State) (i : Iss) (m : Mods) (k : Fin 192) (t : BitVec 4), i.modified s m ∧ i.g.width = 64 ∧ m.engine [0, 1] ∧
      i.countsOn m 1 ∧ t.toNat < i.g.tiles ∧ i.fragment k 8) ∧
    (∃ (s : State) (i : Iss) (t : BitVec 4) (a : BitVec 6) (f : BitVec 4), i.modified s Mods.plain ∧ i.f.chain = none ∧
      i.flagRoom f ∧ t.toNat < i.g.tiles ∧ i.settled [a.toNat] ∧ (i.g.readS a.toNat).toNat % 256 = 0) ∧
    (∃ (s : State) (i : Iss) (d : BitVec 6) (f : BitVec 4), i.modified s Mods.plain ∧ i.f.chain = none ∧ i.g.width = 64 ∧
      i.flagRoom f ∧ d.toNat ≤ 61 ∧ i.settled [d.toNat, d.toNat + 1, d.toNat + 2] ∧
      loopOk i.g i.k (i.g.readS d.toNat) (i.g.readS (d.toNat + 1)) (i.g.readS (d.toNat + 2)) = true ∧ (loopsOf i.g).length < 4) ∧
    (∃ (s : State) (i : Iss) (t : BitVec 4) (k : Fin 192), i.modified s Mods.plain ∧ i.g.width = 64 ∧ i.g.tileOps = [] ∧
      t.toNat < i.g.tiles ∧ i.f.chain = none ∧ Mods.plain.engine [0, 1] ∧ i.fragment k 8) :=
  ⟨⟨sAt, iAt sAt, Mods.plain, 0, 15, 0, 160, 3, 3, by unfold Iss.modified Iss.quiet; decide +kernel, by decide +kernel, rfl, rfl,
      fun o h => absurd ((show (iAt sAt).g.tileOps = [] by decide +kernel) ▸ h) List.not_mem_nil,
      by unfold Mods.engine; decide +kernel, rfl, rfl, counts_first _ _ (by decide +kernel) rfl (by decide +kernel),
      rfl, rfl, by decide +kernel, by unfold Iss.fragment; decide +kernel, by unfold Iss.fragment; decide +kernel⟩,
   ⟨sAt, iAt sAt, Mods.plain, 184, 15, by unfold Iss.modified Iss.quiet; decide +kernel, by decide +kernel,
      by unfold Mods.engine; decide +kernel, counts_first _ _ (by decide +kernel) rfl (by decide +kernel), by decide +kernel,
      by unfold Iss.fragment; decide +kernel⟩,
   ⟨sAt, iAt sAt, 15, 63, 12, by unfold Iss.modified Iss.quiet; decide +kernel, by decide +kernel,
      by unfold Iss.flagRoom; decide +kernel, by decide +kernel, by unfold Iss.settled; decide +kernel, by decide +kernel⟩,
   ⟨sLoop, iAt sLoop, 61, 1, by unfold Iss.modified Iss.quiet; decide +kernel, by decide +kernel, by decide +kernel,
      by unfold Iss.flagRoom; decide +kernel, by decide, by unfold Iss.settled; decide +kernel, by decide +kernel, by decide +kernel⟩,
   ⟨sAt, iAt sAt, 15, 184, by unfold Iss.modified Iss.quiet; decide +kernel, by decide +kernel, by decide +kernel, by decide +kernel,
      by decide +kernel, by unfold Mods.engine; decide +kernel, by unfold Iss.fragment; decide +kernel⟩⟩

theorem wit_SummaryWordJoinsTheQueue :
    (∃ (s : State) (i : Iss) (m : Mods) (w : Instr) (kind : SumKind) (types : List Nat) (a : BitVec 4) (v : LReg),
      i.modified s m ∧ i.f.buffer = [] ∧ summaryRow w = some (kind, types, a, v) ∧ m.engine types ∧ m.c = .zero ∧ i.countsOn m 1 ∧
      i.fieldsReady [(if decide (m.ty = 12 ∨ m.ty = 13) then .dstPair else .src, v)] ∧
      i.settled [2 * a.toNat, 2 * a.toNat + 1] ∧ (i.g.readPair (2 * a.toNat)).toNat % 1024 = 0) ∧
    (∃ (s : State) (i : Iss) (a b : BitVec 6) (f : BitVec 4), i.modified s Mods.plain ∧ i.f.buffer = [] ∧ i.f.chain = none ∧
      a.toNat % 2 = 0 ∧ i.flagRoom f ∧ i.settled [a.toNat, a.toNat + 1] ∧ (i.g.readPair a.toNat).toNat % 1024 = 0 ∧
      b.toNat % 2 = 0 ∧ i.settled [b.toNat, b.toNat + 1] ∧ (i.g.readPair b.toNat).toNat % 1024 = 0) ∧
    (∃ (s : State) (i : Iss) (d a b q : BitVec 6), i.modified s Mods.plain ∧ i.f.buffer = [] ∧ i.f.chain = none ∧ q.toNat ≤ 6 ∧
      a.toNat % 2 = 0 ∧ (q.toNat ∈ [1, 2, 3] → d.toNat % 2 = 0) ∧ (q.toNat ∈ [0, 2, 3] ∨ b = 0) ∧
      i.settled [a.toNat, a.toNat + 1, d.toNat, d.toNat + 1, b.toNat] ∧ (i.g.readPair a.toNat).toNat % 1024 = 0) :=
  ⟨⟨sAt, iAt sAt, Mods.plain, .sumd 15 (.v 191), .d, [0, 7, 12, 13], 15, .v 191, by unfold Iss.modified Iss.quiet; decide +kernel,
      by decide +kernel, rfl, by unfold Mods.engine; decide +kernel, rfl, counts_first _ _ (by decide +kernel) rfl (by decide +kernel),
      by unfold Iss.fieldsReady; decide +kernel, by unfold Iss.settled; decide +kernel, by decide +kernel⟩,
   ⟨sAt, iAt sAt, 62, 60, 12, by unfold Iss.modified Iss.quiet; decide +kernel, by decide +kernel, by decide +kernel, by decide,
      by unfold Iss.flagRoom; decide +kernel, by unfold Iss.settled; decide +kernel, by decide +kernel, by decide,
      by unfold Iss.settled; decide +kernel, by decide +kernel⟩,
   ⟨sAt, iAt sAt, 62, 62, 63, 3, by unfold Iss.modified Iss.quiet; decide +kernel, by decide +kernel, by decide +kernel, by decide,
      by decide, by decide, by decide, by unfold Iss.settled; decide +kernel, by decide +kernel⟩⟩

theorem wit_NetworkAndTexWordsAreSent :
    (∃ (s : State) (i : Iss) (m : Mods) (d a : Fin 192) (h : LReg), i.modified s m ∧ m.engine [0] ∧ i.countsOn m 1 ∧
      i.g.board = [] ∧ d.val < i.g.window ∧ a.val < i.g.window ∧ useOk i.g.window .src h = true ∧ isQueue h = false ∧
      i.settled (sCodes [(.src, h)]) ∧ statusField m.c = some none) ∧
    (∃ (s : State) (i : Iss) (d a : BitVec 6), i.modified s Mods.plain ∧ i.f.chain = none ∧
      i.settled [d.toNat, a.toNat, a.toNat + 1] ∧ a.toNat % 2 = 0) ∧
    (∃ (s : State) (i : Iss) (m : Mods) (d c : Fin 192) (x : BitVec 2), i.modified s m ∧ m.engine [0] ∧ m.c = .zero ∧
      i.countsOn m 1 ∧ i.g.board = [] ∧ d.val < i.g.window ∧ c.val % 2 = 0 ∧ c.val + 2 ≤ i.g.window ∧
      i.settled ((List.range 8).map (8 * x.toNat + ·)) ∧ texBad i.g (8 * x.toNat) d.val (texDesc i.g (8 * x.toNat)) = some 7) ∧
    (∃ (s : State) (i : Iss) (m : Mods) (d c : Fin 192) (x : BitVec 2) (p : Pg), i.modified s m ∧ m.engine [0] ∧ m.c = .zero ∧
      i.countsOn m 1 ∧ i.settled ((List.range 8).map (8 * x.toNat + ·)) ∧
      texBad i.g (8 * x.toNat) d.val (texDesc i.g (8 * x.toNat)) = none ∧ (texDesc i.g (8 * x.toNat)).neural = false ∧
      i.act m &&& i.g.helpers = 0 ∧ i.memoryLanes m = [63] ∧ i.g.readV c.val 63 = 0 ∧ i.g.readV (c.val + 1) 63 = 0 ∧
      (texDesc i.g (8 * x.toNat)).base = 0 ∧ (texDesc i.g (8 * x.toNat)).chans = 1 ∧ i.unlocked s false false 0 4 ∧
      i.reaches s false 0 p) ∧
    (∃ (s : State) (i : Iss) (m : Mods) (d : Fin 192) (x : BitVec 2), i.modified s m ∧ m.engine [0] ∧
      texBad i.g (8 * x.toNat) d.val (texDesc i.g (8 * x.toNat)) = none ∧ (texDesc i.g (8 * x.toNat)).neural = true ∧
      Table.look s.contexts i.k.ctx = some placedContext ∧ placedContext.nets = []) :=
  let u := sWith (fun g => { g with s := [(31, 1)] }) id
  let v := sWith (fun g => { g with s := [(27, 1)] }) id
  ⟨⟨sAt, iAt sAt, Mods.plain, 191, 191, .s 31, by unfold Iss.modified Iss.quiet; decide +kernel, by unfold Mods.engine; decide +kernel,
      counts_first _ _ (by decide +kernel) rfl (by decide +kernel), by decide +kernel, by decide +kernel, by decide +kernel,
      by decide +kernel, rfl, by unfold Iss.settled; decide +kernel, rfl⟩,
   ⟨sAt, iAt sAt, 63, 62, by unfold Iss.modified Iss.quiet; decide +kernel, by decide +kernel, by unfold Iss.settled; decide +kernel,
      by decide⟩,
   ⟨u, iAt u, Mods.plain, 191, 190, 3, by unfold Iss.modified Iss.quiet; decide +kernel, by unfold Mods.engine; decide +kernel, rfl,
      counts_first _ _ (by decide +kernel) rfl (by decide +kernel), by decide +kernel, by decide +kernel, by decide,
      by decide +kernel, by unfold Iss.settled; decide +kernel, by decide +kernel⟩,
   ⟨sMem, iAt sMem, Mods.plain, 191, 190, 3, pAt sMem, by unfold Iss.modified Iss.quiet; decide +kernel,
      by unfold Mods.engine; decide +kernel, rfl, counts_first _ _ (by decide +kernel) rfl (by decide +kernel),
      by unfold Iss.settled; decide +kernel, by decide +kernel, by decide +kernel, by decide +kernel, by decide +kernel,
      (by decide +kernel), by decide +kernel, by decide +kernel, by decide +kernel, by unfold Iss.unlocked; decide +kernel,
      by unfold Iss.reaches; decide +kernel⟩,
   ⟨v, iAt v, Mods.plain, 191, 3, by unfold Iss.modified Iss.quiet; decide +kernel, by unfold Mods.engine; decide +kernel,
      by decide +kernel, by decide +kernel, by decide +kernel, rfl⟩⟩

theorem wit_SplatWordsAreEntered :
    (∃ (s : State) (i : Iss) (m : Mods) (k : Fin 192) (f : BitVec 4), i.modified s m ∧ i.f.buffer = [] ∧ m.engine [0] ∧
      m.c = .zero ∧ i.countsOn m 1 ∧ i.fragment k 8 ∧ i.settled [2 * f.toNat, 2 * f.toNat + 1] ∧
      (i.g.readPair (2 * f.toNat)).toNat % 64 = 0 ∧ framesFull s i.k.ctx (i.g.readPair (2 * f.toNat)).toNat i.g.die = false) ∧
    (∃ (s : State) (i : Iss) (d a : BitVec 6) (f : BitVec 4), i.modified s Mods.plain ∧ i.f.chain = none ∧ a.toNat % 2 = 0 ∧
      i.flagRoom f ∧ (i.g.readPair a.toNat).toNat % 64 = 0 ∧ framesFull s i.k.ctx (i.g.readPair a.toNat).toNat i.g.die = false ∧
      d.toNat % 4 = 0 ∧ i.settled ([a.toNat, a.toNat + 1] ++ (List.range 4).map (d.toNat + ·)) ∧
      ∀ e, frameOn s i.k.ctx (i.g.readPair a.toNat).toNat i.g.die = some e → e.2.flushed = false) :=
  ⟨⟨sAt, iAt sAt, Mods.plain, 184, 15, by unfold Iss.modified Iss.quiet; decide +kernel, by decide +kernel,
      by unfold Mods.engine; decide +kernel, rfl, counts_first _ _ (by decide +kernel) rfl (by decide +kernel),
      by unfold Iss.fragment; decide +kernel, by unfold Iss.settled; decide +kernel, by decide +kernel, by decide +kernel⟩,
   ⟨sAt, iAt sAt, 60, 62, 12, by unfold Iss.modified Iss.quiet; decide +kernel, by decide +kernel, by decide,
      by unfold Iss.flagRoom; decide +kernel, by decide +kernel, by decide +kernel, by decide, by unfold Iss.settled; decide +kernel,
      by intro e h
         have e' : ((iAt sAt).g.readPair (62 : BitVec 6).toNat).toNat = 0 := by decide +kernel
         rw [e'] at h
         have k : frameOn sAt (iAt sAt).k.ctx 0 (iAt sAt).g.die = none := by decide +kernel
         rw [k] at h; cases h⟩⟩

theorem wit_CommandWordsAreHandedOver :
    ∃ (s : State) (i : Iss) (d a b : BitVec 6) (f : BitVec 4), i.plain s ∧ i.f.buffer = [] ∧
      i.settled [a.toNat, a.toNat + 1, b.toNat, d.toNat] ∧ releasePending s i.gid i.fid 4 = false ∧ a.toNat % 2 = 0 ∧
      i.flagRoom f ∧ s.cqueue = [] ∧ runningOn s (i.k.ctx * 16 + (i.g.readS a.toNat).toNat % 16) i.g.die = none ∧
      (i.g.readPair a.toNat).toNat % 64 = 0 :=
  ⟨sAt, iAt sAt, 63, 62, 61, 12, by unfold Iss.plain Iss.quiet; decide +kernel, by decide +kernel, by unfold Iss.settled; decide +kernel,
    by decide +kernel, by decide, by unfold Iss.flagRoom; decide +kernel, by decide +kernel, by decide +kernel, by decide +kernel⟩

/-! ## Hypotheses met: what happens to fibres -/

/-- The fibre of `sAt` in another state. -/
def sInState (st : FState) : State := sFib fun f => { f with state := st }

/-- The issuing fibre's record as an event reads it. -/
def eAt (s : State) : Iss := (fibreIss s 0 0).getD (iAt s)

/-- A trap of `sAt`'s fibre raised and not delivered. -/
def aTrap : Trap := { cause := 4, epc := 0x10004, addr := 0, mask := 1, raised := 0, clause := none }

/-- The leaf of a page: its STATE, its FRAME and its attributes above and below it. -/
def aLeaf (st frame rest : Nat) : Nat := st * 2 ^ 61 + frame * 2 ^ 16 + rest

/-- A page tree at address 0 that maps the first 64 KiB by a leaf. -/
def aTree (leaf : Nat) : List Host.Cell :=
  Memory.writeN (Memory.writeN (Memory.writeN (Memory.writeN [] 0 (toBytes 8 0x20001)) 0x20000 (toBytes 8 0x31001))
    0x31000 (toBytes 8 0x32001)) 0x32000 (toBytes 8 leaf)

/-- `sAt` with that tree. -/
def sTree (leaf : Nat) : State := { sAt with mem := aTree leaf }

/-- A barrier of the kernel that has been released, with lanes held back for the next phase. -/
def freedBarrier : Barrier := { idleBarrier 1 0 with state := .released, gen := true }

theorem wit_FibreEventsTakeEffect :
    (∀ w ∈ [Wait.flags 0xFFF, .release 4, .token 63, .queue [] none, .sptile 0],
      ∃ s i, fibreIss s 0 0 = some i ∧ i.f.state = .waiting w ∧ i.waitEnds s w) ∧
    (∃ s i, fibreIss s 0 0 = some i ∧ i.f.state = .waiting (.fetch 0) ∧ i.waitEnds s (.fetch 0)) ∧
    (∃ s i, fibreIss s 0 0 = some i ∧ i.f.state = .waiting (.noise 0) ∧ i.waitEnds s (.noise 0)) ∧
    (∃ s i, fibreIss s 0 0 = some i ∧ i.f.state = .waiting (.barrier 7 false) ∧
      Table.look s.barriers 7 = some freedBarrier ∧ freedBarrier.gen ≠ false ∧ i.quiet s) ∧
    (∃ s i, fibreIss s 0 0 = some i ∧ i.f.state = .waiting (.spin 0 0 true) ∧ i.quiet s) ∧
    (∃ s i, fibreIss s 0 0 = some i ∧ i.f.state = .stalled (.flag 12) ∧ holdStands s i (.flag 12) = true) ∧
    (∃ s i, fibreIss s 0 0 = some i ∧ i.f.state = .stalled (.board [3]) ∧ holdStands s i (.board [3]) = false) ∧
    (∃ s i, fibreIss s 0 0 = some i ∧ i.f.state = .waiting (.spin 0 0 false) ∧ 0 ≤ gtOf s i.g.die ∧ i.quiet s ∧
      (0, 0) ∉ s.helps) ∧
    (∃ s i, fibreIss s 0 0 = some i ∧ i.f.state = .ready ∧ i.f.readySince = some 0 ∧ i.k.prog = true ∧
      0 + (i.k.sample 0x013).toNat ≤ gtOf s i.g.die) ∧
    (∃ s i, fibreIss s 0 0 = some i ∧ i.f.state = .waiting .trap ∧ i.f.traps = [aTrap] ∧ aTrap.cause ≠ 0x0A ∧
      i.f.buffer = [] ∧ i.tvec ≠ 0 ∧ (∀ e ∈ i.g.fibres, e.2.handler = none) ∧
      (∀ e ∈ i.g.fibres, e.1 ≠ 0 → e.2.traps = []) ∧ i.f.handler = none) ∧
    (∃ s i, fibreIss s 0 0 = some i ∧ i.f.state = .aborted [(0, false, false)] ∧
      ∀ p ∈ [((0 : Nat), false, false)], p.2.2 = false ∧
        ((translateCp s i.k.ctx p.1).st ∈ [3, 4, 7] ∨ p.2.1 = true ∧ (translateCp s i.k.ctx p.1).st = 6)) ∧
    (∃ (s : State) (b : Barrier), Table.look s.barriers 7 = some b ∧ b.state = .released ∧ Table.wf b.held 0 = true ∧
      b.level ≠ 3) ∧
    (∃ (s : State) (x : Group) (k : Kernel) (e : Nat × Fibre) (t : Nat), groupAt s 0 = some x ∧
      kernelAt s x.kernel = some k ∧ x.state = .begun ∧ e ∈ x.fibres ∧ e.2.state = .ready ∧ e.2.readySince = some t ∧
      max t x.lastIssue + starvOf s k.ctx ≤ gtOf s x.die) ∧
    (∃ (s : State) (x : Group), groupAt s 0 = some x ∧ x.state = .resident) :=
  let a w := sInState (.waiting w)
  let st := sWith (fun g => { g with flags := [(12, 127)] }) fun f => { f with state := .stalled (.flag 12) }
  let b := { a (.barrier 7 false) with barriers := [(7, freedBarrier)] }
  let late s := updDie s 0 fun d => { d with gt := 100000000 }
  let d : State := late { sAt with kernels := [(0, { placedKernel with sampled := [(0x013, 1000)] })] }
  let p := sFib fun f => { f with state := .waiting .trap, traps := [aTrap] }
  let q : State := { sTree (aLeaf 3 1 0) with groups := (sInState (.aborted [(0, false, false)])).groups }
  let v : State := { sTree (aLeaf 3 1 0) with groups := (a (.fetch 0)).groups }
  ⟨by
      intro w h
      refine ⟨a w, eAt (a w), ?_⟩
      fin_cases h <;> exact ⟨by decide +kernel, by decide +kernel, by unfold Iss.waitEnds; decide +kernel⟩,
   ⟨v, eAt v, by decide +kernel, by decide +kernel, by unfold Iss.waitEnds; decide +kernel⟩,
   ⟨a (.noise 0), eAt (a (.noise 0)), by decide +kernel, by decide +kernel, [], by decide +kernel⟩,
   ⟨b, eAt b, by unfold Iss.quiet; decide +kernel⟩,
   ⟨a (.spin 0 0 true), eAt (a (.spin 0 0 true)), by unfold Iss.quiet; decide +kernel⟩,
   ⟨st, eAt st, by decide +kernel⟩,
   ⟨sInState (.stalled (.board [3])), eAt (sInState (.stalled (.board [3]))), by decide +kernel⟩,
   ⟨a (.spin 0 0 false), eAt (a (.spin 0 0 false)), by unfold Iss.quiet; decide +kernel⟩,
   ⟨d, eAt d, by decide +kernel⟩,
   ⟨p, eAt p, by decide +kernel⟩,
   ⟨q, eAt q, by decide +kernel⟩,
   ⟨b, freedBarrier, by decide +kernel⟩,
   ⟨late sAt, (iAt (late sAt)).g, placedKernel, (0, placedFibre 0x84000000), 0, by decide +kernel⟩,
   ⟨sWith (fun g => { g with state := .resident }) id, _, rfl, by decide +kernel⟩⟩

/-! ## Hypotheses met: accesses, homes, pages -/

/-- A load of a word by lane 0 of `sAt`'s fibre, which waits for one piece. -/
def aOp : Op :=
  { kind := .load, ident := groupIdent (placedGroup 0), gid := 0, fib := 0, core := 0, ctx := 0, flag := 1, dest := .lane (.v 0) 1, size := 4, signed := false
    lanes := 1, zero := 2, pieces := [{ lane := 0, off := 0, addr := 256, n := 4, scope := 2, cache := true }]
    base := [], skip := [], overlay := [], got := [], scope := 0, acquire := false, copies := [] }

/-- The same with nothing outstanding. -/
def aDone (k : OpKind) : Op := { aOp with kind := k, pieces := [] }

/-- `sAt` with an operation, its flag 1 counting it. -/
def sOp (o : Op) : State := { sWith (fun g => { g with flags := [(1, 1)] }) id with ops := [(0, o)], nextId := 1 }

/-- A fill of that load's line. -/
def aFill : Fill :=
  { op := 0, core := 0, ctx := 0, line := 2, off := 112, bytes := toBytes 16 0xAB, scope := 2, expiry := 100, keep := true, owner := none
    served := 5, ident := groupIdent (placedGroup 0) }

theorem wit_AccessEventsTakeEffect :
    (∀ k ∈ [OpKind.load, .lds, .sld], ∃ s o g, Table.look s.ops 0 = some o ∧ groupAt s o.gid = some g ∧
      addressed s o.gid o.ident = true ∧ o.acquire = false ∧ o.complete = true ∧ o.kind = k) ∧
    (∃ s o g, Table.look s.ops 0 = some o ∧ groupAt s o.gid = some g ∧
      addressed s o.gid o.ident = true ∧ o.acquire = false ∧ o.kind = .satom ∧ atomicPending s 0 = false) ∧
    (∃ (s : State) (o : Op) (g : Group) (b : Block) (c : Nat × Nat × Nat), Table.look s.ops 0 = some o ∧
      groupAt s o.gid = some g ∧ addressed s o.gid o.ident = true ∧ o.acquire = false ∧ o.complete = true ∧ o.kind = .lcpy ∧ blockAt s g.block = some b ∧
      o.copies = [c]) ∧
    (∃ (o : Op) (g : Group) (k : Fin 192) (l : Nat), o.dest = .lane (.v k) 1 ∧ Table.wf g.v 0 = true ∧ l < 64) ∧
    (∃ (s : State) (o : Op) (g : Group), Table.look s.ops 0 = some o ∧ groupAt s o.gid = some g ∧
      addressed s o.gid o.ident = true ∧ o.acquire = false ∧ o.complete = true ∧ o.kind = .tex ∧ Table.look s.evals 0 = none) ∧
    (∃ (s : State) (o : Op), Table.look s.ops 0 = some o ∧ addressed s o.gid o.ident = false ∧ o.complete = true ∧
      o.kind = .load) ∧
    (∃ (s : State) (o : Op) (p : Piece) (g : Group) (k : Kernel), (∀ q ∈ o.pieces, 0 < q.n) ∧ Table.look s.ops 0 = some o ∧
      fillable s 0 o 2 = true ∧ lineSettled s 2 ∧ requestWaits s 0 o.core o.ctx (2 * 128) = false ∧
      o.pieces.find? (fun p => p.addr / 128 = 2 || (p.addr + p.n - 1) / 128 = 2) = some p ∧
      groupAt s o.gid = some g ∧ kernelAt s g.kernel = some k) ∧
    (∃ (s : State) (f : Fill) (o : Op), Table.look s.fills 0 = some f ∧ Table.look s.ops f.op = some o ∧
      l1Fits s f.core f.line ∧ slotHolds s f.ident = true ∧ responseWaits s 0 f.core f.ctx (f.line * 128) = false ∧ f.keep = true ∧ s.l1 = [] ∧ f.bytes[15]? = some 0 ∧ l1At s f.core (f.line * 128 + f.off + 15) = none) ∧
    (∃ (s : State) (f : Fill) (o : Op), Table.look s.fills 0 = some f ∧ Table.look s.ops f.op = some o ∧
      l1Fits s f.core f.line ∧ slotHolds s f.ident = true ∧ responseWaits s 0 f.core f.ctx (f.line * 128) = false ∧ f.keep = false ∧ 2 ≤ f.scope) ∧
    (∃ (s : State) (f : Fill) (o : Op), Table.look s.fills 0 = some f ∧ Table.look s.ops f.op = some o ∧
      responseWaits s 0 f.core f.ctx (f.line * 128) = false ∧ slotHolds s f.ident = false) :=
  let c : Op := { aDone .lcpy with copies := [(0, 64, 20)] }
  let u : State := sOp aOp
  let n : Op := { aDone .load with ident := 1 }
  let once : Fill := { aFill with keep := false }
  let z : State := { sOp aOp with fills := [(0, once)] }
  let w : State := { sOp aOp with fills := [(0, aFill)] }
  ⟨by
      intro k h
      refine ⟨sOp (aDone k), aDone k, (iAt (sOp (aDone k))).g, ?_⟩
      fin_cases h <;> decide +kernel,
   ⟨sOp (aDone .satom), aDone .satom, (iAt (sOp (aDone .satom))).g, by decide +kernel⟩,
   ⟨sOp c, c, (iAt (sOp c)).g, placedBlock, (0, 64, 20), by decide +kernel⟩,
   ⟨{ aOp with dest := .lane (.v 191) 1 }, (iAt sAt).g, 191, 63, by decide +kernel⟩,
   ⟨sOp (aDone .tex), aDone .tex, (iAt (sOp (aDone .tex))).g, by decide +kernel⟩,
   ⟨sOp n, n, by decide +kernel⟩,
   ⟨u, aOp, { lane := 0, off := 0, addr := 256, n := 4, scope := 2, cache := true },
      (iAt u).g, placedKernel, by unfold lineSettled; decide +kernel⟩,
   ⟨w, aFill, aOp, by unfold l1Fits; decide +kernel⟩,
   ⟨z, once, aOp, by unfold l1Fits; decide +kernel⟩,
   ⟨{ w with fills := [(0, { aFill with ident := 1 })] }, { aFill with ident := 1 }, aOp, by decide +kernel⟩⟩

/-- A write of `sAt`'s fibre sent to byte 4096. -/
def aWrite (k : WriteKind) : Write :=
  { kernel := 0, ident := groupIdent (placedGroup 0), gid := 0, fibs := [0], core := 0, ctx := 0, scope := 2, addr := 4096, kind := k, wct := none }

/-- `sAt` with that write on its way. -/
def sWrite (k : WriteKind) : State := { sAt with writes := [(0, aWrite k)], nextId := 1 }

/-- A partial of byte 4096's word, sent home. -/
def aPartial : Partial := { core := 0, addr := 4096, op := .add, ty := 0, width := 4, val := 7, sent := true, ctx := 0 }

theorem wit_HomeEventsTakeEffect :
    (∃ (s : State) (w : Write) (bs : List Byte), Table.look s.writes 0 = some w ∧ w.kind = .store bs ∧
      applicable s 0 w = true ∧ lineSettled s (w.addr / 128) ∧ (∀ l ∈ linesOf w.addr bs.length, badLine s l = false) ∧
      s.memoryForm ∧ requestWaits s 0 w.core w.ctx w.addr = false) ∧
    (∃ (s : State) (w : Write) (op lane n : Nat) (f : AtomOp) (b c : DWord), Table.look s.writes 0 = some w ∧
      w.kind = .atomic op lane f n b c ∧ applicable s 0 w = true ∧ lineSettled s (w.addr / 128) ∧
      requestWaits s 0 w.core w.ctx w.addr = false) ∧
    (∃ (s : State) (v : Nat) (w : Write) (g : Group) (x : Fibre), Table.look s.writes 0 = some w ∧ w.wct = some v ∧
      groupAt s w.gid = some g ∧ Table.look g.fibres 0 = some x ∧ 0 ∈ w.fibs ∧
      responseWaits s w.replied w.core w.ctx w.addr = false) ∧
    (∃ (s : State) (ty n : Nat) (f : AtomOp) (b : DWord) (w : Write), Table.look s.writes 0 = some w ∧
      w.kind = .reduce f ty n b ∧ applicable s 0 w = true ∧ Table.wf s.homes HomeLine.blank = true ∧
      (l1Lines s w.core).length < 2048 ∧ (∀ h ∈ (homeOf s (w.addr / 128)).holders, h.1 ≠ w.core) ∧
      (∀ e ∈ s.partials, ¬(e.2.core = w.core ∧ e.2.addr = w.addr)) ∧ requestWaits s 0 w.core w.ctx w.addr = false) ∧
    (∃ (s : State) (ty n v : Nat) (f : AtomOp) (b : DWord) (w : Write), Table.look s.writes 0 = some w ∧
      w.kind = .reduce f ty n b ∧ applicable s 0 w = true ∧ Table.wf s.homes HomeLine.blank = true ∧
      (l1Lines s w.core).length < 2048 ∧ grantOf s w.core (w.addr / 128) = some v ∧
      (∀ e ∈ s.partials, ¬(e.2.core = w.core ∧ e.2.addr = w.addr)) ∧ requestWaits s 0 w.core w.ctx w.addr = false) ∧
    (∃ (s : State) (p : Partial), Table.look s.partials 0 = some p ∧ p.sent = true ∧
      (∀ e ∈ s.partials, e.1 < 0 → e.2.sent = true → e.2.core = p.core → e.2.addr / 128 ≠ p.addr / 128) ∧
      (homeOf s (p.addr / 128)).hold = none ∧ poisoned s p.addr = false ∧
      underWay s 0 0 (p.addr / 128) (coreDie p.core) (homeDie s p.ctx p.addr) = false) ∧
    (∃ (s : State) (line : Nat) (p : Partial), (homeOf s line).recalling = true ∧ Table.wf s.homes HomeLine.blank = true ∧
      recallHeld s line = false ∧
      (homeOf s line).holders ≠ [] ∧ partialsOf s line = [(0, p)] ∧ poisoned s p.addr = false) ∧
    (∃ (s : State) (line : Nat), (homeOf s line).hold = some 9 ∧ Table.wf s.homes HomeLine.blank = true) :=
  let sent : State := { sAt with writes := [(0, { aWrite (.store [1]) with wct := some 9 })] }
  let p : State := { sAt with partials := [(0, aPartial)] }
  let r : State := { p with homes := [(32, { HomeLine.blank with holders := [(0, 5)], recalling := true })] }
  let h : State := { sAt with homes := [(32, { HomeLine.blank with hold := some 9 })] }
  let g : State := { sWrite (.reduce .fadd 1 4 1) with homes := [(32, { HomeLine.blank with holders := [(0, 5)] })] }
  ⟨⟨sWrite (.store [1, 0]), aWrite (.store [1, 0]), [1, 0], by unfold lineSettled State.memoryForm; decide +kernel⟩,
   ⟨sWrite (.atomic 5 63 .cas 8 1 2), aWrite (.atomic 5 63 .cas 8 1 2), 5, 63, 8, .cas, 1, 2, by unfold lineSettled; decide +kernel⟩,
   ⟨sent, 9, { aWrite (.store [1]) with wct := some 9 }, (iAt sAt).g, (iAt sAt).f, by decide +kernel⟩,
   ⟨sWrite (.reduce .fadd 1 4 1), 1, 4, .fadd, 1, aWrite (.reduce .fadd 1 4 1), by decide +kernel⟩,
   ⟨g, 1, 4, 5, .fadd, 1, aWrite (.reduce .fadd 1 4 1), by decide +kernel⟩,
   ⟨p, aPartial, by decide +kernel⟩,
   ⟨r, 32, aPartial, by decide +kernel⟩,
   ⟨h, 32, by decide +kernel⟩⟩

/-- A context's descriptor whose staging pool has one entry, at address 0x40000, and whose first tier window is the first
mebibyte of its host's memory. -/
def poolDesc : List Byte :=
  toBytes 40 0 ++ toBytes 8 0x40000 ++ toBytes 4 1 ++ toBytes 76 0 ++ toBytes 8 0 ++ toBytes 8 0x100000 ++ toBytes 112 0

/-- `sTree` with that pool, its entry's doublewords as given, and a job for the first page. -/
def sJob (k : JobKind) (leaf d0 d1 : Nat) (frame : Nat) : State :=
  { sTree leaf with
    mem := Memory.writeN (aTree leaf) 0x40000 (toBytes 8 d0 ++ toBytes 8 d1)
    contexts := [(0, { placedContext with desc := poolDesc, mapped := poolDesc })]
    jobs := [(0, { kind := k, ctx := 0, va := 0, size := 65536, leafAddr := 0x32000, pool := 0, frame := frame, wct := 0
                   die := 0, bad := 0 })] }

/-- The job of such a state. -/
def jobOf (s : State) : Job :=
  (Table.look s.jobs 0).getD { kind := .stage, ctx := 0, va := 0, size := 0, leafAddr := 0, pool := 0, frame := 0, wct := 0
                               die := 0, bad := 0 }

/-- A hotness entry of the page's block from which die 1 has posted. -/
def sHot : State :=
  updDie (sTree (aLeaf 3 4 (2 ^ 57 + 2 ^ 15))) 0 fun d =>
    { d with gt := 2000000, hot := [{ block := 4, ctr := [(1, 200)], posted := [(1, 0)] }] }

theorem wit_PageEventsTakeEffect :
    (∃ s : State, (coreRanges s 0 0).isSome = true ∧ rangePage s 0 0 ((coreRanges s 0 0).getD []) = none ∧
      (∀ e ∈ s.tlb, ¬(e.core = 0 ∧ e.ctx = 0 ∧ e.va ≤ 0 ∧ 0 < e.va + 2 ^ e.size)) ∧ (walk s 0 0).st ∈ [3, 4, 6, 7]) ∧
    (∃ (s : State) (pool d0 d1 : Nat) (j : Job), Table.look s.jobs 0 = some j ∧ j.kind = .stage ∧
      (jobPage s j).leafAddr = some j.leafAddr ∧ bits (j.leaf s) 63 61 = 2 ∧
      leafSound s j.ctx (j.leaf s) (jobPage s j).sz false = true ∧ (jobPage s j).repl = false ∧
      pinned s (physKey (jobPage s j).tier (jobPage s j).frame) j.size = false ∧
      freeFrame (touchPool s j.ctx j.die) j.ctx (jobPage s j) = some (pool, d0, d1) ∧
      latestExpiry (touchPool s j.ctx j.die) (bits d0 45 16 * 2 ^ 16) j.size = 0 ∧
      (copyFrame (copyTouch (touchPool s j.ctx j.die) j.ctx j.die (physKey (jobPage s j).tier (jobPage s j).frame) j.size) (physKey (jobPage s j).tier (jobPage s j).frame) (bits d0 45 16 * 2 ^ 16) j.size).isSome = true) ∧
    (∃ (s : State) (d0 d1 : Nat) (j : Job), Table.look s.jobs 0 = some j ∧ j.kind = .evict ∧
      (poolEntries s j.ctx).find? (fun e => e.1 = j.pool) = some (j.pool, d0, d1) ∧
      (let u := flushFrame s j.frame j.size
       writeBackLines u j.ctx j.die j.frame (physKey (bits d1 51 50) (bits d1 45 16 * 2 ^ 16))
        (if mayWriteBack u j.ctx (physKey (bits d1 51 50) (bits d1 45 16 * 2 ^ 16)) j.size then
          u.written.filter fun l => decide (j.frame ≤ l * 128 ∧ l * 128 < j.frame + j.size) else [])).isSome = true) ∧
    (∃ (s : State) (j : Job), Table.look s.jobs 0 = some j ∧ j.kind = .collapse ∧ bits (j.leaf s) 63 61 = 5 ∧
      (∀ k ∈ copyKeys s j.ctx j.frame, frameQuiet s k j.size = true) ∧
      max j.wct (maxOf ((copyKeys s j.ctx j.frame).map fun k => latestExpiry s k j.size) + 4) < gtOf s j.die) ∧
    (∃ (s : State) (frame : Nat) (p : Pg), translateCp s 0 0 = p ∧ p.leafAddr = some 0x32000 ∧ p.st = 3 ∧ p.tier = 0 ∧
      p.ilv = false ∧ bits p.leaf 15 15 = 1 ∧ notified s p.frame (2 ^ p.sz) 1 = true ∧ 1 ∈ ctxRanks s 0 ∧
      frame / 2 ^ 36 = 1 ∧ frame % 2 ^ p.sz = 0 ∧ frame ≠ p.frame ∧ frameQuiet s p.frame (2 ^ p.sz) = true ∧
      pinned s p.frame (2 ^ p.sz) = false ∧ mayWriteRun s 0 frame (2 ^ p.sz) = true ∧
      (∀ q ∈ pagesOf s 0, q.meets s 0 frame (2 ^ p.sz) = false) ∧
      (let u := flushFrame s p.frame (2 ^ p.sz)
       copyFrame (copyTouch (copyTouch u 0 (p.master u 0) p.frame (2 ^ p.sz)) 0 (p.master u 0) frame (2 ^ p.sz))
        p.frame frame (2 ^ p.sz)).isSome = true) ∧
    (∃ (s : State) (j : Job), Table.look s.jobs 0 = some j ∧ j.kind = .migrate ∧ bits (j.leaf s) 63 61 = 6 ∧
      j.wct < gtOf s j.die) ∧
    (∃ s : State, ∀ x ∈ allPages s, x.2.covers s x.1 0 = false) ∧
    (∃ (s : State) (d : Die), dieAt s 0 = some d ∧ d.halved < d.gt / 1000000) :=
  let t := sTree (aLeaf 3 4 0)
  let st := sJob .stage (aLeaf 2 0 (2 ^ 50)) (5 * 2 ^ 16) 0 0
  let ev := sJob .evict (aLeaf 2 5 0) (5 * 2 ^ 16 + 4) (2 ^ 50) (5 * 2 ^ 16)
  let late s := updDie s 0 fun d => { d with gt := 100 }
  let co := late (sJob .collapse (aLeaf 5 4 (2 ^ 52 + 2 ^ 57)) 0 0 (4 * 2 ^ 16))
  let mi := late (sJob .migrate (aLeaf 6 4 0) 0 0 (2 ^ 36))
  ⟨⟨t, by decide +kernel⟩,
   ⟨st, 0, 5 * 2 ^ 16, 0, jobOf st, by decide +kernel⟩,
   ⟨ev, 5 * 2 ^ 16 + 4, 2 ^ 50, jobOf ev, by decide +kernel⟩,
   ⟨co, jobOf co, by decide +kernel⟩,
   ⟨sHot, 2 ^ 36, translateCp sHot 0 0, by decide +kernel⟩,
   ⟨mi, jobOf mi, by decide +kernel⟩,
   ⟨{ sAt with contexts := [] }, by decide +kernel⟩,
   ⟨sHot, (dieAt sHot 0).get (by decide +kernel), by decide +kernel⟩⟩

/-! ## Hypotheses met: the engines of a core -/

/-- A context whose whole address space is one resident range. -/
def rangeContext : Context := { placedContext with ranges := [wholeRange], live := [wholeRange] }

/-- A Porter command that fills 20 bytes from 257, of the scratchpad or of global memory. -/
def aPorterFill (scratch : Bool) : PorterCmd :=
  { op := .fill, gid := 0, fib := 0, core := 0, ctx := 0, block := 0
    d := [257, 0, 0xAABBCCDD, 0, 20, if scratch then 2 else 0], token := some 63, flag := 1, ranges := [], started := false
    wct := 0, status := 0, info := 0, failAddr := 0, coins := [], outl := 0, dup := none }

/-- `sAt` with that command in its core's Porter, and with register 63 its token. -/
def sFill (c : PorterCmd) : State :=
  { sWith (fun g => { g with flags := [(1, 1)], tokens := [(63, 0)] }) id with
    porter := [(0, c)], contexts := [(0, rangeContext)] }

theorem wit_PorterEventsTakeEffect :
    (∃ (s s' : State) (c : PorterCmd) (xs : List Xfer), Table.look s.porter 0 = some c ∧ c.started = false ∧
      porterMayStart s 0 c = true ∧ porterWrites s 0 c = (.ok xs, s') ∧ xs ≠ [] ∧
      (∀ x ∈ xs, x.scratch = false →
        (meetEngine s' c.ctx (coreDie c.core) x.rng x.addr x.bytes.length true).isNone = true)) ∧
    (∃ (s : State) (c : PorterCmd) (b : Block), Table.look s.porter 0 = some c ∧ c.started = false ∧
      porterMayStart s 0 c = true ∧ c.op = .fill ∧ porterEmpty c.op c.d = false ∧ bits (descAt c.d 5) 1 1 = 1 ∧
      blockAt s c.block = some b ∧ Table.wf b.scratch 0 = true) ∧
    (∃ (s : State) (c : PorterCmd) (g : Group), Table.look s.porter 0 = some c ∧ c.started = true ∧
      (c.wct = 0 ∨ c.wct < gtOf s (coreDie c.core)) ∧ groupAt s c.gid = some g ∧ (c.token ≠ none ∨ c.status = 0)) :=
  let f := sFill (aPorterFill false)
  let p := sFill (aPorterFill true)
  let d : PorterCmd := { aPorterFill true with started := true }
  ⟨⟨f, f, aPorterFill false, [{ rng := 0, scratch := false, addr := 257
                                bytes := (List.range 20).map fun j => BitVec.ofNat 8 (0xAABBCCDD / 2 ^ (8 * ((257 + j) % 4))) }],
      by decide +kernel, rfl, by decide +kernel, rfl, by simp, by
        intro x h _
        rw [List.mem_singleton] at h
        subst h
        decide +kernel⟩,
   ⟨p, aPorterFill true, placedBlock, by decide +kernel⟩,
   ⟨sFill d, d, (iAt (sFill d)).g, by decide +kernel⟩⟩

/-- A tile operation on tile 3 of `sAt`'s group. -/
def aTileOp (k : TileKind) : TileOp := { id := 0, fib := 0, kind := k, tile := 3, flag := 1, applied := false }

/-- `sAt` with that operation queued. -/
def sTile (k : TileKind) : State := sWith (fun g => { g with flags := [(1, 1)], tileOps := [aTileOp k] }) id

theorem wit_TileEventsTakeEffect :
    ∀ kd ∈ [TileKind.mma 0 0 [(5, 1)] [(6, 2)], .accrd (.v 184) 3 1 2, .accrd (.o 8) 0 1 2, .accld 57344, .accst 57344],
      ∃ (s : State) (g : Group) (k : Kernel) (b : Block) (o : TileOp), groupAt s 0 = some g ∧ kernelAt s g.kernel = some k ∧
        blockAt s g.block = some b ∧ g.turn o 0 ∧ g.links = [] ∧ (∀ e ∈ g.landed, e.1 ≠ 0) ∧ Table.wf (accTable s k g) 0 = true ∧ Table.wf g.v 0 = true ∧
        Table.wf g.o 0 = true ∧ Table.wf b.scratch 0 = true ∧ o.kind = kd := by
  intro kd h
  refine ⟨sTile kd, (iAt (sTile kd)).g, placedKernel, placedBlock, aTileOp kd, ?_⟩
  fin_cases h <;> exact ⟨by decide +kernel, by decide +kernel, by decide +kernel, by unfold Group.turn; decide +kernel,
    by decide +kernel⟩

/-- Member `m` of a quartet: `sAt`'s group with a queued MLOOP of the types and steps that `x1` gives. -/
def aMember (m : Nat) (x1 : Word) : Group :=
  { (iAt sAt).g with s1 := m, flags := [(1, 1)], tileOps := [aTileOp (.mloop 0 x1 0 0 none)] }

/-- A quartet of the block whose last member's MLOOP has another `x1`. -/
def sQuartet (x : Word) : State := { sAt with groups := (List.range 4).map fun m => (m, aMember m (if m = 3 then x else 0)) }

theorem wit_LoopEventsTakeEffect :
    (∀ x ∈ [(0 : Word), 0x1000], ∃ (s : State) (b : Block) (hs : List (Nat × Group × TileOp)), quartetHeads s 0 0 = hs ∧
      hs.length = 4 ∧ blockAt s 0 = some b ∧ (hs.map fun h => h.1).Nodup ∧ (∀ h ∈ hs, groupAt s h.1 = some h.2.1) ∧
      (∀ h ∈ hs, loopWaiting h.2.2 = some 0) ∧ (∀ h ∈ hs, h.2.1.links = []) ∧ (∀ h ∈ hs, ∀ x ∈ h.2.1.tileOps, x.silent = false) ∧
      (if x = 0 then ∀ h ∈ hs, ∀ h' ∈ hs, loopShape h.2.2 = loopShape h'.2.2
        else ∃ h ∈ hs, ∃ h' ∈ hs, loopShape h.2.2 ≠ loopShape h'.2.2)) ∧
    (∃ (s : State) (g : Group) (k : Kernel) (b : Block) (o : TileOp), groupAt s 0 = some g ∧ kernelAt s g.kernel = some k ∧
      blockAt s g.block = some b ∧ g.turn o 0 ∧ g.links = [] ∧ o.kind = .mloop 0 0 0 0 (some (List.replicate 4 ⟨0, 0, []⟩, []))) :=
  let k : TileKind := .mloop 0 0 0 0 (some (List.replicate 4 ⟨0, 0, []⟩, []))
  ⟨by
      intro x h
      refine ⟨sQuartet x, placedBlock, quartetHeads (sQuartet x) 0 0, rfl, ?_⟩
      fin_cases h <;> exact ⟨by decide +kernel, by decide +kernel, by decide +kernel, by decide +kernel, by decide +kernel,
        by decide +kernel, by decide +kernel, by decide +kernel⟩,
   ⟨sTile k, (iAt (sTile k)).g, placedKernel, placedBlock, aTileOp k, by unfold Group.turn; decide +kernel⟩⟩

/-- A summary operation of `sAt`'s group on the object at address 0. -/
def aSumOp (k : SumKind) : SumOp :=
  { id := 0, fib := 0, kind := k, va := 0, vals := [(0, 5), (63, 5)], flag := 1, applied := none, status := none }

/-- An empty heavy-hitter object in memory. -/
def heavyMem : List Host.Cell := Memory.writeN [] 0 (Heavy.bytes { count := 0, slack := 0, entries := [] })

/-- `sAt` with that operation first in its queue, in an address space of one range, and with its fibre in a state. -/
def sSum (o : SumOp) (f : FState) (mem : List Host.Cell) : State :=
  { sWith (fun g => { g with flags := [(1, 1)], sumOps := [o] }) (fun x => { x with state := f }) with
    contexts := [(0, rangeContext)], mem := mem }

/-- The bytes of an empty quantile, heavy-hitter or distinct object. -/
def emptyObject (kind : Nat) : List Byte :=
  match kind with
  | 1 => Quant.fresh.bytes
  | 2 => Heavy.bytes { count := 0, slack := 0, entries := [] }
  | _ => Distinct.bytes { count := 0, cells := List.replicate 1024 0 }

/-- Such an object at address 0. -/
def oneMem (kind : Nat) : List Host.Cell := Memory.writeN [] 0 (emptyObject kind)

/-- Whether a unit reaches an object. -/
def reached (r : Reach) : Bool := match r with | .go => true | _ => false

/-- An operation of `sAt`'s group comes next, and its unit reaches its object, which reads as `bs`. -/
def stepsOn (s : State) (o : SumOp) (bs : List Byte) : Prop :=
  ∃ (g : Group) (k : Kernel), groupAt s 0 = some g ∧ kernelAt s g.kernel = some k ∧ nextSum g = some o ∧ o.status = none ∧
    (g.sumOps.map fun x => x.id).Nodup ∧ o.vals ≠ [] ∧ reached (reachObject s k.ctx g.die o.va true true) = true ∧
    (readObject s (coreKey g.die g.core) k.ctx o.va).1 = bs

theorem steps_on (k : SumKind) (h : k = .q ∨ k = .d ∨ k = .merge 0) (n : Nat) (h' : n = 1 ∨ n = 2 ∨ n = 3) :
    stepsOn (sSum (aSumOp k) .ready (oneMem n)) (aSumOp k) (emptyObject n) := by
  refine ⟨(iAt (sSum (aSumOp k) .ready (oneMem n))).g, placedKernel, ?_⟩
  rcases h with h | h | h <;> rcases h' with h' | h' | h' <;> rw [h, h'] <;> decide +kernel

theorem wit_SummaryEventsTakeEffect_insert :
    (∃ s o bs, stepsOn s o bs ∧ o.kind = .q ∧ (Quant.read bs).isSome = true) ∧
    (∃ s o bs, stepsOn s o bs ∧ o.kind = .q ∧ Quant.read bs = none) ∧
    (∃ s o bs, stepsOn s o bs ∧ o.kind = .d ∧ (Distinct.read bs).isSome = true) ∧
    (∃ s o bs, stepsOn s o bs ∧ o.kind = .d ∧ Distinct.read bs = none) :=
  ⟨⟨_, _, _, steps_on .q (.inl rfl) 1 (.inl rfl), rfl, by decide +kernel⟩,
   ⟨_, _, _, steps_on .q (.inl rfl) 2 (.inr (.inl rfl)), rfl, by decide +kernel⟩,
   ⟨_, _, _, steps_on .d (.inr (.inl rfl)) 3 (.inr (.inr rfl)), rfl, by decide +kernel⟩,
   ⟨_, _, _, steps_on .d (.inr (.inl rfl)) 2 (.inr (.inl rfl)), rfl, by decide +kernel⟩⟩

theorem wit_SummaryEventsTakeEffect_draws :
    ∃ (s : State) (g : Group) (k : Kernel), groupAt s 0 = some g ∧ kernelAt s g.kernel = some k ∧
      (drawAny (openDraws k g (fun _ => g.segPos) 16384 0 s) k g g.segPos).isSome = true :=
  ⟨sAt, (iAt sAt).g, placedKernel, by decide +kernel⟩

theorem wit_SummaryEventsTakeEffect_merge :
    (∃ s o bs, stepsOn s o bs ∧ o.kind = .merge 0 ∧ o.va = 0 ∧ (Quant.read bs).isSome = true) ∧
    (∃ s o bs, stepsOn s o bs ∧ o.kind = .merge 0 ∧ o.va = 0 ∧ (Heavy.read bs).isSome = true ∧ Quant.read bs = none) ∧
    (∃ s o bs, stepsOn s o bs ∧ o.kind = .merge 0 ∧ o.va = 0 ∧ (Distinct.read bs).isSome = true ∧ Quant.read bs = none) :=
  ⟨⟨_, _, _, steps_on _ (.inr (.inr rfl)) 1 (.inl rfl), rfl, rfl, by decide +kernel⟩,
   ⟨_, _, _, steps_on _ (.inr (.inr rfl)) 2 (.inr (.inl rfl)), rfl, rfl, by decide +kernel⟩,
   ⟨_, _, _, steps_on _ (.inr (.inr rfl)) 3 (.inr (.inr rfl)), rfl, rfl, by decide +kernel⟩⟩

theorem wit_SummaryEventsTakeEffect :
    (∀ kd ∈ [SumKind.init 1, .init 2, .init 3], ∃ (s : State) (g : Group) (k : Kernel) (o : SumOp), groupAt s 0 = some g ∧
      kernelAt s g.kernel = some k ∧ nextSum g = some o ∧ o.status = none ∧ (g.sumOps.map fun x => x.id).Nodup ∧ o.kind = kd ∧
      reached (reachObject s k.ctx g.die o.va false true) = true) ∧
    (∀ m ∈ [heavyMem, []], ∃ (s : State) (g : Group) (k : Kernel) (o : SumOp), groupAt s 0 = some g ∧
      kernelAt s g.kernel = some k ∧ nextSum g = some o ∧ o.status = none ∧ (g.sumOps.map fun x => x.id).Nodup ∧ o.kind = .h ∧
      reached (reachObject s k.ctx g.die o.va true true) = true ∧ o.vals ≠ [] ∧
      (Heavy.read (readObject s (coreKey g.die g.core) k.ctx o.va).1).isSome = !m.isEmpty) ∧
    (∃ (s : State) (g : Group) (o : SumOp), groupAt s 0 = some g ∧ g.sumOps.find? (fun x => x.id = 0) = some o ∧
      o.applied = some 0 ∧ o.status = none) ∧
    (∃ (s : State) (i : Iss) (o : SumOp), issOf s 0 0 = some i ∧ i.f.state = .waiting (.sumrd o.id) ∧ nextSum i.g = some o ∧
      o.kind = .rd 1 0 60 ∧ reached (reachObject s i.k.ctx i.g.die o.va true false) = true ∧
      (readObject s i.ck i.k.ctx o.va).2.groups = s.groups ∧
      (summaryQuery 1 0 (readObject s i.ck i.k.ctx o.va).1).isSome = true ∧ i.quiet s) :=
  let r := sSum (aSumOp (.rd 1 0 60)) (.waiting (.sumrd 0)) heavyMem
  let d := sSum { aSumOp .h with applied := some 0 } .ready []
  ⟨by
      intro kd h
      refine ⟨sSum (aSumOp kd) .ready [], (iAt (sSum (aSumOp kd) .ready [])).g, placedKernel, aSumOp kd, ?_⟩
      fin_cases h <;> decide +kernel,
   by
      intro m h
      refine ⟨sSum (aSumOp .h) .ready m, (iAt (sSum (aSumOp .h) .ready m)).g, placedKernel, aSumOp .h, ?_⟩
      rw [List.mem_cons, List.mem_singleton] at h
      rcases h with h | h <;> rw [h] <;> decide +kernel,
   ⟨d, (iAt d).g, { aSumOp .h with applied := some 0 }, by decide +kernel⟩,
   ⟨r, iAt r, aSumOp (.rd 1 0 60), by unfold Iss.quiet; decide +kernel⟩⟩

/-! ## Hypotheses met: the caravan and the splat units -/

/-- A neural record of one layer with one input and one output: its weights at 256 and its bias at 2304. -/
def netHeader : List Byte :=
  toBytes 4 1 ++ toBytes 60 0 ++ toBytes 4 256 ++ toBytes 4 2304 ++ toBytes 8 0 ++ toBytes 176 0

/-- A bound network entry for the record at an address. -/
def aNet (a refs : Nat) : NetEntry := { bound := true, addr := a, refs, gen := 0, header := netHeader, freeing := false }

/-- `sAt` with its fibre waiting in an NBIND of an argument into register 63, over a table and a memory. -/
def sBind (rel : Bool) (arg : Nat) (nets : Table NetEntry) (mem : List Host.Cell) : State :=
  { sInState (.waiting (.nbind rel arg 63)) with contexts := [(0, { rangeContext with nets := nets })], mem := mem }

/-- Its context. -/
def bindContext (nets : Table NetEntry) : Context := { rangeContext with nets := nets }

/-- A network table with every entry bound. -/
def fullNets : Table NetEntry := (List.range 1024).map fun j => (j, { aNet (j + 1) 1 with header := [] })

/-- That record in memory. -/
def netMem : List Host.Cell := Memory.writeN [] 0 netHeader

/-- An evaluation of `sAt`'s fibre into register V10 with one lane to place, or with lane 5 returned. -/
def anEval (place : Bool) : Eval :=
  { tex := false, gid := 0, fib := 0, core := 0, ctx := 0, flag := 1, out := 10, status := none, active := 0x21
    toPlace := if place then [(5, 0x80000000, [0x3F800000], false)] else [], waiting := 0
    results := if place then [] else [(5, [7])], faulted := if place then [] else [(0, 9)], window := 1000, frac := []
    chans := 1, handle := 0x80000000, mute := false }

/-- A tile of the record bound at index 0, with one row of that evaluation. -/
def aTile : CTile :=
  { core := 0, ctx := 0, handle := 0x80000000, openedAt := 0, window := 1000
    rows := [{ ev := 0, lane := 5, x := [0x3F800000], helper := false }], closed := false }

/-- `sAt` with an evaluation and tiles. -/
def sEval (e : Eval) (ts : Table CTile) : State :=
  { sWith (fun g => { g with flags := [(1, 1)] }) id with
    evals := [(0, e)], tiles := ts, nextId := 2, contexts := [(0, bindContext [(0, aNet 0 1)])] }

/-- A die's time moved on. -/
def later (s : State) : State := updDie s 0 fun d => { d with gt := 100000 }

/-- A state whose fibre waits in an NBIND of the record at 0, which its unit reads as `h`, under a table of entries. -/
def bindsFresh (nets : Table NetEntry) (mem : List Host.Cell) (h : List Byte) : Prop :=
  ∃ (s : State) (i : Iss) (x : Context), issOf s 0 0 = some i ∧ i.f.state = .waiting (.nbind false 0 63) ∧
    ctxAt s i.k.ctx = some x ∧ i.quiet s ∧ (∀ e ∈ x.nets, ¬(e.2.bound = true ∧ e.2.addr = 0)) ∧
    (translateCp s i.k.ctx 0).st ∉ [0, 7] ∧ (meetEngine s i.k.ctx i.g.die 0 0 256 false).isNone = true ∧
    (engineRead s i.k.ctx i.g.die ((translateCp s i.k.ctx 0).key s i.k.ctx i.g.die 0) 256).1 = h ∧
    (engineRead s i.k.ctx i.g.die ((translateCp s i.k.ctx 0).key s i.k.ctx i.g.die 0) 256).2.groups = s.groups ∧
    x.nets = nets ∧ s.mem = mem

theorem wit_CaravanEventsTakeEffect_bind :
    (∃ (s : State) (i : Iss) (c : Context) (e : NetEntry), issOf s 0 0 = some i ∧ i.f.state = .waiting (.nbind false 256 63) ∧
      ctxAt s i.k.ctx = some c ∧ i.quiet s ∧ c.nets.find? (fun e => e.2.bound ∧ e.2.addr = 256) = some (4, e) ∧
      Table.look c.nets 4 = some e) ∧
    (∃ (s : State) (i : Iss) (c : Context), issOf s 0 0 = some i ∧ i.f.state = .waiting (.nbind false 8 63) ∧
      ctxAt s i.k.ctx = some c ∧ i.quiet s ∧ (∀ e ∈ c.nets, ¬(e.2.bound = true ∧ e.2.addr = 8)) ∧ 8 % 256 ≠ 0) ∧
    (∃ (s : State) (i : Iss) (c : Context), issOf s 0 0 = some i ∧ i.f.state = .waiting (.nbind false 256 63) ∧
      ctxAt s i.k.ctx = some c ∧ i.quiet s ∧ (∀ e ∈ c.nets, ¬(e.2.bound = true ∧ e.2.addr = 256)) ∧
      (translateCp s i.k.ctx 256).st = 0) :=
  let bound := [(4, aNet 256 1)]
  let s : State := sBind false 256 bound []
  let t : State := { sBind false 8 [] [] with contexts := [(0, placedContext)] }
  let u : State := { sBind false 256 [] [] with contexts := [(0, placedContext)] }
  ⟨⟨s, iAt s, bindContext bound, aNet 256 1, by unfold Iss.quiet; decide +kernel⟩,
   ⟨t, iAt t, placedContext, by unfold Iss.quiet; decide +kernel⟩,
   ⟨u, iAt u, placedContext, by unfold Iss.quiet; decide +kernel⟩⟩

theorem wit_CaravanEventsTakeEffect_invalid :
    bindsFresh [] [] (List.replicate 256 0) ∧ netValid (List.replicate 256 0) = false := by
  refine ⟨⟨sBind false 0 [] [], iAt (sBind false 0 [] []), bindContext [], ?_⟩, by decide +kernel⟩
  unfold Iss.quiet
  decide +kernel

theorem wit_CaravanEventsTakeEffect_free : bindsFresh [] netMem netHeader ∧ netValid netHeader = true := by
  refine ⟨⟨sBind false 0 [] netMem, iAt (sBind false 0 [] netMem), bindContext [], ?_⟩, by decide +kernel⟩
  unfold Iss.quiet
  decide +kernel

theorem wit_CaravanEventsTakeEffect_full :
    ∃ (s : State) (i : Iss), issOf s 0 0 = some i ∧ i.f.state = .waiting (.nbind false 0 63) ∧
      ctxAt s i.k.ctx = some (bindContext fullNets) ∧ i.quiet s ∧ (∀ e ∈ fullNets, ¬(e.2.bound = true ∧ e.2.addr = 0)) ∧
      (translateCp s i.k.ctx 0).st ∉ [0, 7] := by
  refine ⟨sBind false 0 fullNets netMem, iAt (sBind false 0 fullNets netMem), by decide +kernel, by decide +kernel, rfl,
    ?_, ?_, by decide +kernel⟩
  · unfold Iss.quiet
    decide +kernel
  · decide +kernel

theorem look_numbered {α : Type} (f : Nat → α) (js : List Nat) (j : Nat) (h : j ∈ js) :
    Table.look (js.map fun j => (j, f j)) j = some (f j) := by
  induction js with
  | nil => cases h
  | cons a t ih =>
    rw [List.map_cons, Table.look]
    split
    · next e => rw [e]
    · next e => exact ih ((List.mem_cons.1 h).resolve_left fun x => e x.symm)

theorem wit_CaravanEventsTakeEffect_bound (j : Nat) (h : j < 1024) :
    ∃ e, Table.look fullNets j = some e ∧ (e.bound = true ∨ e.freeing = true) :=
  ⟨_, look_numbered _ _ j (List.mem_range.2 h), .inl rfl⟩

/-- A state whose fibre waits in an NBIND.REL of the handle of entry 0, which has `r` references, or is empty. -/
def releases (r : Nat) : Prop :=
  ∃ (s : State) (i : Iss) (c : Context), issOf s 0 0 = some i ∧ i.f.state = .waiting (.nbind true 0x80000000 63) ∧
    ctxAt s i.k.ctx = some c ∧ i.quiet s ∧ netInUse s i.k.ctx 0 = false ∧ BitVec.ofNat 32 0x80000000 = netHandle 0 0 ∧
    Table.look c.nets 0 = if r = 0 then none else some (aNet 0 r)

theorem wit_CaravanEventsTakeEffect_release : releases 2 ∧ releases 1 ∧ releases 0 :=
  let s (n : Table NetEntry) := sBind true 0x80000000 n []
  ⟨⟨s [(0, aNet 0 2)], iAt (s [(0, aNet 0 2)]), bindContext [(0, aNet 0 2)], by unfold Iss.quiet; decide +kernel⟩,
   ⟨s [(0, aNet 0 1)], iAt (s [(0, aNet 0 1)]), bindContext [(0, aNet 0 1)], by unfold Iss.quiet; decide +kernel⟩,
   ⟨s [], iAt (s []), bindContext [], by unfold Iss.quiet; decide +kernel⟩⟩

theorem wit_CaravanEventsTakeEffect_place :
    (∃ (s : State) (e : Eval), Table.look s.evals 0 = some e ∧ e.frac = [] ∧ e.toPlace = [(5, 0x80000000, [0x3F800000], false)] ∧
      (∀ t ∈ openTiles s e.core, tileDue s t.2 = false) ∧ e.window ≠ 0 ∧ (groupAt s e.gid).any (saveWanted s) = false ∧
      (openTiles s e.core).find? (fun t => t.2.ctx = e.ctx ∧ t.2.handle = 0x80000000) = some (1, aTile)) ∧
    (∃ (s : State) (e : Eval), Table.look s.evals 0 = some e ∧ e.frac = [] ∧ e.toPlace = [(5, 0x80000000, [0x3F800000], false)] ∧
      (∀ t ∈ openTiles s e.core, tileDue s t.2 = false) ∧ e.window ≠ 0 ∧ (groupAt s e.gid).any (saveWanted s) = false ∧
      (∀ t ∈ openTiles s e.core, ¬(t.2.ctx = e.ctx ∧ t.2.handle = 0x80000000)) ∧ (openTiles s e.core).length < 8) ∧
    (∃ (s : State) (t : CTile), Table.look s.tiles 1 = some t ∧ t.closed = false ∧ t.openedAt + t.window ≤ gtOf s (coreDie t.core)) :=
  ⟨⟨sEval (anEval true) [(1, aTile)], anEval true, by decide +kernel⟩,
   ⟨sEval (anEval true) [], anEval true, by decide +kernel⟩,
   ⟨later (sEval (anEval true) [(1, aTile)]), aTile, by decide +kernel⟩⟩

/-- That tile, closed. -/
def closedTile : CTile := { aTile with closed := true }

/-- Its row. -/
def aRow : CRow := { ev := 0, lane := 5, x := [0x3F800000], helper := false }

/-- Where an engine's read fails on poison (cause 1, range 0). -/
def failsAt (h : Halt) : Option Nat := match h with | .fail 1 0 a => some a | _ => none

theorem wit_CaravanEventsTakeEffect_tile :
    (∃ (s : State) (t : CTile) (c : Context) (e : NetEntry) (r : CRow) (v : Eval) (m : List Byte × List Byte),
      Table.look s.tiles 1 = some t ∧ t.closed = true ∧ ctxAt s t.ctx = some c ∧
      Table.look c.nets (t.handle.toNat % 1024) = some e ∧ t.rows = [r] ∧ Table.look s.evals r.ev = some v ∧
      (tileHalts s t e).isEmpty = true ∧ netLayers e.header = 1 ∧
      pagePieces (e.addr + layerW e.header 0) (layerBytes e.header 0) = [(e.addr + layerW e.header 0, layerBytes e.header 0)] ∧
      pagePieces (e.addr + layerB e.header 0) (4 * layerOut e.header 0) = [(e.addr + layerB e.header 0, 4 * layerOut e.header 0)] ∧
      homeBytesAre s t.ctx (coreDie t.core) (e.addr + layerW e.header 0) (layerBytes e.header 0) m.1 ∧
      homeBytesAre s t.ctx (coreDie t.core) (e.addr + layerB e.header 0) (4 * layerOut e.header 0) m.2) ∧
    (∃ (s : State) (t : CTile) (c : Context) (e : NetEntry) (r : CRow) (v : Eval), Table.look s.tiles 1 = some t ∧
      t.closed = true ∧ ctxAt s t.ctx = some c ∧ Table.look c.nets (t.handle.toNat % 1024) = some e ∧ t.rows = [r] ∧
      Table.look s.evals r.ev = some v ∧ r.helper = false ∧
      (tileHalts s t e).map failsAt = [some 256]) :=
  let ok : State := sEval (anEval false) [(1, closedTile)]
  let bad : State := { ok with poison := [2] }
  ⟨⟨ok, closedTile, bindContext [(0, aNet 0 1)], aNet 0 1, aRow, anEval false, (List.replicate 2048 0, [0, 0, 0, 0]),
      by unfold homeBytesAre lineSettled; and_intros <;> decide +kernel⟩,
   ⟨bad, closedTile, bindContext [(0, aNet 0 1)], aNet 0 1, aRow, anEval false, by decide +kernel⟩⟩

theorem wit_CaravanEventsTakeEffect_written :
    (∀ tex ∈ [false, true], ∃ (s : State) (e : Eval) (g : Group), Table.look s.evals 0 = some e ∧ e.over_ ∧
      groupAt s e.gid = some g ∧ Table.wf g.v 0 = true ∧ e.tex = tex ∧ (∀ x ∈ g.landed, x.1 ≠ 0)) ∧
    (∃ (s : State) (o : Op) (g : Group), Table.look s.evals 0 = none ∧ Table.look s.ops 0 = some o ∧ o.kind = .tex ∧
      o.complete = true ∧ groupAt s o.gid = some g ∧ o.dest = .lane (.v 188) 4 ∧ (188 : Fin 192).val + 4 ≤ 192 ∧
      Table.wf g.v 0 = true ∧ (∀ x ∈ g.landed, x.1 ≠ 0)) :=
  let tx : Op := { kind := .tex, ident := 0, gid := 0, fib := 0, core := 0, ctx := 0, flag := 1, dest := .lane (.v 188) 4, size := 16
                   signed := false, lanes := 1, zero := 0, pieces := [], base := [], skip := [], overlay := [], got := []
                   scope := 0, acquire := false, copies := [] }
  let ts : State := { sWith (fun g => { g with flags := [(1, 1)] }) id with ops := [(0, tx)] }
  ⟨by
      intro tex h
      refine ⟨sEval { anEval false with tex := tex } [], { anEval false with tex := tex },
        (iAt (sEval { anEval false with tex := tex } [])).g, ?_⟩
      fin_cases h <;> exact ⟨by decide +kernel, by unfold Eval.over_; decide +kernel, by decide +kernel⟩,
   ⟨ts, tx, (iAt ts).g, by decide +kernel⟩⟩

/-- A frame of 16 by 16 pixels, its image at 0x10000 and its one bin of two records at 0x20000. -/
def aFrameDesc : List Byte :=
  toBytes 4 1 ++ toBytes 4 0x000F000F ++ toBytes 8 0x10000 ++ toBytes 4 16 ++ toBytes 4 1 ++ toBytes 8 0x20000 ++ toBytes 32 0

/-- That frame open on die 0, its descriptor at address 0. -/
def aFrame (fl : Option Nat) : Frame :=
  { die := 0, ctx := 0, va := 0, isOpen := true, desc := aFrameDesc, omap := [], rejected := none, ctr := 5, culled := 2
    dropped := 0, flush := fl, sentTo := [(0, 0, 1)], filed := [(0, 0, 1)], tokens := [(0, 0, 320)], bad := none, ready := []
    flushed := false }

/-- A SPLAT of lane 63 of `sAt`'s fibre, its record in registers 184 to 191. -/
def aSplat (taken : Bool) : SplatOp :=
  { id := 0, gid := 0, fib := 0, rec0 := 184, lanes := 1 <<< 63, va := 0, flag := 1, taken, status := none }

/-- A splat's words: one pixel wide, at the frame's centre, opaque. -/
def splatWords : Table Word :=
  [(0x41000000 : Word), 0x41000000, 0x3C00, 0x3C00, 0x3F800000, 0, 0x3C000000, 0].zipIdx.map fun e => ((184 + e.2) * 64 + 63, e.1)

/-- `sAt` with that frame and that SPLAT. -/
def sSplat (o : SplatOp) (v : Table Word) : State :=
  { sWith (fun g => { g with flags := [(1, 1)], v := v }) id with
    splats := [(0, o)], frames := [(0, aFrame none)], contexts := [(0, rangeContext)], nextId := 9 }

/-- A record of that frame on the splat network. -/
def aRec : SplatRec := { ident := groupIdent (placedGroup 0), ctx := 0, va := 0, fromRank := 0, toDie := 0, token := 320, bytes := toBytes 32 7, tiles := [0] }

/-- `sAt` with that record, and a bin that counts `n`. -/
def sRec (n : Nat) : State :=
  { sAt with recs := [(0, aRec)], frames := [(0, aFrame none)], contexts := [(0, rangeContext)]
             mem := Memory.writeN [] 0x20000 (toBytes 4 n) }

/-- A flush of that frame by `sAt`'s fibre, with its status into register 63. -/
def aFlush (reached fwd : List Nat) : Flush :=
  { ctx := 0, va := 0, die := 0, gid := 0, fib := 0, token := 63, flag := 1, reached, lists := [], forwarded := fwd, tilesDone := []
    wct := 0, opaq := 0x3F7F0000, bad := none, rejected := none }

/-- `sAt` with that flush, and with frames. -/
def sFlush (x : Flush) (fs : Table Frame) : State :=
  { sWith (fun g => { g with flags := [(1, 1)], tokens := [(63, 0)] }) id with
    flushes := [(0, x)], frames := fs, contexts := [(0, rangeContext)] }

/-- Whether an access of a die meets nothing that stops it. -/
def meetsNothing (h : Option Halt) : Bool := h.isNone

theorem wit_SplatEventsTakeEffect_submit :
    (∀ n ∈ [(0 : Nat), 1], ∃ (s : State) (o : SplatOp) (g : Group) (k : Kernel) (f : Frame), Table.look s.splats 0 = some o ∧
      groupAt s o.gid = some g ∧ kernelAt s g.kernel = some k ∧ o.taken = false ∧
      (∀ e ∈ s.splats, e.1 < 0 → e.2.gid = o.gid → e.2.taken = true) ∧ frameOn s k.ctx o.va g.die = some (0, f) ∧
      Table.look s.frames 0 = some f ∧ f.isOpen = true ∧ f.flush = none ∧ f.rejected = none ∧ Mask.lanes o.lanes = [63] ∧
      binTiles f.desc (laneRecord g o.rec0 63) = List.replicate n 0) ∧
    (∃ (s : State) (o : SplatOp) (g : Group), Table.look s.splats 0 = some o ∧ o.taken = true ∧ o.status = none ∧
      groupAt s o.gid = some g) := by
  refine ⟨?_, sSplat (aSplat true) [], aSplat true, (iAt (sSplat (aSplat true) [])).g, by decide +kernel⟩
  intro n h
  refine ⟨sSplat (aSplat false) (if n = 0 then [] else splatWords), aSplat false,
    (iAt (sSplat (aSplat false) (if n = 0 then [] else splatWords))).g, placedKernel, aFrame none, ?_⟩
  fin_cases h <;> decide +kernel

theorem wit_SplatEventsTakeEffect_file :
    ∀ n ∈ [(2 : Nat), 0], ∃ (s : State) (r : SplatRec) (f : Frame), Table.look s.recs 0 = some r ∧
      (∀ e ∈ s.recs, e.2.ctx = r.ctx → e.2.va = r.va → e.2.fromRank = r.fromRank → e.2.toDie = r.toDie → r.token ≤ e.2.token) ∧
      underWay s 2 0 0 ((ctxRanks s r.ctx).getD r.fromRank 0) r.toDie = false ∧ frameOn s r.ctx r.va ((ctxRanks s r.ctx).getD r.fromRank 0) = some (0, f) ∧
      (fileWait s r.ctx r.toDie f.desc r).isNone = true ∧ frameOn s r.ctx r.va r.toDie = some (0, f) ∧
      Table.look s.frames 0 = some f ∧ r.tiles = [0] ∧
      (match dieGet s r.ctx r.toDie (binAt f.desc 0) 4 with | (.ok c, _) => ofBytes c | _ => 9) = n ∧
      meetsNothing (dieHalt s r.ctx r.toDie (binAt f.desc 0 + 32 + 32 * n) 32) = true ∧
      meetsNothing (dieHalt s r.ctx r.toDie (binAt f.desc 0) 4) = true := by
  intro n h
  refine ⟨sRec n, aRec, aFrame none, ?_⟩
  fin_cases h <;> decide +kernel

theorem wit_SplatEventsTakeEffect_flush :
    (∃ (s : State) (x : Flush) (f : Frame), Table.look s.flushes 0 = some x ∧
      (∀ e ∈ s.flushes, e.1 < 0 → e.2.ctx = x.ctx → e.2.va ≠ x.va) ∧ 0 ∉ x.reached ∧ 0 ∈ ctxRanks s x.ctx ∧ underWay s 0 0 0 x.die 0 = false ∧ 0 = x.die ∧
      frameOn s x.ctx x.va 0 = some (0, f) ∧ Table.look s.frames 0 = some f ∧ f.isOpen = true) ∧
    (∃ (s : State) (x : Flush), Table.look s.flushes 0 = some x ∧
      (∀ d ∈ ctxRanks s x.ctx, d ∈ x.reached ∧ trafficHeld s d x.die = false)) ∧
    (∃ (s : State) (x : Flush) (g : Group), Table.look s.flushes 0 = some x ∧ (∀ d ∈ ctxRanks s x.ctx, d ∈ x.forwarded) ∧
      (∀ e ∈ s.frames, e.2.ctx = x.ctx → e.2.va = x.va → e.2.flush = some 0 → x.rejected = none →
        ∀ t ∈ ownedTiles s x.ctx e.2, t ∈ x.tilesDone) ∧ x.wct = 0 ∧ groupAt s x.gid = some g) :=
  let s := sFlush (aFlush [] []) [(0, aFrame none)]
  let t := sFlush (aFlush (List.range 36) []) [(0, aFrame (some 0))]
  let u := sFlush { aFlush (List.range 36) (List.range 36) with tilesDone := [0] } [(0, aFrame (some 0))]
  ⟨⟨s, aFlush [] [], aFrame none, by decide +kernel⟩, ⟨t, aFlush (List.range 36) [], by decide +kernel⟩,
   ⟨u, { aFlush (List.range 36) (List.range 36) with tilesDone := [0] }, (iAt u).g, by decide +kernel⟩⟩

/-- What a read gave, if it gave bytes. -/
def gotBytes (r : Except Halt (List Byte) × State) : Option (List Byte) :=
  match r.1 with
  | .ok b => some b
  | _ => none

/-- That frame of one pixel, flushed. -/
def onePixel : Frame :=
  { aFrame (some 0) with desc := toBytes 4 1 ++ toBytes 4 0 ++ aFrameDesc.drop 8 }

/-- The flush with every list in, and the frame's one record in its bin. -/
def sTileReady : State :=
  { sFlush (aFlush (List.range 36) (List.range 36)) [(0, onePixel)] with
    mem := Memory.writeN (Memory.writeN [] 0x20000 (toBytes 4 1)) 0x20020
      (laneRecord { (iAt sAt).g with v := splatWords } 184 63) }

theorem wit_SplatEventsTakeEffect_composite :
    ∃ (s : State) (x : Flush) (f : Frame) (c bs : List Byte), Table.look s.flushes 0 = some x ∧
      s.frames.find? (fun e => e.2.ctx = x.ctx ∧ e.2.va = x.va ∧ e.2.flush = some 0 ∧
        (ownedTiles s x.ctx e.2).contains 0) = some (0, f) ∧
      f.die ∈ x.forwarded ∧ 0 ∉ x.tilesDone ∧ tileFed x f 0 = true ∧
      gotBytes (dieGet s x.ctx f.die (binAt f.desc 0) 4) = some c ∧
      (let s1 := (dieGet s x.ctx f.die (binAt f.desc 0) 4).2
       let r2 := dieGet s1 x.ctx f.die (binAt f.desc 0 + 32) (32 * min (ofBytes c) (fdCap f.desc))
       let outs := (tileRows f.desc x.opaq.toNat 0 [bs]).map fun r => (r.1, r.2.2.flatMap fun p => pixelBytes p.2)
       gotBytes r2 = some bs ∧ (∀ r ∈ outs, meetsNothing (dieHalt r2.2 x.ctx f.die r.1 r.2.length) = true) ∧
       meetsNothing (dieHalt r2.2 x.ctx f.die (binAt f.desc 0) 4) = true ∧
       meetsNothing (dieHalt (outs.foldl (fun s r => (diePut s x.ctx f.die r.1 r.2).2) r2.2) x.ctx f.die (binAt f.desc 0) 4) = true) :=
  ⟨sTileReady, aFlush (List.range 36) (List.range 36), onePixel, [1, 0, 0, 0], laneRecord { (iAt sAt).g with v := splatWords } 184 63,
    by decide +kernel⟩

/-- `sAt` with that frame flushed and with ready tiles. -/
def sTiles (rs : List ReadyTile) : State :=
  { sAt with frames := [(0, { aFrame none with flushed := true, ready := rs })], contexts := [(0, rangeContext)] }

/-- Tile 0, with no pixels, claimed or not. -/
def readyTile (claimed : Bool) : ReadyTile := { tile := 0, pixels := [], quads := 0, claimed, wct := 0 }

theorem wit_SplatWordsAreEntered_tiles :
    ∀ rs ∈ [[readyTile true], [readyTile false], []], ∃ (s : State) (i : Iss) (fr : Frame), (i.modified s Mods.plain ∧ i.f.buffer = [] ∧
      i.f.chain = none ∧ i.settled ([62, 63] ++ (List.range 4).map (60 + ·))) ∧
      frameOn s i.k.ctx (i.g.readPair 62).toNat i.g.die = some (0, fr) ∧ Table.look s.frames 0 = some fr ∧ fr.flushed = true ∧
      fr.ready = rs ∧ ownedTiles s i.k.ctx fr = [0] := by
  intro rs h
  refine ⟨sTiles rs, iAt (sTiles rs), { aFrame none with flushed := true, ready := rs }, ?_, ?_⟩
  · unfold Iss.modified Iss.quiet Iss.settled
    fin_cases h <;> decide +kernel
  · fin_cases h <;> decide +kernel

/-! ## Hypotheses met: the Courier -/

/-- A program descriptor with its step list at 0x400, its address registers A0 to A3 at 0x1000, 0x2000, 0x3000 and 0x4000,
and its first Ethernet peer behind port 0. -/
def aProgram : List Byte :=
  toBytes 4 1 ++ toBytes 4 0 ++ toBytes 8 0x400 ++ toBytes 48 0 ++
    ((List.range 4).flatMap fun j => toBytes 8 (0x1000 * (j + 1)) ++ toBytes 8 0) ++ toBytes 128 0

/-- A step's word: its kind, its RTYPE, its registers AREG and BREG, and its low word; it counts at counter 3. -/
def aStep (kind rtype : Nat) (a b : Nat) (low : Nat) : DWord :=
  BitVec.ofNat 64 (kind * 2 ^ 60 + (if kind = 0 ∨ kind = 1 ∨ kind = 2 ∨ kind = 8 then 3 * 2 ^ 55 else 0) + rtype * 2 ^ 52 + a * 2 ^ 48 +
    b * 2 ^ 45 + low)

/-- A running slot 0 of `sAt`'s context. -/
def aSlot : CSlot :=
  { ctx := 0, slot := 0, state := .running, code := 0, rank := 0, step := 0, die := 0, gid := 0, fib := 0, flag := 1, token := 63
    dens := 0x2000, root := 0, nsteps := 2, desc := aProgram, wct := 0 }

/-- Its instance on die 0, at a step. -/
def anInst (w : DWord) : CInst :=
  { slotKey := 0, rank := 0, die := 0, steps := [w, 0xA000000000000000], n := [], pc := 0, i := 0, head := none, count := 0, armed := []
    fired := [], wct := 0, localWct := 0, halted := false, stopped := false }

/-- `sAt` with that slot and instances. -/
def sCourier (x : CSlot) (is : List CInst) : State :=
  { sWith (fun g => { g with flags := [(1, 1)], tokens := [(63, 0)] }) id with
    slots := [(0, x)], insts := is, contexts := [(0, rangeContext)], nextId := 1 }

/-- Whether a read gave bytes. -/
def readsBytes (r : Except Halt (List Byte) × State) : Bool := match r with | (.ok _, _) => true | _ => false

/-- A state whose instance stands at a step. -/
def sStep (w : DWord) : State := sCourier aSlot [anInst w]

/-- The same with the instance's second step triggered, and inside a loop of two. -/
def sStep2 (w v : DWord) : State :=
  sCourier aSlot [{ anInst w with steps := [w, v, 0xA000000000000000], head := some 0, count := 2 }]

theorem wit_CourierStepsTakeEffect_send :
    (∀ low ∈ [0x40010000, 0x20000000], ∃ (s : State) (x : CSlot) (i : CInst) (w : DWord), AtStep s 0 0 0 x i w ∧ stKind w = 0 ∧
      readsBytes (readBuffer s x i w (stepBuffer x (stA w) 0 w i.i)) = true ∧
      peerOf s x 0 w = if low = 0x40010000 then .rank 1 0 else .ether 0) ∧
    (∀ low ∈ [0x40010000, 0x20000000], ∃ (s : State) (x : CSlot) (i : CInst) (w : DWord), AtStep s 0 0 0 x i w ∧ stKind w = 2 ∧
      readsBytes (readBoth s x i w (stOff w i.i)) = true ∧
      peerOf s x 0 w = if low = 0x40010000 then .rank 1 0 else .ether 0) ∧
    (∃ (s : State) (x : CSlot) (i : CInst) (w : DWord), AtStep s 0 0 0 x i w ∧ stKind w = 0 ∧ peerOf s x 0 w = .skip) ∧
    (∃ (s : State) (x : CSlot) (i : CInst) (w : DWord), AtStep s 0 0 0 x i w ∧ stKind w = 2 ∧ peerOf s x 0 w = .skip) := by
  refine ⟨?_, ?_, ?_, ?_⟩
  · intro low h
    refine ⟨sStep (aStep 0 0 0 1 low), aSlot, anInst (aStep 0 0 0 1 low), aStep 0 0 0 1 low, ?_⟩
    unfold AtStep
    fin_cases h <;> decide +kernel
  · intro low h
    refine ⟨sStep (aStep 2 1 0 1 low), aSlot, anInst (aStep 2 1 0 1 low), aStep 2 1 0 1 low, ?_⟩
    unfold AtStep
    fin_cases h <;> decide +kernel
  · refine ⟨sStep (aStep 0 0 0 1 0x1FFF0000), aSlot, anInst (aStep 0 0 0 1 0x1FFF0000), aStep 0 0 0 1 0x1FFF0000, ?_⟩
    unfold AtStep
    decide +kernel
  · refine ⟨sStep (aStep 2 1 0 1 0x1FFF0000), aSlot, anInst (aStep 2 1 0 1 0x1FFF0000), aStep 2 1 0 1 0x1FFF0000, ?_⟩
    unfold AtStep
    decide +kernel

theorem wit_CourierStepsTakeEffect_write :
    (∃ (s : State) (x : CSlot) (i : CInst) (w : DWord), AtStep s 0 0 0 x i w ∧ stKind w = 3 ∧
      readsBytes (readBoth s x i w (stOff w i.i)) = true ∧
      meetsNothing (dieHalt s x.ctx i.die (stepBuffer x (stB w) 0 w i.i) 64) = true) ∧
    (∃ (s : State) (x : CSlot) (i : CInst) (w : DWord), AtStep s 0 0 0 x i w ∧ stKind w = 4 ∧
      readsBytes (dieGet s x.ctx i.die (stepBuffer x (stA w) 0 w i.i) (stSize w)) = true ∧
      meetsNothing (dieHalt s x.ctx i.die (stepBuffer x (stB w) 0 w i.i) 64) = true) ∧
    (∃ (s : State) (x : CSlot) (i : CInst) (w : DWord), AtStep s 0 0 0 x i w ∧ stKind w = 9 ∧ i.wct = 0 ∧
      meetsNothing (dieHalt s x.ctx i.die (progAddr x.desc (stB w) 0) 4) = true) := by
  refine ⟨?_, ?_, ?_⟩
  · refine ⟨sStep (aStep 3 1 0 1 0xFFFF), aSlot, anInst (aStep 3 1 0 1 0xFFFF), aStep 3 1 0 1 0xFFFF, ?_⟩
    unfold AtStep
    decide +kernel
  · refine ⟨sStep (aStep 4 0 0 1 0), aSlot, anInst (aStep 4 0 0 1 0), aStep 4 0 0 1 0, ?_⟩
    unfold AtStep
    decide +kernel
  · refine ⟨sStep (aStep 9 0 0 1 5), aSlot, anInst (aStep 9 0 0 1 5), aStep 9 0 0 1 5, ?_⟩
    unfold AtStep
    decide +kernel

theorem wit_CourierStepsTakeEffect_control :
    (∃ (s : State) (x : CSlot) (i : CInst) (w : DWord), AtStep s 0 0 0 x i w ∧ stKind w = 1 ∧
      stThreshold w i.i ≤ Table.rd i.n 0 (stNc w)) ∧
    (∃ (s : State) (x : CSlot) (i : CInst) (w : DWord), AtStep s 0 0 0 x i w ∧ stKind w = 5 ∧
      (∀ d ∈ s.deliveries, d.2.slotKey = 0 → d.2.fromRank ≠ 0) ∧ i.fired = []) ∧
    (∃ (s : State) (x : CSlot) (i : CInst) (w : DWord), AtStep s 0 0 0 x i w ∧ stKind w = 6) ∧
    (∃ (s : State) (x : CSlot) (i : CInst) (w : DWord), AtStep s 0 0 0 x i w ∧ stKind w = 7) ∧
    (∃ (s : State) (x : CSlot) (i : CInst) (w : DWord), AtStep s 0 0 0 x i w ∧ stKind w = 8 ∧ i.armed = []) ∧
    (∃ (s : State) (x : CSlot) (i : CInst) (w : DWord), AtStep s 0 0 0 x i w ∧ stKind w = 10 ∧ i.armed = [] ∧ i.fired = [] ∧
      (∀ d ∈ s.deliveries, d.2.slotKey = 0 → d.2.fromRank ≠ 0) ∧ (i.wct = 0 ∨ i.wct < gtOf s i.die)) := by
  let loop (w v : DWord) : CInst := { anInst w with steps := [w, v, 0xA000000000000000], head := some 0, count := 2 }
  let c : Nat := 1 * 2 ^ 32 + 5
  refine ⟨?_, ?_, ?_, ?_, ?_, ?_⟩
  · refine ⟨sStep (aStep 1 0 0 0 0), aSlot, anInst (aStep 1 0 0 0 0), aStep 1 0 0 0 0, ?_⟩
    unfold AtStep
    decide +kernel
  · refine ⟨sStep (aStep 5 0 0 0 0), aSlot, anInst (aStep 5 0 0 0 0), aStep 5 0 0 0 0, ?_⟩
    unfold AtStep
    decide +kernel
  · refine ⟨sStep (aStep 6 0 0 0 0xFFFF), aSlot, anInst (aStep 6 0 0 0 0xFFFF), aStep 6 0 0 0 0xFFFF, ?_⟩
    unfold AtStep
    decide +kernel
  · refine ⟨sStep2 (aStep 7 0 0 0 0) 0, aSlot, loop (aStep 7 0 0 0 0) 0, aStep 7 0 0 0 0, ?_⟩
    unfold AtStep
    decide +kernel
  · refine ⟨sStep2 (aStep 8 0 0 0 c) (aStep 4 0 0 1 0 + 2 ^ 59), aSlot, loop (aStep 8 0 0 0 c) (aStep 4 0 0 1 0 + 2 ^ 59),
      aStep 8 0 0 0 c, ?_⟩
    unfold AtStep
    decide +kernel
  · refine ⟨sStep (aStep 10 0 0 0 0), aSlot, anInst (aStep 10 0 0 0 0), aStep 10 0 0 0 0, ?_⟩
    unfold AtStep
    decide +kernel

/-- A command at the head of die 0's Courier queue. -/
def aCmd (va : Nat) : CCmd :=
  { die := 0, ctx := 0, va, gid := 0, fib := 0, flag := 1, token := 63, dens := 0x2000, held := false, prog := none, desc := none }

/-- `sAt` with that command, and its program in memory. -/
def sCmd (va : Nat) : State :=
  { sCourier aSlot [] with slots := [], cqueue := [(0, aCmd va)], mem := Memory.writeN (Memory.writeN [] 0 aProgram) 0x400 (toBytes 8 (10 * 2 ^ 60)) }

/-- A delivery on its way from rank 1 to that instance. -/
def aDelivery (v : Option Nat) : Delivery :=
  { slotKey := 0, fromRank := 1, step := 0, toRank := 0, nc := 3, va := 0x2000, data := toBytes 64 9, eth := none, applied := v }

theorem wit_CourierEventsTakeEffect_setup :
    (∃ (s : State) (c : CCmd), Table.look s.cqueue 0 = some c ∧ (∀ e ∈ s.cqueue, e.1 < 0 → e.2.die ≠ c.die) ∧ c.held = false ∧
      c.prog = none ∧ c.va % 64 = 0 ∧ gotBytes (dieGet s c.ctx c.die c.va 256) = some aProgram ∧
      progOk (ctxRanks s c.ctx).length aProgram = true ∧
      gotBytes (dieGet (dieGet s c.ctx c.die c.va 256).2 c.ctx c.die (rec64 aProgram 8) (8 * progSteps aProgram)) = some (toBytes 8 (10 * 2 ^ 60)) ∧
      Table.look s.slots (c.ctx * 16 + 0) = none ∧ ∀ i ∈ s.insts, i.slotKey ≠ c.ctx * 16 + 0) ∧
    (∃ (s : State) (c : CCmd), Table.look s.cqueue 0 = some c ∧ c.held = false ∧ c.prog = none ∧ c.desc = some aProgram ∧
      gotBytes (dieGet s c.ctx c.die (rec64 aProgram 8) (8 * progSteps aProgram)) = some (toBytes 8 (10 * 2 ^ 60))) ∧
    (∃ (s : State) (c : CCmd) (g : Group), Table.look s.cqueue 0 = some c ∧ (∀ e ∈ s.cqueue, e.1 < 0 → e.2.die ≠ c.die) ∧
      c.held = false ∧ c.prog = none ∧ c.desc = none ∧ c.va % 64 ≠ 0 ∧ groupAt s c.gid = some g) ∧
    (∃ (s : State) (x : CSlot) (g : Group), Table.look s.slots 0 = some x ∧ x.state = .settingUp ∧ groupAt s x.gid = some g ∧
      ∀ i ∈ s.insts, i.slotKey = 0 → trafficHeld s x.die i.die = false ∧ trafficHeld s i.die x.die = false) :=
  let b := sCourier { aSlot with state := .settingUp } []
  let r : CCmd := { aCmd 0 with desc := some aProgram }
  ⟨⟨sCmd 0, aCmd 0, by decide +kernel⟩, ⟨{ sCmd 0 with cqueue := [(0, r)] }, r, by decide +kernel⟩, ⟨sCmd 8, aCmd 8, (iAt (sCmd 8)).g, by decide +kernel⟩,
   ⟨b, { aSlot with state := .settingUp }, (iAt b).g, by decide +kernel⟩⟩

theorem wit_CourierEventsTakeEffect_delivery :
    (∃ (s : State) (d : Delivery) (x : CSlot) (i : CInst), Table.look s.deliveries 0 = some d ∧
      Table.look s.slots d.slotKey = some x ∧ instAt s d.slotKey d.toRank = some i ∧ d.eth = none ∧ d.applied = none ∧
      (∀ e ∈ s.deliveries, e.1 < 0 → e.2.applied = none → e.2.slotKey ≠ d.slotKey) ∧
      meetsNothing (dieHalt s x.ctx i.die d.va d.data.length) = true ∧ deliveryHeld s 0 d = false) ∧
    (∃ (s : State) (d : Delivery) (x : CSlot) (i : CInst), Table.look s.deliveries 0 = some d ∧
      Table.look s.slots d.slotKey = some x ∧ instAt s d.slotKey d.toRank = some i ∧ d.eth = none ∧ d.applied = some 9 ∧
      (∀ e ∈ s.deliveries, e.1 < 0 → e.2.slotKey ≠ d.slotKey) ∧ 9 < gtOf s i.die ∧ x.state = .running ∧ i.armed = []) :=
  let s (v : Option Nat) : State :=
    updDie { sStep 0 with deliveries := [(0, aDelivery v)] } 0 fun d => { d with gt := 10 }
  ⟨⟨s none, aDelivery none, aSlot, anInst 0, by decide +kernel⟩, ⟨s (some 9), aDelivery (some 9), aSlot, anInst 0, by decide +kernel⟩⟩

theorem wit_CourierEventsTakeEffect_end :
    (∃ (s : State) (x : CSlot) (i : CInst), Table.look s.slots 0 = some x ∧ x.state = .running ∧ instAt s 0 0 = some i ∧
      atStep s i 0 = true ∧ stepFault s x i 0 = some 3 ∧ ∀ j ∈ s.insts, j.slotKey = 0 → trafficHeld s i.die j.die = false) ∧
    (∃ (s : State) (x : CSlot) (i : CInst), Table.look s.slots 0 = some x ∧ x.state = .running ∧ instAt s 0 0 = some i ∧
      ∃ e ∈ s.deliveries, e.2.slotKey = 0 ∧ e.2.fromRank = 0 ∧ e.2.step % 4096 = 0 ∧ e.2.eth.isSome = true) ∧
    (∀ c ∈ [((1, 0x0C) : Nat × Nat), (2, 0x07), (3, 0x01), (4, 0x01)], ∃ (s : State) (x : CSlot) (g : Group) (f : Fibre),
      Table.look s.slots 0 = some x ∧ x.state = .stopped ∧ groupAt s x.gid = some g ∧ Table.look g.fibres x.fib = some f ∧
      (x.code, c.2) = c ∧ ∀ j ∈ s.insts, j.slotKey = 0 → (j.stopped = true ∨ j.halted = true) ∧ trafficHeld s j.die x.die = false) ∧
    (∃ (s : State) (x : CSlot) (g : Group), Table.look s.slots 0 = some x ∧ x.state = .running ∧
      (∀ i ∈ s.insts, i.slotKey = 0 → i.halted = true ∧ trafficHeld s i.die x.die = false) ∧ x.wct = 0 ∧ groupAt s x.gid = some g) := by
  refine ⟨⟨sStep 0xF000000000000000, aSlot, anInst 0xF000000000000000, by decide +kernel⟩,
    ⟨{ sStep 0 with deliveries := [(0, { aDelivery none with fromRank := 0, eth := some 0 })] }, aSlot, anInst 0, by decide +kernel⟩, ?_,
    ⟨sCourier aSlot [{ anInst 0 with halted := true }], aSlot, (iAt (sCourier aSlot [{ anInst 0 with halted := true }])).g, by decide +kernel⟩⟩
  intro c h
  refine ⟨sCourier { aSlot with state := .stopped, code := c.1 } [{ anInst 0 with stopped := true }], { aSlot with state := .stopped, code := c.1 },
    (iAt (sCourier { aSlot with state := .stopped, code := c.1 } [])).g,
    (iAt (sCourier { aSlot with state := .stopped, code := c.1 } [])).f, ?_⟩
  fin_cases h <;> decide +kernel

/-- That slot with `sAt`'s fibre waiting in a query of it. -/
def sQuery (slot : Nat) (nc : Option Nat) : State :=
  { sStep 0 with groups := (sInState (.waiting (.cquery slot nc 63))).groups }

theorem wit_CourierEventsTakeEffect_query :
    (∃ (s : State) (i : Iss) (x : CInst), fibreIss s 0 0 = some i ∧ i.f.state = .waiting (.cquery 0 (some 15) 63) ∧ i.quiet s ∧
      s.insts.find? (fun x => x.slotKey = i.k.ctx * 16 + 0 ∧ x.die = i.g.die) = some x) ∧
    (∃ (s : State) (i : Iss) (x : CSlot), fibreIss s 0 0 = some i ∧ i.f.state = .waiting (.cquery 0 none 63) ∧ i.quiet s ∧
      Table.look s.slots (i.k.ctx * 16 + 0) = some x ∧ x.code < 16 ∧ x.rank < 64) ∧
    (∃ (s : State) (i : Iss), fibreIss s 0 0 = some i ∧ i.f.state = .waiting (.cquery 15 none 63) ∧ i.quiet s ∧
      Table.look s.slots (i.k.ctx * 16 + 15) = none) :=
  ⟨⟨sQuery 0 (some 15), eAt (sQuery 0 (some 15)), anInst 0, by unfold Iss.quiet; decide +kernel⟩,
   ⟨sQuery 0 none, eAt (sQuery 0 none), aSlot, by unfold Iss.quiet; decide +kernel⟩,
   ⟨sQuery 15 none, eAt (sQuery 15 none), by unfold Iss.quiet; decide +kernel⟩⟩

/-- A state whose fibre issues a CARM of slot 0, which runs. -/
theorem wit_CarmRaisesItsCounter : ∃ (s : State) (x : CInst), runningOn s 0 0 = some x ∧ (issuing s).isSome = true :=
  ⟨sStep 0, anInst 0, by decide +kernel⟩

/-! ## Hypotheses met: kernels and groups -/

/-- An accepted packet of a kernel, which has begun. -/
def aPacket : Packet :=
  { seq := 0, bytes := toBytes 64 0, begun := true, ended := false, err := 0, kernel := some 0, wct := 0, lastRead := 0, worked := false
    copies := [] }

/-- A queue whose journal holds a packet. -/
def aQueue (p : Packet) : Queue :=
  { ring := 0x40000, log2n := 4, prio := 3, weight := 1, stale := 0, device := false, statusAt := 0, live := true, accept := 1, done := 0
    kmax := 1, lastKick := 0, kicked := false, oneTry := false, lastTry := 0, stalek := false, journal := [p], served := 0 }

/-- A context of one range, with that queue, and with a save area of 1 GiB. -/
def aContext : Context :=
  { rangeContext with queues := [(0, aQueue aPacket)], desc := toBytes 32 0 ++ toBytes 8 (2 ^ 30) ++ toBytes 216 0 }

/-- `sAt` with its kernel in another form, in that context. -/
def sKernel (x : Kernel) : State := { sAt with kernels := [(0, x)], contexts := [(0, aContext)] }

/-- Its kernel described, its record at 0. -/
def described : Kernel := { placedKernel with state := .described, readDone := false }

/-- Its kernel being staged, with one entry in its working set. -/
def stagingKernel : Kernel :=
  { placedKernel with state := .staging, record := putBytes placedRecord 0x100 (toBytes 4 0 ++ toBytes 4 1 ++ toBytes 8 128) }

/-- The outcome of a pass over a kernel's working set: `none` while it waits. -/
def staged (s : State) (x : Kernel) : Option (Option Nat) :=
  match (stagePass 0 x (worksetEntries x) [] s).1 with
  | .staged => some none
  | .fail j => some (some j)
  | _ => none

theorem wit_KernelEventsTakeEffect_record :
    (∃ (s : State) (x : Kernel), kernelAt s 0 = some x ∧ x.state = .described ∧ x.readDone = false ∧ ctxServed s x.ctx = true ∧
      x.recordAt % 512 ≠ 0) ∧
    (∃ (s : State) (x : Kernel) (bs : List Byte), kernelAt s 0 = some x ∧ x.state = .described ∧ x.readDone = false ∧
      ctxServed s x.ctx = true ∧ x.recordAt % 512 = 0 ∧ gotBytes (dieGet s x.ctx (ctxDie s x.ctx) x.recordAt 512) = some bs ∧
      packetAt (dieGet s x.ctx (ctxDie s x.ctx) x.recordAt 512).2 x.ctx x.queue x.seq = some aPacket) ∧
    (∃ (s : State) (x : Kernel) (p : Packet), kernelAt s 0 = some x ∧ x.state = .described ∧ x.readDone = true ∧
      packetAt s x.ctx x.queue x.seq = some p ∧ p.begun = true) := by
  refine ⟨⟨sKernel { described with recordAt := 64 }, { described with recordAt := 64 }, by decide +kernel⟩,
    ⟨{ sKernel described with mem := Memory.writeN [] 0 placedRecord }, described, placedRecord, by decide +kernel⟩,
    ⟨sKernel { described with readDone := true }, { described with readDone := true }, aPacket, by decide +kernel⟩⟩

theorem wit_KernelEventsTakeEffect_staging :
    (∃ (s : State) (x : Kernel), kernelAt s 0 = some x ∧ x.state = .staging ∧ ctxServed s x.ctx = true ∧ worksetEntries x = [] ∧
      x.stageStart + 1000 * x.wdog ≤ gtOf s (ctxDie s x.ctx)) ∧
    (∃ (s : State) (x : Kernel), kernelAt s 0 = some x ∧ x.state = .staging ∧ ctxServed s x.ctx = true ∧ staged s x = some none ∧
      (kernelAt (stagePass 0 x (worksetEntries x) [] s).2 0).isSome = true) ∧
    (∃ (s : State) (x : Kernel), kernelAt s 0 = some x ∧ x.state = .staging ∧ ctxServed s x.ctx = true ∧ staged s x = some (some 0) ∧
      (kernelAt (stagePass 0 x (worksetEntries x) [] s).2 0).isSome = true) := by
  refine ⟨⟨sKernel { placedKernel with state := .staging }, { placedKernel with state := .staging }, by decide +kernel⟩,
    ⟨sKernel stagingKernel, stagingKernel, by decide +kernel⟩,
    ⟨{ sKernel stagingKernel with poison := [0] }, stagingKernel, by decide +kernel⟩⟩

theorem wit_KernelEventsTakeEffect_watchdog :
    (∃ (s : State) (x : Kernel) (gr : Group), kernelAt s 0 = some x ∧ watchdogRuns s x = true ∧ 1000 * x.wdog ≤ x.count ∧
      s.barriers = [] ∧ s.groups = [(0, gr)] ∧ gr.kernel = 0 ∧ gr.state = .saved) ∧
    (∃ (s : State) (x : Kernel) (gr : Group) (y : Fibre), kernelAt s 0 = some x ∧ watchdogRuns s x = true ∧
      1000 * x.wdog ≤ x.count ∧ s.barriers = [] ∧ s.groups = [(0, gr)] ∧ gr.kernel = 0 ∧ gr.state = .begun ∧
      gr.fibres = [(0, y)] ∧ y.state = .ready ∧ y.traps = [] ∧ y.midChain = false ∧ y.doomed = false ∧ y.handler = none ∧ y.buffer = [] ∧
      (x.sample 1 ++ x.sample 0 : DWord) ≠ 0) ∧
    (∀ b ∈ [false, true], ∃ (s : State) (x : Kernel) (gr : Group) (y : Fibre), evaluating s 0 = b ∧ kernelAt s 0 = some x ∧ x.expired = some 0 ∧
      0 + 1000 * x.wdog ≤ gtOf s (ctxDie s x.ctx) ∧ x.state = .running ∧ s.groups = [(0, gr)] ∧ gr.kernel = 0 ∧
      gr.fibres = [(0, y)] ∧ y.state ≠ .ended ∧ s.barriers = [] ∧ x.pendingGroups = []) := by
  refine ⟨⟨{ sKernel placedKernel with groups := (sWith (fun g => { g with state := .saved }) id).groups }, placedKernel,
      (iAt (sWith (fun g => { g with state := .saved }) id)).g, by decide +kernel⟩,
    ⟨sKernel placedKernel, placedKernel, (iAt sAt).g, (iAt sAt).f, by decide +kernel⟩,
    ?_⟩
  intro b h
  refine ⟨{ sKernel { placedKernel with expired := some 0 } with evals := if b then [(0, anEval true)] else [] },
    { placedKernel with expired := some 0 }, (iAt sAt).g, (iAt sAt).f, ?_⟩
  fin_cases h <;> decide +kernel

theorem wit_KernelEventsTakeEffect_complete :
    ∀ a ∈ [(0 : Nat), 64], ∃ (s : State) (x : Kernel) (c : Context), kernelAt s 0 = some x ∧ x.state = .draining ∧
      x.isEnded = false ∧ ctxAt s x.ctx = some c ∧ c.state = .running ∧ (let r := writeBackCtx s x.ctx
       (∀ e ∈ r.2.writes, e.2.kernel ≠ 0) ∧ max r.1 x.wct = 0 ∧ kernelAt r.2 0 = some x ∧ r.2.contexts = s.contexts ∧
      ctxRanks r.2 x.ctx ≠ [] ∧ meetsNothing (dieHalt r.2 x.ctx (ctxDie r.2 x.ctx) a 32) = true) ∧
      x.crec.toNat = a := by
  intro a h
  refine ⟨sKernel { placedKernel with state := .draining, crec := BitVec.ofNat 64 a },
    { placedKernel with state := .draining, crec := BitVec.ofNat 64 a }, aContext, ?_⟩
  fin_cases h <;> decide +kernel

/-- A staged kernel of one group, with nothing placed. -/
def sToPlace : State :=
  { sKernel { placedKernel with state := .staged, pendingGroups := [(0, 0, 0)], placedAny := false } with groups := [], blocks := [] }

/-- Its kernel. -/
def toPlaceKernel : Kernel := { placedKernel with state := .staged, pendingGroups := [(0, 0, 0)], placedAny := false }

/-- The gangs that it waits to place, or to restore, and that none before them holds back. -/
def waitsFor (s : State) (x : Kernel) (fresh : Bool) : List Waiter :=
  (unheld (waiters s (kernelPart s x)) []).filter fun w => w.1 = 0 && w.2.2.2 = fresh

theorem wit_GroupEventsTakeEffect_place :
    ∃ (s s1 : State) (x x1 : Kernel) (c : Context), latchTiles s = s ∧ kernelAt s 0 = some x ∧ waitsFor s x true ≠ [] ∧
      placeFirst s 0 x (waitsFor s x true) = some s1 ∧ kernelAt s1 0 = some x1 ∧ hasGroups s1 0 = true ∧
      ctxAt s1 x.ctx = some c :=
  let t := (placeFirst sToPlace 0 toPlaceKernel (waitsFor sToPlace toPlaceKernel true)).getD sToPlace
  ⟨sToPlace, t, toPlaceKernel, { toPlaceKernel with pendingGroups := [] }, aContext, by decide +kernel⟩

/-- A record of `sAt`'s group at unit `off` of its context's save area, written or not. -/
def aRecord (off : Nat) (filled : Bool) : SaveRec :=
  { kind := .group, key := 0, ctx := 0, off, units := placedKernel.groupUnits, filled, slot := 0, badA := false, badB := false
    textA := [], textB := [] }

theorem no_bad_line {s : State} (h : s.poison = []) (h' : s.deadMem = []) (l : Nat) : badLine s l = false := by
  simp [badLine, deadLine, h, h']

theorem wit_GroupEventsTakeEffect_reserve :
    ∃ s t : State, reserveRecord s 0 .block 0 3 = some t ∧ s.saves ≠ [] :=
  let s : State := { sKernel placedKernel with saves := [aRecord 0 false] }
  ⟨s, (reserveRecord s 0 .block 0 3).getD s, by decide +kernel⟩

/-- A state whose one group is saved, having begun at 5, and whose context is as given. -/
def sSavedAt (f : Group → Group) (c : CState) : State :=
  { sKernel placedKernel with
    groups := (sWith f id).groups, contexts := [(0, { aContext with state := c })] }

theorem wit_GroupEventsTakeEffect_seat :
    (∃ (s : State) (x : Group) (d : Die), groupAt s 0 = some x ∧ x.state = .begun ∧ allEnded x = true ∧ groupQuiet s 0 x = true ∧
      dieAt s x.die = some d ∧ Table.wf d.gens 0 = true ∧ x.gen = 15 ∧ s.l1 = []) ∧
    (∃ (s : State) (d : Die), dieAt s 0 = some d ∧ d.draining.find? (fun x => x.1 = 0 * 32 + 5) = some (0 * 32 + 5, 7) ∧
      aheadOf s 7 = false) ∧
    (∃ (s : State) (x : Group) (k : Kernel) (c : Context), groupAt s 0 = some x ∧ kernelAt s x.kernel = some k ∧
      saveWanted s x = true ∧ x.state = .begun ∧ saveReady s 0 x = true ∧
      (let r := writeBackFor s 0 x k.ctx (!(s.groups.any fun e => e.1 ≠ 0 && e.2.block = x.block &&
        (e.2.state = .resident || e.2.state = .begun)))
       max r.1 x.savedAt = 0 ∧ groupAt r.2 0 = some x ∧ ctxAt r.2 k.ctx = some c ∧ aRecord 7 false ∈ r.2.saves ∧
       ∀ l : Nat, badLine r.2 l = false) ∧ c.saveABad = false) ∧
    (∃ (s s1 : State) (x : Group) (k : Kernel) (c : Context), groupAt s 0 = some x ∧ kernelAt s x.kernel = some k ∧
      x.state = .saved ∧ restorable s x.kernel k (k.gangOf x.s3 x.s2) = true ∧ ctxAt s k.ctx = some c ∧
      recordsLost s c (gangGroups s x.kernel k (k.gangOf x.s3 x.s2)) = false ∧
      restoreGang (readRecords s k.ctx c (gangGroups s x.kernel k (k.gangOf x.s3 x.s2))) x.kernel k (k.gangOf x.s3 x.s2) =
        some s1 ∧
      (∃ w ∈ unheld (waiters s (kernelPart s k)) [], w.1 = x.kernel ∧ w.2.1 = k.gangOf x.s3 x.s2 ∧ w.2.2.2 = false) ∧
      placing s k = true ∧ x.savedAt + starvOf s k.ctx ≤ gtOf s x.die) ∧
    (∀ st ∈ [GState.saved, .pending], ∃ (s s1 : State) (x : Group) (k : Kernel) (y : Group), x.state = st ∧ gangGroups s 0 k (k.gangOf x.s3 x.s2) = [(0, x)] ∧ k.expired = none ∧
      seatBlocks s k [(x.block, x.die)] = some s1 ∧ groupAt s1 0 = some y) :=
  let r := sSavedAt (fun g => { g with gen := 15, fibres := [(0, { placedFibre 0x84000000 with state := .ended })] }) .running
  let late s := updDie s 0 fun d => { d with gt := 100000000 }
  let p : State := { late (sSavedAt id .preempting) with saves := [aRecord 7 false] }
  let v := late (sSavedAt (fun g => { g with state := .saved, beganAt := 5 }) .running)
  let v1 := (restoreGang v 0 placedKernel (0, 0)).getD v
  have seats : ∀ st ∈ [GState.saved, .pending], ∃ (s s1 : State) (x : Group) (k : Kernel) (y : Group), x.state = st ∧
      gangGroups s 0 k (k.gangOf x.s3 x.s2) = [(0, x)] ∧ k.expired = none ∧ seatBlocks s k [(x.block, x.die)] = some s1 ∧
      groupAt s1 0 = some y := by
    intro st h
    let v := sSavedAt (fun g => { g with state := st, beganAt := 5 }) .running
    let v2 := (seatBlocks v placedKernel [(0, 0)]).getD v
    refine ⟨v, v2, (iAt v).g, placedKernel, (groupAt v2 0).getD (iAt v).g, ?_⟩
    fin_cases h <;> decide +kernel
  ⟨⟨r, (iAt r).g, Die.reset 0, by decide +kernel⟩,
   ⟨updDie sAt 0 fun d => { d with draining := [(5, 7)] }, { Die.reset 0 with draining := [(5, 7)] }, by decide +kernel⟩,
   ⟨p, (iAt p).g, placedKernel, { aContext with state := .preempting }, by decide +kernel, by decide +kernel, by decide +kernel,
      by decide +kernel, by decide +kernel, ⟨by decide +kernel, by decide +kernel, by decide +kernel, by decide +kernel,
        no_bad_line (by decide +kernel) (by decide +kernel)⟩, by decide +kernel⟩,
   ⟨v, v1, (iAt v).g, placedKernel, aContext, by decide +kernel⟩,
   seats⟩

/-! ## Hypotheses met: queues and packets -/

/-- A packet's bytes: its TYPE, its SEQ, its body, and its CHECK. -/
def pkBytes (ty sn : Nat) (body : List Byte) : List Byte :=
  let bs := toBytes 4 ty ++ toBytes 4 sn ++ toBytes 8 0 ++ body ++ List.replicate (48 - body.length) 0
  putBytes bs 8 (toBytes 4 (packetCheck bs))

/-- `sAt` with queue 1 of its context as given, in a memory. -/
def sQueue (u : Queue) (mem : List Host.Cell) : State :=
  { sAt with contexts := [(0, { rangeContext with queues := [(0, u), (1, u)] })], mem := mem, nextId := 7 }

/-- A queue that has been kicked to 1 and has accepted nothing. -/
def kickedQueue : Queue := { aQueue aPacket with accept := 0, kmax := 1, kicked := true, journal := [], stale := 1000 }

/-- The context of such a state. -/
def queueContext (u : Queue) : Context := { rangeContext with queues := [(0, u), (1, u)] }

/-- A memory that holds bytes at the slot of packet 1. -/
def slotMem (bs : List Byte) : List Host.Cell := Memory.writeN [] 0x40040 bs

/-- The same with die 0's time at 2 ms. -/
def sLate (s : State) : State := updDie s 0 fun d => { d with gt := 2000000 }

theorem wit_QueueEventsTakeEffect_host :
    (∀ dev ∈ [false, true], ∃ (s : State) (c : Context) (u : Queue), queueAt s 0 1 = some (c, u) ∧ u.device = dev) ∧
    (∃ (s : State) (c : Context) (u : Queue), queueAt s 0 1 = some (c, u) ∧ trying s 0 u = true ∧
      u.lastTry + 250 ≤ gtOf s (ctxDie s 0) ∧ (slotMatch s 0 u).1 = none ∧ queueAt (slotMatch s 0 u).2 0 1 = some (c, u)) ∧
    (∀ k ∈ [(0 : Word), 1], ∃ (s : State) (c : Context) (u : Queue), queueAt s 0 1 = some (c, u) ∧ u.kicked = true ∧
      ctxServed s 0 = true ∧ u.lastKick + 1000 * u.stale ≤ gtOf s (ctxDie s 0) ∧ (slotMatch s 0 u).1 = none ∧
      queueAt (slotMatch s 0 u).2 0 1 = some (c, u) ∧
      newer u.kmax.toNat u.next = decide (k = 0)) := by
  refine ⟨?_, ?_, ?_⟩
  · intro dev h
    refine ⟨sQueue { kickedQueue with device := dev } [], queueContext { kickedQueue with device := dev }, { kickedQueue with device := dev }, ?_⟩
    fin_cases h <;> decide +kernel
  · exact ⟨updDie (sQueue kickedQueue []) 0 fun d => { d with gt := 250 }, queueContext kickedQueue, kickedQueue, by decide +kernel⟩
  · intro k h
    refine ⟨sLate (sQueue { kickedQueue with kmax := k } []), queueContext { kickedQueue with kmax := k }, { kickedQueue with kmax := k }, ?_⟩
    fin_cases h <;> decide +kernel

theorem wit_QueueEventsTakeEffect_copies : ∃ (s : State) (a b : Nat) (rest : List Nat), ctxRanks s 0 = a :: b :: rest :=
  ⟨sAt, 0, 1, (List.range 36).drop 2, by decide +kernel⟩

theorem wit_QueueEventsTakeEffect_accept :
    ∀ ty ∈ [(1 : Nat), 8], ∃ (s : State) (c : Context) (u : Queue) (bs : List Byte), queueAt s 0 1 = some (c, u) ∧
      trying s 0 u = true ∧ (slotMatch s 0 u).1 = some bs ∧ queueAt (slotMatch s 0 u).2 0 1 = some (c, u) ∧ packetFault c 1 bs = 0 ∧ pkType bs = ty := by
  intro ty h
  refine ⟨sQueue kickedQueue (slotMem (pkBytes ty 1 [])), queueContext kickedQueue, kickedQueue, pkBytes ty 1 [], ?_⟩
  fin_cases h <;> decide +kernel

/-- A LAUNCH instruction of `sAt`'s fibre on its way, of the packet at 0x50000 to queue `q`. -/
def aLaunch (q : Nat) : LaunchOp := { ident := groupIdent (placedGroup 0), gid := 0, fib := 0, ctx := 0, va := 0x50000, queue := q, reg := 63, flag := 1 }

/-- `sAt` with that instruction, its queue 1 a device queue or not with ACCEPT as given. -/
def sLaunch (q ty : Nat) (dev : Bool) (accept : Word) : State :=
  { sQueue { kickedQueue with device := dev, accept := accept, kmax := 16 } (Memory.writeN [] 0x50000 (pkBytes ty 0 [])) with
    launches := [(0, aLaunch q)], groups := (sWith (fun g => { g with flags := [(1, 1)], tokens := [(63, 0)] }) id).groups }

theorem wit_QueueEventsTakeEffect_append :
    (∀ c ∈ [((1, 2, false, some (false, true)) : Nat × Nat × Bool × Option (Bool × Bool)), (5, 1, false, none), (1, 1, false, some (false, true)),
        (1, 1, true, some (true, true))],
      ∃ (s : State) (l : LaunchOp) (bs : List Byte) (g : Group), Table.look s.launches 0 = some l ∧
        (let r := dieGet s l.ctx (ctxDie s l.ctx) l.va 64
         groupAt r.2 l.gid = some g ∧ gotBytes r = some bs ∧ pkType bs = c.2.1 ∧
        (queueAt r.2 l.ctx l.queue).map (fun x => (x.2.device,
          decide (2 ^ x.2.log2n < ((x.2.kmax.toNat + 1) % 2 ^ 32 + 2 ^ 32 - x.2.accept.toNat) % 2 ^ 32))) = c.2.2.2)) ∧
    (∃ (s : State) (l : LaunchOp) (bs : List Byte) (g : Group) (c : Context) (u : Queue) (filled : List Byte),
      Table.look s.launches 0 = some l ∧
      (let r := dieGet s l.ctx (ctxDie s l.ctx) l.va 64
       groupAt r.2 l.gid = some g ∧ gotBytes r = some bs ∧ pkType bs = 1 ∧ queueAt r.2 l.ctx l.queue = some (c, u) ∧
      u.device = true ∧ (17 + 2 ^ 32 - u.accept.toNat) % 2 ^ 32 ≤ 2 ^ u.log2n ∧ (u.kmax.toNat + 1) % 2 ^ 32 = 17 ∧
      meetsNothing (dieHalt r.2 l.ctx (ctxDie s l.ctx) (u.slot 17) 64) = true ∧
      filled = putBytes (putBytes bs 4 (toBytes 4 17 ++ toBytes 4 0)) 8
        (toBytes 4 (packetCheck (putBytes bs 4 (toBytes 4 17 ++ toBytes 4 0)))) ∧
      groupAt (diePut r.2 l.ctx (ctxDie s l.ctx) (u.slot 17) filled).2 l.gid = some g)) := by
  refine ⟨?_, ?_⟩
  · intro c h
    refine ⟨sLaunch c.1 c.2.1 c.2.2.1 0, aLaunch c.1, pkBytes c.2.1 0 [], (iAt (sLaunch c.1 c.2.1 c.2.2.1 0)).g, ?_⟩
    fin_cases h <;> decide +kernel
  · exact ⟨sLaunch 1 1 true 1, aLaunch 1, pkBytes 1 0 [], (iAt (sLaunch 1 1 true 1)).g,
      queueContext { kickedQueue with device := true, accept := 1, kmax := 16 }, { kickedQueue with device := true, accept := 1, kmax := 16 },
      putBytes (putBytes (pkBytes 1 0 []) 4 (toBytes 4 17 ++ toBytes 4 0)) 8
        (toBytes 4 (packetCheck (putBytes (pkBytes 1 0 []) 4 (toBytes 4 17 ++ toBytes 4 0)))), by decide +kernel⟩

/-- A packet of the journal with its bytes, begun or not. -/
def jPacket (ty : Nat) (body : List Byte) (begun : Bool) : Packet :=
  { aPacket with seq := 1, bytes := pkBytes ty 1 body, begun, kernel := none }

/-- `sAt` with that packet alone in queue 0's journal, at 2 ms. -/
def sPacket (p : Packet) : State := sLate (sQueue { kickedQueue with accept := 1, journal := [p] } [])

/-- A doubleword of a packet's body. -/
def w8 (n : Nat) : List Byte := toBytes 8 n

theorem wit_PacketEventsTakeEffect_plain :
    (∀ ty ∈ [(1 : Nat), 8], runnable (sPacket (jPacket ty [] false)) 0 0 1 ty = some (jPacket ty [] false)) ∧
    (∃ (s : State) (p : Packet), runnable s 0 0 1 2 = some p ∧
      (gotBytes (dieGet s 0 (ctxDie s 0) (rec64 p.bytes 0x10) (rec64 p.bytes 0x20))).isSome = true ∧
      meetsNothing (dieHalt (dieGet s 0 (ctxDie s 0) (rec64 p.bytes 0x10) (rec64 p.bytes 0x20)).2 0 (ctxDie s 0) (rec64 p.bytes 0x18) (rec64 p.bytes 0x20)) = true) ∧
    (∀ b ∈ [false, true], ∃ (s : State) (p : Packet), runnable s 0 0 1 3 = some p ∧ p.begun = b ∧
      (gotBytes (dieGet s 0 (ctxDie s 0) (rec64 p.bytes 0x10) 4)).isSome = true ∧ bits (rec32 p.bytes 0x20) 2 2 = 0 ∧
      p.lastRead + 1000 ≤ gtOf s (ctxDie s 0)) ∧
    (∃ (s : State) (p : Packet), runnable s 0 0 1 4 = some p ∧ (translateCp s 0 (rec64 p.bytes 0x10)).scope ≠ 4 ∧
      (gotBytes (dieGet s 0 (ctxDie s 0) (rec64 p.bytes 0x10) 4)).isSome = true ∧ bits (rec32 p.bytes 0x20) 1 1 = 0 ∧
      meetsNothing (dieHalt (dieGet s 0 (ctxDie s 0) (rec64 p.bytes 0x10) 4).2 0 (ctxDie s 0) (rec64 p.bytes 0x10) 4) = true) := by
  refine ⟨?_, ?_, ?_, ?_⟩
  · intro ty h
    fin_cases h <;> decide +kernel
  · exact ⟨sPacket (jPacket 2 (w8 0x1000 ++ w8 0x2000 ++ w8 128) false), jPacket 2 (w8 0x1000 ++ w8 0x2000 ++ w8 128) false, by decide +kernel⟩
  · intro b h
    refine ⟨sPacket (jPacket 3 (w8 0x1000 ++ w8 5) b), jPacket 3 (w8 0x1000 ++ w8 5) b, ?_⟩
    fin_cases h <;> decide +kernel
  · exact ⟨sPacket (jPacket 4 (w8 0x1000 ++ w8 5) false), jPacket 4 (w8 0x1000 ++ w8 5) false, by decide +kernel⟩

theorem wit_PacketEventsTakeEffect_range :
    (∃ (s : State) (p : Packet), runnable s 0 0 1 5 = some p ∧
      ∀ g ∈ pagesOfRange s 0 (rec64 p.bytes 0x10) (rec64 p.bytes 0x18), pageStaged (rec32 p.bytes 0x20) g = true) ∧
    (∀ n ∈ [(0 : Nat), 64], ∃ (s : State) (p : Packet), runnable s 0 0 1 6 = some p ∧ p.begun = false ∧ rec64 p.bytes 0x18 = n ∧
      rec32 p.bytes 0x20 % 2 = 0) ∧
    (∃ (s : State) (p : Packet) (c : Context), runnable s 0 0 1 6 = some p ∧ p.begun = false ∧ rec32 p.bytes 0x20 % 2 = 1 ∧
      ctxAt s 0 = some c) ∧
    (∃ (s : State) (p : Packet), runnable s 0 0 1 6 = some p ∧ p.begun = true ∧
      (∀ e ∈ s.writes, e.1 < p.lastRead → e.2.ctx ≠ 0) ∧ (∀ e ∈ s.ops, e.1 < p.lastRead → e.2.ctx ≠ 0)) ∧
    (∃ (s : State) (p : Packet) (c : Context), runnable s 0 0 1 7 = some p ∧ ctxAt s 0 = some c ∧ rec64 p.bytes 0x18 = 0x10000 ∧
      (let snap := resyncBytes s c.part (gtOf s (ctxDie s 0))
       meetsNothing (dieHalt s 0 (ctxDie s 0) (rec64 p.bytes 0x10) (snap.1 ++ snap.2).length)) = true) := by
  refine ⟨?_, ?_, ?_, ?_, ?_⟩
  · exact ⟨sPacket (jPacket 5 (w8 0x1000 ++ w8 64 ++ w8 1) false), jPacket 5 (w8 0x1000 ++ w8 64 ++ w8 1) false, by decide +kernel⟩
  · intro n h
    refine ⟨sPacket (jPacket 6 (w8 0x1000 ++ w8 n) false), jPacket 6 (w8 0x1000 ++ w8 n) false, ?_⟩
    fin_cases h <;> decide +kernel
  · exact ⟨sPacket (jPacket 6 (w8 0 ++ w8 0 ++ w8 1) false), jPacket 6 (w8 0 ++ w8 0 ++ w8 1) false,
      queueContext { kickedQueue with accept := 1, journal := [jPacket 6 (w8 0 ++ w8 0 ++ w8 1) false] }, by decide +kernel⟩
  · exact ⟨sPacket (jPacket 6 (w8 0x1000) true), jPacket 6 (w8 0x1000) true, by decide +kernel⟩
  · exact ⟨sPacket (jPacket 7 (w8 0x10000 ++ w8 0x10000) false), jPacket 7 (w8 0x10000 ++ w8 0x10000) false,
      queueContext { kickedQueue with accept := 1, journal := [jPacket 7 (w8 0x10000 ++ w8 0x10000) false] }, by decide +kernel⟩

theorem wit_PacketEventsTakeEffect_end :
    ∃ (s : State) (c : Context) (u : Queue) (p : Packet), queueAt s 0 0 = some (c, u) ∧ u.journal = [p] ∧ p.worked = true ∧
      p.ended = false ∧ p.err = 0 ∧ pkNotify p.bytes = false ∧ pkType p.bytes ≠ 6 ∧ p.wct = 0 ∧ c.state = .running ∧
      u.done ≠ BitVec.ofNat 32 p.seq :=
  let p : Packet := { jPacket 8 [] true with worked := true }
  ⟨sPacket p, queueContext { kickedQueue with accept := 1, journal := [p] }, { kickedQueue with accept := 1, journal := [p] }, p, by decide +kernel⟩

/-! ## Hypotheses met: the provider's commands -/

/-- A well-formed context descriptor of number `n` and VF 1, with save copies on dies 0 and 1 and its queue table at 0x8000. -/
def aDesc (n : Nat) : List Byte :=
  [1, 0, 0, 0, BitVec.ofNat 8 n, 1, 0, 0] ++ ([0, 0, 0, 0, 0, 0, 0, 0, 0, 0, 0x10, 0, 0, 0, 0, 0] ++
    ([0, 0, 0, 0, 0x10, 0, 0, 0, 0, 0, 0x10, 0, 0, 0, 0, 0] ++ (List.replicate 16 0 ++
      ([0, 0x80, 0, 0, 0, 0, 0, 0, 0, 0, 0, 0, 0, 0, 0, 0, 16, 0, 0, 0, 0, 0, 0, 0] ++ (List.replicate 8 0 ++
        ([3, 0x10, 0, 0, 0, 0, 0, 0] ++ List.replicate 1952 0))))))

/-- A panel with one partition of the whole panel, and with that descriptor at 0x4000 of its host's memory. -/
def sProvider (n : Nat) (c : Table Context) : State :=
  { State.reset with partitions := [(0, placedPartition)], contexts := c, mem := Memory.writeN [] (physKey 1 0x4000) (aDesc n) }

theorem wit_ProviderCommandsTakeEffect_partition :
    (∃ s : State, s.pfReady ∧ (∃ d ∈ rectangle 4 0 2 6, dieActive s d = true) ∧
      (∀ p ∈ s.partitions, ∀ d ∈ rectangle 4 0 2 6, p.2.holds d = false)) ∧
    (∃ s : State, s.pfReady ∧ (∃ d ∈ rectangle 0 0 6 6, dieActive s d = true) ∧
      (∃ p ∈ s.partitions, ∃ d ∈ rectangle 0 0 6 6, p.2.holds d = true)) ∧
    (∃ (s : State) (x : Partition), s.pfReady ∧ partAt s 0 = some x ∧ (∀ c ∈ s.contexts, c.2.part ≠ 0)) ∧
    (∃ s : State, (mailboxOf s 1).busy = false) := by
  refine ⟨⟨State.reset, ?_⟩, ⟨sProvider 0 [], ?_⟩, ⟨sProvider 0 [], placedPartition, ?_⟩, ⟨State.reset, by decide +kernel⟩⟩ <;>
    (unfold State.pfReady; decide +kernel)

set_option maxRecDepth 100000 in
theorem wit_ProviderCommandsTakeEffect_create :
    (∃ (s : State) (x : Partition) (d tab : List Byte), s.pfReady ∧ partAt s 0 = some x ∧ x.closing = false ∧ 0x4000 % 2048 = 0 ∧
      (let r := readDesc s 0x4000
       r.1 = d ∧ r.2.1 = tab ∧ descOk r.2.2 x d = true ∧ (∀ q : Nat, q < 64 → qdescOk (qdesc tab q) = true) ∧
      (∀ c ∈ r.2.2.contexts, ¬(c.2.part = 0 ∧ c.2.state ≠ .destroyed ∧
        (c.2.num = bits (rec32 d 4) 3 0 ∨ c.2.vf = bits (rec32 d 4) 15 8))) ∧
      ctxAt r.2.2 (0 * 16 + bits (rec32 d 4) 3 0) = none)) ∧
    (∃ (s : State) (x : Partition) (c : Context) (d tab : List Byte), s.pfReady ∧ partAt s 0 = some x ∧ ctxAt s (0 * 16 + 0) = some c ∧
      c.state ≠ .destroyed ∧ c.state ≠ .lost ∧ c.tdi = .unlocked ∧ c.saveABad = false ∧ c.saveBBad = false ∧
      (let r := readDesc s 0x4000
       r.1 = d ∧ r.2.1 = tab ∧ ctxAt r.2.2 (0 * 16 + 0) = some c ∧
      descOk r.2.2 x (putBytes d 0x004 (toBytes 4 (rec32 c.desc 0x004) ++ toBytes 8 (rec64 d 0x008) ++
        toBytes 8 (rec64 c.desc 0x010) ++ toBytes 8 (rec64 c.desc 0x018))) = true ∧
      (∀ q : Nat, q < 64 → qdescOk (qdesc tab q) = true))) := by
  let c : Context := { placedContext with desc := aDesc 0 }
  refine ⟨⟨sProvider 15 [], placedPartition, aDesc 15, List.replicate 2048 0, ?_⟩,
    ⟨sProvider 0 [(0, c)], placedPartition, c, aDesc 0, List.replicate 2048 0, ?_⟩⟩ <;>
    (unfold State.pfReady; decide +kernel)

theorem wit_ProviderCommandsTakeEffect_state :
    (∀ c ∈ [CState.created, .ready, .saved, .destroyed], ∃ (s : State) (x : Context), s.pfReady ∧ ctxAt s (0 * 16 + 0) = some x ∧
      x.tdi = .unlocked ∧ x.state = c) ∧
    (∃ (s : State) (x : Context), s.pfReady ∧ ctxAt s (0 * 16 + 0) = some x ∧ x.tdi ≠ .unlocked) ∧
    (∃ (s : State) (x : Context), s.pfReady ∧ ctxAt s (0 * 16 + 0) = some x ∧ x.state = .running ∧
      (∃ e ∈ s.groups, (kernelAt s e.2.kernel).map (·.ctx) = some 0 ∧ e.2.state ≠ .saved ∧ e.2.state ≠ .pending)) ∧
    (∃ (s : State) (x : Context), s.pfReady ∧ ctxAt s (0 * 16 + 0) = some x ∧ x.state = .running ∧ s.groups = []) ∧
    (∃ (s : State) (x : Context) (p : Partition), s.pfReady ∧ ctxAt s (0 * 16 + 0) = some x ∧ x.state ≠ .destroyed ∧ s.kernels = [] ∧
      s.groups = [] ∧ s.slots = [] ∧ x.queues = [] ∧ s.l1 = [] ∧ partAt s x.part = some p ∧ p.closing = false) ∧
    (∃ (s : State) (d : Die), s.pfReady ∧ dieAt s 35 = some d ∧ d.active = true ∧ d.failed = false) ∧
    (∃ (s : State) (c : Context) (u : Queue), ctxAt s 0 = some c ∧ Table.look c.queues 0 = some u) := by
  refine ⟨?_, ⟨{ sAt with contexts := [(0, { placedContext with tdi := .locked })] }, { placedContext with tdi := .locked }, ?_⟩,
    ⟨sAt, placedContext, ?_⟩, ⟨{ sAt with groups := [] }, placedContext, ?_⟩,
    ⟨sProvider 0 [(0, placedContext)], placedContext, placedPartition, ?_⟩, ⟨State.reset, Die.reset 35, ?_⟩,
    ⟨sKernel placedKernel, aContext, aQueue aPacket, by decide +kernel⟩⟩
  · intro c h
    refine ⟨{ sAt with contexts := [(0, { placedContext with state := c })] }, { placedContext with state := c }, ?_⟩
    unfold State.pfReady
    fin_cases h <;> decide +kernel
  all_goals (unfold State.pfReady; decide +kernel)

/-! ## Hypotheses met: attestation, time, links, the module -/

/-- A host link whose responder has come to a stage, with a session or without. -/
def aLink (stage : Nat) (session : Bool) : HostLink := { HostLink.reset with spdm := stage, session }

/-- A panel with that link first, a partition and a context. -/
def sLink (stage : Nat) (session : Bool) (p : Partition) (c : Context) : State :=
  { State.reset with
    hostLinks := aLink stage session :: List.replicate 3 .reset, partitions := [(0, p)], contexts := [(0, c)] }

/-- A passport that grants every feature until 10 ms. -/
def aPassport : Passport := { feat := 7, expiry := 10000000, bytes := [] }

/-- The placed context as created, of VF 1. -/
def newContext : Context := { placedContext with state := .created, vf := 1 }

/-- The placed partition with that passport. -/
def sealedPartition : Partition := { placedPartition with passport := some aPassport }

/-- The placed partition with a key in slot 1. -/
def keyedPartition : Partition := { placedPartition with keys := [(1, 7)] }

/-- A link with a secured session, bound to a partition or free. -/
def aTenant (n : Option Nat) : HostLink := { aLink 3 true with tenant := n }

/-- A panel with that link first. -/
def sTenant (n : Option Nat) : State :=
  { sLink 3 true keyedPartition newContext with hostLinks := aTenant n :: List.replicate 3 .reset }

theorem wit_AttestationEventsTakeEffect_link :
    (∀ n ∈ [(1 : Nat), 2, 3, 4], ∃ (s : State) (l : HostLink), LinkUp s 0 l ∧ l.spdm = n ∧ (measurement s 1).isSome = true) ∧
    ((0xFF : Word) &&& 0xF = 0xF) ∧
    (∀ n ∈ [none, some (0 : Nat)], ∃ (s : State) (l : HostLink) (x : Partition) (c : Context), LinkUp s 0 l ∧ l.session = true ∧
      partAt s 0 = some x ∧ l.tenant = n ∧ l.tenantIs s 0 ∧ c.part = 0 ∧ x.keys = [(1, 7)] ∧ s.memoryForm ∧
      x.passport = none ∧ ctxOfVf s 1 = some (0, c) ∧ ctxAt s 0 = some c ∧ c.state = .created ∧ c.tdi = .unlocked ∧
      l.ideStreams.length < 8 ∧ 7 ∉ l.ideStreams ∧ 7 ∉ c.ide) ∧
    (∃ (s : State) (l : HostLink) (c : Context), LinkUp s 0 l ∧ l.session = true ∧ ctxOfVf s 1 = some (0, c) ∧ ctxAt s 0 = some c ∧
      c.state = .created ∧ c.tdi = .locked ∧ l.tenantIs s c.part) ∧
    (∃ (s : State) (l : HostLink) (c : Context), LinkUp s 0 l ∧ l.session = true ∧ ctxOfVf s 1 = some (0, c) ∧ ctxAt s 0 = some c ∧
      c.state ≠ .created ∧ l.tenantIs s c.part) ∧
    (∃ (s : State) (l : HostLink), LinkUp s 0 l ∧ l.session = true ∧ ¬ l.tenantIs s 0) ∧
    (∃ (s : State) (l : HostLink), LinkUp s 0 l ∧ l.session = true ∧ l.tenant = none ∧ ¬ l.tenantIs s 0) ∧
    (∃ (s : State) (l : HostLink), LinkUp s 0 l ∧ l.session = true ∧ ctxOfVf s 9 = none ∧ 9 ∈ s.tdiErrors) := by
  refine ⟨?_, by decide, ?_,
    ⟨sLink 3 true placedPartition { newContext with tdi := .locked }, aLink 3 true, { newContext with tdi := .locked }, ?_⟩,
    ⟨sLink 3 true placedPartition { newContext with state := .ready }, aLink 3 true, { newContext with state := .ready }, ?_⟩,
    ⟨sTenant (some 1), aTenant (some 1), ?_⟩,
    ⟨{ sTenant none with hostLinks := [aTenant none, aTenant (some 0)] }, aTenant none, ?_⟩,
    ⟨{ sTenant none with tdiErrors := [9] }, aTenant none, ?_⟩⟩
  · intro n h
    refine ⟨sLink n false placedPartition newContext, aLink n false, ?_⟩
    unfold LinkUp
    fin_cases h <;> exact ⟨by decide +kernel, by decide +kernel, rfl⟩
  · intro n h
    refine ⟨sTenant n, aTenant n, keyedPartition, newContext, ?_⟩
    unfold LinkUp HostLink.tenantIs State.memoryForm
    fin_cases h <;> decide +kernel
  · unfold LinkUp HostLink.tenantIs
    decide +kernel
  · unfold LinkUp HostLink.tenantIs
    decide +kernel
  · unfold LinkUp HostLink.tenantIs
    decide +kernel
  · unfold LinkUp HostLink.tenantIs
    decide +kernel
  · unfold LinkUp
    decide +kernel

theorem wit_AttestationEventsTakeEffect_partition :
    (∃ (s : State) (l : HostLink) (x : Partition) (y : Passport) (g : Group) (k : Kernel) (c : Context), LinkUp s 0 l ∧
      partAt s 0 = some x ∧ x.passport = some y ∧ groupAt s 0 = some g ∧ kernelAt s g.kernel = some k ∧ ctxAt s k.ctx = some c ∧
      c.part = 0) ∧
    (∃ (s : State) (x : Partition) (y : Passport), partAt s 0 = some x ∧ x.passport = some y ∧
      y.expiry ≤ gtOf s ((ranks s x).headD 0)) ∧
    (∃ (s : State) (c : Context), ctxOfVf s 1 = some (0, c) ∧ ctxAt s 0 = some c ∧ c.tdi = .run) := by
  refine ⟨⟨{ sAt with partitions := [(0, sealedPartition)] }, HostLink.reset, sealedPartition, aPassport, (iAt sAt).g, placedKernel,
      placedContext, ?_⟩,
    ⟨updDie (sLink 0 false sealedPartition newContext) 0 fun d => { d with gt := 10000000 }, sealedPartition, aPassport, by decide +kernel⟩,
    ⟨sLink 0 false placedPartition { newContext with tdi := .run }, { newContext with tdi := .run }, by decide +kernel⟩⟩
  unfold LinkUp
  decide +kernel

/-- The reset panel with a change of die 0, whose time parent is die 1. -/
def sDie (f : Die → Die) : State := updDie State.reset 0 f

/-- A time request with its first stamp, and perhaps the others. -/
def aReq (t1 : Nat) (t2 t3 : Option Nat) : TimeReq :=
  { t1 := t1, t2 := t2, t3 := t3, sent := 0, arrived := 0, replied := 0 }

theorem wit_TimeEventsTakeEffect_exchange :
    (∃ (s : State) (x : Die), dieAt s 0 = some x ∧ x.parent = some 1 ∧ dieActive s 0 = true ∧ 0 ≠ s.root ∧ x.req = none ∧
      (∀ t, x.lastExchange = some t → t + 10000 ≤ x.gt) ∧ carries s (boundaryOf 0 1)) ∧
    (∀ t2 ∈ [none, some (640 : Nat)], ∃ (s : State) (x y : Die) (r : TimeReq), dieAt s 0 = some x ∧ x.parent = some 1 ∧
      dieAt s 1 = some y ∧ dieActive s 1 = true ∧ carries s (boundaryOf 0 1) ∧ x.req = some r ∧ r.t2 = t2 ∧ r.t3 = none ∧
      dieActive s 0 = true) ∧
    (∀ b ∈ [false, true], ∃ (s : State) (x : Die) (r : TimeReq), dieAt s 0 = some x ∧ x.parent = some 1 ∧ x.req = some r ∧
      dieActive s 0 = true ∧ carries s (boundaryOf 0 1) ∧ x.retried = b) ∧
    (∃ (s : State) (x : Die) (r : TimeReq) (q : Nat), dieAt s 0 = some x ∧ carries s (boundaryOf 0 1) ∧ x.parent = some 1 ∧ x.req = some r ∧
      dieActive s 0 = true ∧ 1 ≠ s.root ∧ 0 ≠ s.root ∧ x.exchangeFails = 0 ∧ timeParent (sidebandLost s 0 1 x) 0 = some q) ∧
    (∃ (s : State) (q : Nat) (x : Die), dieAt s 0 = some x ∧ dieActive s 0 = true ∧ 0 ≠ s.root ∧ x.handOver = true ∧
      timeParent s 0 = some q) := by
  let d : Die := { Die.reset 0 with gt := 10000 }
  let r (t2 : Option Nat) : Die := { Die.reset 0 with req := some (aReq 0 t2 none) }
  refine ⟨⟨sDie fun x => { x with gt := 10000 }, d, ?_⟩, ?_, ?_,
    ⟨sDie fun x => { x with req := some (aReq 0 none none) }, r none, aReq 0 none none,
      6, by unfold carries; decide +kernel⟩,
    ⟨sDie fun x => { x with handOver := true }, 1,
      { Die.reset 0 with handOver := true }, by decide +kernel⟩⟩
  · unfold carries
    decide +kernel
  · intro t2 h
    refine ⟨sDie fun x => { x with req := some (aReq 0 t2 none) }, r t2, Die.reset 1, aReq 0 t2 none, ?_⟩
    unfold carries
    fin_cases h <;> decide +kernel
  · intro b h
    refine ⟨sDie fun x => { x with req := some (aReq 0 none none), retried := b }, { r none with retried := b }, aReq 0 none none, ?_⟩
    unfold carries
    fin_cases h <;> decide +kernel

theorem wit_TimeEventsTakeEffect_correction :
    ∀ e ∈ [((64000, 0) : Nat × Int), (64002, 1), (65280, 640), (65282, 641), (72192, 4096), (62720, -640), (62718, -641), (55808, -4096)],
      ∃ (s : State) (x : Die) (t1 t2 t3 : Nat), dieAt s 0 = some x ∧ dieActive s 0 = true ∧
        x.req = some (aReq t1 (some t2) (some t3)) ∧ x.parent = some 1 ∧ carries s (boundaryOf 0 1) ∧ 0 ≤ s.refNs ∧
        e.2 = Int.tdiv (((t2 : Int) - t1) + ((t3 : Int) - (x.gt * 64 + x.frac : Nat))) 2 := by
  unfold carries
  intro e h
  refine ⟨sDie fun x => { x with gt := 1000, req := some (aReq 64000 (some e.1) (some 64000)) },
    { Die.reset 0 with gt := 1000, req := some (aReq 64000 (some e.1) (some 64000)) }, 64000, e.1, 64000, ?_⟩
  fin_cases h <;> decide +kernel

/-- A flit's CRC is over the bytes before it. -/
theorem flitCheck_crc (f : Flit) (c : Word) : flitCheck { f with crc := c } = flitCheck f := rfl

/-- A flit of a sequence number with no CRC. -/
def bareFlit (n : BitVec 12) : Flit := { sn := n, esc := false, vnet := 0, payload := List.replicate 250 0, crc := 0 }

/-- The same with its CRC. -/
def aFlit (n : BitVec 12) : Flit := { bareFlit n with crc := flitCheck (bareFlit n) }

/-- The same with another CRC. -/
def badFlit (n : BitVec 12) : Flit := { bareFlit n with crc := flitCheck (bareFlit n) + 1 }

theorem aFlit_check (n : BitVec 12) : (aFlit n).crc = flitCheck (aFlit n) := (flitCheck_crc (bareFlit n) _).symm

theorem badFlit_check (n : BitVec 12) : (badFlit n).crc ≠ flitCheck (badFlit n) := by
  intro h
  have e : flitCheck (bareFlit n) + 1 = flitCheck (bareFlit n) := h.trans (flitCheck_crc (bareFlit n) _)
  bv_omega

/-- The reset panel with a change of boundary 0. -/
def sBoundary (f : Boundary → Boundary) : State := updBoundary State.reset 0 f

/-- A direction with a flit not acknowledged. -/
def aDir (want replayed : Option (BitVec 12)) : LinkDir :=
  { LinkDir.reset with retry := [aFlit 3, aFlit 4], wantReplay := want, replayed := replayed }

/-- A direction whose sender has sent the flits before 4 and still holds number 3, and whose receiver expects `n`. -/
def sentDir (n : BitVec 12) : LinkDir := { LinkDir.reset with nextSeq := 4, retry := [aFlit 3], expected := n }

/-- The reset panel with that direction of boundary 0. -/
def sSent (n : BitVec 12) : State := updBoundary State.reset 0 fun b => { b with dir0 := sentDir n }

theorem wit_LinkEventsTakeEffect_flit :
    (∃ (s : State) (l : LinkDir) (f : Flit), dirAt s 0 0 = some l ∧ carries s 0 ∧ f.payload.length ≠ 250) ∧
    (∃ (s : State) (l : LinkDir) (f : Flit), dirAt s 0 0 = some l ∧ carries s 0 ∧ f.sn = l.nextSeq ∧ 2048 ≤ l.retry.length) ∧
    (∀ again ∈ [false, true], ∃ (s : State) (l : LinkDir) (f : Flit), dirAt s 0 0 = some l ∧ carries s 0 ∧ f.payload.length = 250 ∧
      (if again then f.sn ≠ l.nextSeq ∧ l.keeps f = true else f.sn = l.nextSeq ∧ l.retry.length < 2048) ∧
      f.crc = flitCheck f ∧ f.sn = l.expected ∧ l.replayed = none) ∧
    (∀ again ∈ [false, true], ∃ (s : State) (l : LinkDir) (f : Flit), dirAt s 0 0 = some l ∧ carries s 0 ∧ f.payload.length = 250 ∧
      (if again then f.sn ≠ l.nextSeq else f.sn = l.nextSeq ∧ l.retry.length < 2048) ∧ f.crc ≠ flitCheck f ∧ f.sn = l.expected) ∧
    (∀ again ∈ [false, true], ∃ (s : State) (l : LinkDir) (f : Flit), dirAt s 0 0 = some l ∧ carries s 0 ∧ f.payload.length = 250 ∧
      (if again then f.sn ≠ l.nextSeq else f.sn = l.nextSeq ∧ l.retry.length < 2048) ∧ f.crc = flitCheck f ∧ f.sn ≠ l.expected) ∧
    (∃ (s : State) (l : LinkDir) (f : Flit), dirAt s 0 0 = some l ∧ carries s 0 ∧ f.payload.length = 250 ∧ f.sn ≠ l.nextSeq ∧
      f.crc = flitCheck f ∧ f.sn = l.expected ∧ l.keeps f = false) ∧
    (∀ r ∈ [none, some (3 : BitVec 12)], ∃ (s : State) (l : LinkDir), dirAt s 0 0 = some l ∧ carries s 0 ∧
      l.wantReplay = some (BitVec.ofNat 12 3) ∧ l.replayed = r ∧ (∃ f ∈ l.retry, f.sn = BitVec.ofNat 12 3)) ∧
    (∃ (s : State) (l : LinkDir), dirAt s 0 0 = some l ∧ l.retry = [aFlit 3] ++ aFlit 4 :: [] ∧ (aFlit 4).sn = BitVec.ofNat 12 4 ∧
      (∀ g ∈ [aFlit 3], g.sn ≠ BitVec.ofNat 12 4)) := by
  have up : carries (sSent 2) 0 ∧ carries (sSent 3) 0 ∧ carries (sSent 4) 0 := by
    unfold carries
    decide +kernel
  have crc := aFlit_check
  have bad := badFlit_check
  refine ⟨⟨State.reset, .reset, { bareFlit 0 with payload := [] }, by decide +kernel, by unfold carries; decide +kernel, by decide⟩,
    ⟨sBoundary fun b => { b with dir0 := { sentDir 3 with retry := List.replicate 2048 (bareFlit 3) } },
      { sentDir 3 with retry := List.replicate 2048 (bareFlit 3) }, bareFlit 4, by decide +kernel, by unfold carries; decide +kernel, rfl, by decide +kernel⟩,
    ?_, ?_, ?_, ⟨sSent 2, sentDir 2, aFlit 2, by decide +kernel, up.1, by decide +kernel, by decide, crc 2, rfl, by decide +kernel⟩,
    ?_, ⟨sBoundary fun b => { b with dir0 := aDir none none }, aDir none none, by decide +kernel⟩⟩
  · intro a h
    fin_cases h
    · exact ⟨sSent 4, sentDir 4, aFlit 4, by decide +kernel, up.2.2, by decide +kernel, by decide, crc 4, rfl, rfl⟩
    · exact ⟨sSent 3, sentDir 3, aFlit 3, by decide +kernel, up.2.1, by decide +kernel, by decide +kernel, crc 3, rfl, rfl⟩
  · intro a h
    fin_cases h
    · exact ⟨sSent 4, sentDir 4, badFlit 4, by decide +kernel, up.2.2, by decide +kernel, by decide, bad 4, rfl⟩
    · exact ⟨sSent 3, sentDir 3, badFlit 3, by decide +kernel, up.2.1, by decide +kernel, by decide, bad 3, rfl⟩
  · intro a h
    fin_cases h
    · exact ⟨sSent 3, sentDir 3, aFlit 4, by decide +kernel, up.2.1, by decide +kernel, by decide, crc 4, by decide⟩
    · exact ⟨sSent 4, sentDir 4, aFlit 3, by decide +kernel, up.2.2, by decide +kernel, by decide, crc 3, by decide⟩
  · intro r h
    refine ⟨sBoundary fun b => { b with dir0 := aDir (some 3) r }, aDir (some 3) r, ?_⟩
    unfold carries
    fin_cases h <;> decide +kernel

/-- A boundary that trains, or trains again, at its first attempt or its second. -/
def aBoundary (st : BndState) (n : Nat) : Boundary := { Boundary.reset with state := st, attempts := n }

theorem wit_LinkEventsTakeEffect_training :
    (∀ bad ∈ [[], [(63 : Nat)], [64, 127], [63, 64], [128]], ∀ n ∈ [(0 : Nat), 1], ∃ (s : State) (x : Boundary),
      s.boundaries[0]? = some x ∧ x.state = .retraining ∧ x.attempts = n ∧
      ((∀ m ∈ bad, 128 ≤ m) ∨ ((∃ m ∈ bad, m < 64) ∧ (∀ m ∈ bad, m < 64 ∨ 128 ≤ m)) ∨
        ((∃ m ∈ bad, 64 ≤ m ∧ m < 128) ∧ (∀ m ∈ bad, 64 ≤ m)) ∨ ((∃ m ∈ bad, m < 64) ∧ ∃ m ∈ bad, 64 ≤ m ∧ m < 128))) ∧
    (∀ n ∈ [(0 : Nat), 1], ∃ (s : State) (x : Boundary), s.boundaries[0]? = some x ∧ x.state = .retraining ∧ x.attempts = n ∧
      x.since + 50000 ≤ gtOf s (boundaryDie s 0)) ∧
    carries State.reset 0 := by
  refine ⟨?_, ?_, by unfold carries; decide +kernel⟩
  · intro bad hb n hn
    refine ⟨sBoundary fun _ => aBoundary .retraining n, aBoundary .retraining n, ?_⟩
    fin_cases hb <;> fin_cases hn <;> decide +kernel
  · intro n hn
    refine ⟨{ sBoundary (fun _ => aBoundary .retraining n) with dies := (List.range 36).map fun d => { Die.reset d with gt := 50000 } },
      aBoundary .retraining n, ?_⟩
    fin_cases hn <;> decide +kernel

/-- An Ethernet frame for slot 0 on port 0. -/
def aFrame0 (slot : Nat) : EthFrame :=
  { dst := Config.portMac 0, sn := 0, slot, nc := 3, base := 0x2000, offset := 64, data := [1, 2, 3], last := false }

/-- A port with two frames not acknowledged, of deliveries 5 and 6, after `n` resends. -/
def aPort (n : Nat) : EthPort :=
  { EthPort.reset with unacked := [{ aFrame0 0 with dst := 0, sn := 0 }, { aFrame0 0 with dst := 0, sn := 1 }], owner := [(0, 5), (1, 6)], resends := n }

/-- A state whose port 0 is that. -/
def sPort (n : Nat) : State :=
  { sStep 0 with
    ethPorts := aPort n :: List.replicate 7 .reset, deliveries := [(5, aDelivery none), (6, aDelivery none)]
    dies := (List.range 36).map fun d => { Die.reset d with gt := 20000 } }

theorem wit_LinkEventsTakeEffect_ethernet :
    (∃ (s : State) (x : EthPort), s.ethPorts[0]? = some x ∧ ethUp s 0 = true ∧ (aFrame0 15).sn = x.expected ∧ frameSlots s 0 15 = []) ∧
    (∃ (s : State) (x : EthPort) (f : EthFrame), s.ethPorts[0]? = some x ∧ ethUp s 0 = true ∧ f.dst = Config.portMac 0 ∧
      f.sn = x.expected ∧ 8192 < f.data.length) ∧
    (∃ (s : State) (x : EthPort) (i : CInst) (sl : CSlot), s.ethPorts[0]? = some x ∧ ethUp s 0 = true ∧ (aFrame0 0).sn = x.expected ∧
      frameSlots s 0 0 = [0] ∧ runningOn s 0 (ethDie 0) = some i ∧ Table.look s.slots 0 = some sl ∧
      (dieHalt s sl.ctx i.die 0x2040 3).bind failsAt = some 0x2040) ∧
    (∀ b ∈ [false, true], ∃ (s : State) (x : EthPort) (i : CInst) (sl : CSlot), x.rxIntact = b ∧ s.ethPorts[0]? = some x ∧ ethUp s 0 = true ∧ (aFrame0 0).sn = x.expected ∧
      frameSlots s 0 0 = [0] ∧ runningOn s 0 (ethDie 0) = some i ∧ Table.look s.slots 0 = some sl ∧
      meetsNothing (dieHalt s sl.ctx i.die 0x2040 3) = true) ∧
    (∃ (s : State) (x : EthPort), s.ethPorts[0]? = some x ∧ (∃ f ∈ x.unacked, f.sn ≤ 0) ∧ (∀ o ∈ x.owner, o.2 = 5 → o.1 ≤ 0) ∧
      (∀ o ∈ x.owner, o.2 = 6 → 0 < o.1)) ∧
    (∀ n ∈ [(7 : Nat), 8], ∃ (s : State) (x : EthPort), s.ethPorts[0]? = some x ∧ x.failed = false ∧ x.unacked ≠ [] ∧ x.resends = n ∧
      x.lastSend + 20000 ≤ gtOf s (ethDie 0)) ∧
    (∀ b ∈ [false, true], ∃ (s : State) (x : EthPort), s.ethPorts[0]? = some x ∧ x.failed = b) ∧
    (∀ b ∈ [false, true], ∃ (s : State) (line : Nat), keyTier (line * 128) = 2 ∧ (homeOf s line).eMax = 0 ∧ partialsOf s line = [] ∧
      tierOpen s (lineCtx s line) (line * 128) = b ∧ (homeOf s line).holders ≠ []) := by
  let i : CInst := { anInst 0 with die := ethDie 0 }
  refine ⟨⟨sStep 0, .reset, by decide +kernel⟩, ⟨sStep 0, .reset, { aFrame0 0 with data := List.replicate 8193 0 }, rfl, by decide +kernel, rfl, rfl, by decide +kernel⟩,
    ⟨{ sCourier aSlot [i] with poison := [64] }, .reset, i, aSlot, by decide +kernel⟩, ?_, ⟨sPort 0, aPort 0, by decide +kernel⟩,
    ?_, ?_, ?_⟩
  · intro b h
    refine ⟨{ sCourier aSlot [i] with ethPorts := [{ EthPort.reset with rxIntact := b }] }, { EthPort.reset with rxIntact := b }, i, aSlot, ?_⟩
    fin_cases h <;> decide +kernel
  · intro n h
    refine ⟨sPort n, aPort n, ?_⟩
    fin_cases h <;> decide +kernel
  · intro b h
    refine ⟨{ sAt with ethPorts := [{ EthPort.reset with failed := b }] }, { EthPort.reset with failed := b }, ?_⟩
    fin_cases h <;> decide +kernel
  · intro b h
    refine ⟨{ sAt with
      homes := [(2 ^ 40, { HomeLine.blank with holders := [0] })], hostLinks := [{ HostLink.reset with cxl := b }] }, 2 ^ 40, ?_⟩
    fin_cases h <;> decide +kernel

theorem wit_PartFaultsTakeEffect :
    State.reset.vacant ∧ dieActive State.reset 35 = true ∧ (35, some 127) ∉ State.reset.deadMem ∧
    bndState State.reset 59 ≠ .absent ∧ bndState State.reset 59 ≠ .failed ∧ 59 < State.reset.boundaries.length ∧
    State.reset.hostLinks[3]? = some HostLink.reset ∧ dieActive State.reset (linkDie 3) = true ∧ HostLink.reset.failed = false ∧
    State.reset.ethPorts[7]? = some EthPort.reset ∧ dieActive State.reset (ethDie 7) = true ∧ EthPort.reset.failed = false ∧
    ctxAt sAt 0 = some placedContext ∧ placedContext.saveABad = false ∧ placedContext.saveBBad = false := by
  unfold State.vacant
  decide +kernel

theorem wit_ModuleEventsTakeEffect_power :
    State.reset.power = .on ∧ { State.reset with power := .off }.power = .off ∧ { State.reset with power := .boot }.power = .boot ∧
    { State.reset with power := .silent }.power = .silent ∧ State.reset.hostLinks[0]? = some HostLink.reset ∧
    State.reset.images = [] ∧ State.reset.partitions = [] ∧ { State.reset with partitions := [(0, placedPartition)] }.contexts = [] ∧ State.reset.panelForm ∧
    [2, 3, 32, 33] ⊆ List.range 36 := by
  unfold State.panelForm
  decide +kernel

theorem wit_ModuleEventsTakeEffect_health :
    (∃ (s : State) (x : Die), dieAt s (coreDie 5) = some x ∧ (∀ e ∈ x.healthFail, e.1 ≠ 5 % 96) ∧ s.groups = []) ∧
    (∃ (s : State) (x : Die) (g : Group) (k : Kernel) (c : Context), dieAt s (coreDie 0) = some x ∧ s.groups = [(0, g)] ∧
      g.state = .begun ∧ g.die = coreDie 0 ∧ g.core = 0 % 96 ∧ kernelAt s g.kernel = some k ∧ ctxAt s k.ctx = some c) ∧
    (∀ b ∈ [false, true], ∃ (s : State) (x : Die), dieAt s (coreDie 5) = some x ∧ x.healthFail = [(5 % 96, 0, b)] ∧
      0 + 1000000 ≤ x.gt ∧ x.log.length < 256) := by
  refine ⟨⟨State.reset, Die.reset 0, by decide +kernel⟩, ⟨sAt, Die.reset 0, (iAt sAt).g, placedKernel, placedContext, by decide +kernel⟩, ?_⟩
  intro b h
  refine ⟨sDie fun d => { d with gt := 1000000, healthFail := [(5, 0, b)] }, { Die.reset 0 with gt := 1000000, healthFail := [(5, 0, b)] }, ?_⟩
  fin_cases h <;> decide +kernel

/-! ## Hypotheses met: queues, repetition, steps -/

/-- `iadd` of two elements popped from queue 7, under no modifier. -/
def popRow : LaneRow := (laneRowOf Mods.plain (.iadd (.q 0) (.q 7) (.q 7))).get rfl

/-- The state with its block's queues. -/
def sQueues (qs : Table (List (Table Word))) : State :=
  sAt.withBlock (iAt sAt) { placedBlock with queues := qs }

theorem wit_QueueFieldsPopAndPush_pops :
    ∃ s i m w r, Iss.modified s i m ∧ debugOn s i.k.ctx 0 = false ∧ laneRowOf m w = some r ∧ r.queueReady i m ∧
      (∀ q ∈ r.pops m, (r.pops m).count q ≤ (i.b.queue q).length) ∧
      (∀ q, r.pushes = some q → (i.b.queue q).length - (r.pops m).count q < i.k.qdepth q) :=
  let s := sQueues [(7, [[(0, 5)], [(63, 6)], []])]
  ⟨s, iAt s, Mods.plain, .iadd (.q 0) (.q 7) (.q 7), popRow, by unfold Iss.modified Iss.quiet; decide +kernel,
    by decide +kernel, rfl, by unfold LaneRow.queueReady; decide +kernel, by decide +kernel,
    by intro q h; cases h; decide +kernel⟩

theorem wit_QueueFieldsPopAndPush_none :
    ∃ s i m w r, Iss.modified s i m ∧ debugOn s i.k.ctx 0 = false ∧ laneRowOf m w = some r ∧ r.queueReady i m ∧
      (∀ q ∈ r.pops m, (r.pops m).count q ≤ (i.b.queue q).length) ∧ r.pops m ≠ [] ∧ r.pushes = none :=
  let s := sQueues [(0, [[(0, 5)]])]
  ⟨s, iAt s, Mods.plain, .iadd (.v 191) (.q 0) .lid, (laneRowOf Mods.plain (.iadd (.v 191) (.q 0) .lid)).get rfl,
    by unfold Iss.modified Iss.quiet; decide +kernel, by decide +kernel, rfl, by unfold LaneRow.queueReady; decide +kernel,
    by decide +kernel⟩

theorem wit_QueueFieldsPopAndPush_waits :
    (∃ s i m w r, Iss.modified s i m ∧ debugOn s i.k.ctx 0 = false ∧ laneRowOf m w = some r ∧ r.queueReady i m ∧
      ∃ q ∈ r.pops m, (i.b.queue q).length < (r.pops m).count q) ∧
    (∃ s i m w r, Iss.modified s i m ∧ debugOn s i.k.ctx 0 = false ∧ laneRowOf m w = some r ∧ r.queueReady i m ∧
      ∃ q, r.pushes = some q ∧ i.k.qdepth q ≤ (i.b.queue q).length - (r.pops m).count q) :=
  let s := sQueues [(7, [[(0, 5)]])]
  let t := sQueues [(0, [[], [], [], []])]
  ⟨⟨s, iAt s, Mods.plain, .iadd (.q 0) (.q 7) (.q 7), popRow, by unfold Iss.modified Iss.quiet; decide +kernel,
    by decide +kernel, rfl, by unfold LaneRow.queueReady; decide +kernel, by decide +kernel⟩,
   ⟨t, iAt t, Mods.plain, .iadd (.q 0) .zero .lid, (laneRowOf Mods.plain (.iadd (.q 0) .zero .lid)).get rfl,
    by unfold Iss.modified Iss.quiet; decide +kernel, by decide +kernel, rfl, by unfold LaneRow.queueReady; decide +kernel,
    0, by decide +kernel⟩⟩

theorem wit_QueueFieldsPopAndPush_traps :
    ∃ s i m w r, Iss.modified s i m ∧ debugOn s i.k.ctx 0 = false ∧ laneRowOf m w = some r ∧
      (∀ x ∈ r.fields m, useOk i.g.window x.1 x.2 = true) ∧
      ∃ x ∈ r.fields m, ∃ k, x.2 = .q k ∧ x.1 ≠ .imm ∧ i.k.qdepth k.val = 0 :=
  let s := { sAt with kernels := [(0, { placedKernel with record := toBytes 256 0 })] }
  ⟨s, iAt s, Mods.plain, .iadd (.q 0) (.q 7) (.q 7), popRow, by unfold Iss.modified Iss.quiet; decide +kernel,
    by decide +kernel, rfl, by decide +kernel, (.dst, .q 0), by decide +kernel, 0, by decide +kernel⟩

/-- A chain with a REP. -/
def repChain (n : BitVec 6) (sd sa sb : BitVec 3) : Chain :=
  { start := 0x10000, rep := some (n, sd, sa, sb), pfx := none, pfxi := none, done := 0, upto := none }

theorem wit_RepIssuesEveryRepetition :
    ∃ (s : State) (i : Iss) (m : Mods) (w : Instr) (r : LaneRow) (c : Chain), laneRowOf m w = some r ∧ issuing s = some i ∧ i.quiet s ∧
      i.f.chain = some c ∧ c.rep = some (3, 1, 7, 0) ∧ c.done = 0 ∧ c.upto = none ∧ m = modsOf i.f.chain ∧ debugOn s i.k.ctx 0 = false ∧
      (r.pops m = [] ∧ r.pushes = none) ∧ canStep r.du r.d = true ∧ canStep r.au r.a = true ∧
      (∀ j : Nat, j < 4 → (r.stepped i.g.window j 1 (-1) 0).any (fun x =>
        ((x.fields m).all fun y => useOk i.g.window y.1 y.2) && !onBoard i.g (x.fields m) &&
          (pendingS i.g (sCodes (x.fields m))).isNone) = true) ∧
      onBoard i.g (r.fields m) = false ∧ pendingS i.g (sCodes (r.fields m)) = none :=
  let s := sFib fun f => { f with chain := some (repChain 3 1 7 0) }
  ⟨s, iAt s, Mods.plain, .iadd (.v 1) (.v 3) (.v 0), (laneRowOf Mods.plain (.iadd (.v 1) (.v 3) (.v 0))).get rfl,
    repChain 3 1 7 0, rfl, by unfold Iss.quiet; decide +kernel⟩

theorem wit_RepIssuesEveryRepetition_traps :
    ∃ (s : State) (i : Iss) (m : Mods) (w : Instr) (r : LaneRow) (c : Chain), laneRowOf m w = some r ∧ issuing s = some i ∧ i.quiet s ∧
      i.f.chain = some c ∧ c.rep = some (0, 0, 0, 4) ∧ c.done = 0 ∧ c.upto = none ∧ m = modsOf i.f.chain ∧ debugOn s i.k.ctx 0 = false ∧
      (r.pops m = [] ∧ r.pushes = none) ∧ isRowWord w = true ∧ canStep r.bu r.b = false :=
  let s := sFib fun f => { f with chain := some (repChain 0 0 0 4) }
  ⟨s, iAt s, Mods.plain, .xor (.v 1) (.v 3) .lid, (laneRowOf Mods.plain (.xor (.v 1) (.v 3) .lid)).get rfl,
    repChain 0 0 0 4, rfl, by unfold Iss.quiet; decide +kernel⟩

theorem wit_StochasticRoundingDrawsInLaneOrder :
    ∃ s i m w d a b u f x, Iss.modified s i m ∧ debugOn s i.k.ctx 0 = false ∧ drawingWord w = some (d, a, b, u, f) ∧
      m.rnd = 5 ∧ m.ty ≤ 1 ∧ m.ord = 0 ∧ m.fb = false ∧ m.imm = none ∧ (u = false → m.c = .zero) ∧
      (∀ y ∈ [(Use.dst, d), (Use.src, a), (Use.src, b), (if u then Use.src else Use.unused, m.c)],
        useOk i.g.window y.1 y.2 = true ∧ isQueue y.2 = false) ∧
      onBoard i.g [(Use.dst, d), (Use.src, a), (Use.src, b), (if u then Use.src else Use.unused, m.c)] = false ∧
      pendingS i.g (sCodes [(Use.dst, d), (Use.src, a), (Use.src, b), (if u then Use.src else Use.unused, m.c)]) = none ∧
      (i.k.sample 0x018).toNat % 4 = 0 ∧ drawsOwed i.g = false ∧ s.dies[i.g.die]? = some x ∧
      (∀ e ∈ x.healthFail, e.1 ≠ i.g.core) :=
  let s := sFib fun f => { f with chain := some (pfxChain (.v 191) 5 0) }
  ⟨s, iAt s, modsOf (some (pfxChain (.v 191) 5 0)), .ffma (.o 15) (.s 31) (.v 0), .o 15, .s 31, .v 0, true, _, Die.reset 0,
    by unfold Iss.modified Iss.quiet; decide +kernel, by decide +kernel, rfl, by decide +kernel⟩

/-- The state whose next move gives group 0 an issue slot. -/
def sIssue (c : Option Clause) (m : List Host.Cell) : State :=
  { sFib (fun f => { f with clause := c, pc := if c.isSome then f.pc else 0x10000 }) with
    agenda := [.issue 0], cur := none, mem := m, rangeTlb := [(0, 0, [wholeRange])] }

theorem wit_StepRunsTheDecodedWord :
    (∃ (s s0 : State) (g : Group) (f : Fibre) (i : Iss) (ins : Instr) (w : Word) (c : Clause),
      s.agenda = [.issue 0] ∧ s0 = { s with agenda := [] } ∧ roomTakes s0 0 = true ∧ groupAt s0 0 = some g ∧
      nextFibre s0 g = some 0 ∧ fibreAt s0 0 0 = some f ∧ issuing (markIssued s0 0 0) = some i ∧
      breakHits (countEvent (markIssued s0 0 0) 0 1 1) i.g i.k i.f = false ∧ i.f.pc.toNat % 4 = 0 ∧ i.f.chain = none ∧
      decode w = .ok ins ∧ i.f.clause = some c ∧ c.words.getD ((i.f.pc - c.start).toNat / 4 - 1) none = some w) ∧
    (∃ (s s0 s3 : State) (g : Group) (f : Fibre) (i : Iss) (ins : Instr) (w : Word),
      s.agenda = [.issue 0] ∧ s0 = { s with agenda := [] } ∧ roomTakes s0 0 = true ∧ groupAt s0 0 = some g ∧
      nextFibre s0 g = some 0 ∧ fibreAt s0 0 0 = some f ∧ issuing (markIssued s0 0 0) = some i ∧
      breakHits (countEvent (markIssued s0 0 0) 0 1 1) i.g i.k i.f = false ∧ i.f.pc.toNat % 4 = 0 ∧ i.f.chain = none ∧
      decode w = .ok ins ∧ i.f.clause = none ∧ (field w 24 8).toNat = 0x80 ∧
      fetchWord (countEvent (markIssued s0 0 0) 0 1 1) 0 i.g i.k i.f.pc.toNat = (.word w, s3)) :=
  let s := sIssue (sAt.groups.head?.bind fun e => e.2.fibres.head?.bind fun x => x.2.clause) []
  let s0 := { s with agenda := [] }
  let t := sIssue none [⟨0x10000, 3⟩, ⟨0x10003, 0x80⟩]
  let t0 := { t with agenda := [] }
  let i := iAt (markIssued t0 0 0)
  ⟨⟨s, s0, (groupAt s0 0).get rfl, (fibreAt s0 0 0).get rfl, iAt (markIssued s0 0 0), .nop, 0x84000000,
      (iAt (markIssued s0 0 0)).f.clause.get rfl, by decide +kernel⟩,
   ⟨t, t0, (fetchWord (countEvent (markIssued t0 0 0) 0 1 1) 0 i.g i.k 0x10000).2, (groupAt t0 0).get rfl,
      (fibreAt t0 0 0).get rfl, i, .clause 0 0 0 3, 0x80000003, by decide +kernel⟩⟩

theorem wit_StepTakesTheFirstMove :
    (∃ s m rest w, State.agenda s = m :: rest ∧ m = .event w ∧ s.power = .on) ∧
    (∃ s m rest w, State.agenda s = m :: rest ∧ m = .event w ∧ eventAllowed s.power w = false) ∧
    (∃ (s : State) (rest : List Move) (x : Die), s.agenda = .tick 1000 :: rest ∧ dieAt s 35 = some x ∧ x.active = true ∧
      x.failed = false ∧ x.slew = 0 ∧ x.hold = 0 ∧ x.frac < 64 ∧ x.gt + 1000 < 2 ^ 64 ∧ s.power = .on ∧
      (∀ e ∈ s.groups, e.2.logQueue = []) ∧ s.outbox = [] ∧
      (let s0 := { s with agenda := rest }
       latchTiles s0 = s0 ∧ ∀ l ∈ slotLimits s0 ++ limits s0, l.1 ≠ 0 ∧ 1000 ≤ l.1)) ∧
    (∃ (s : State) (rest : List Move), s.agenda = .hostWrite 127 [7] :: rest ∧ partialsOf s (127 / 128) = [] ∧
      (homeOf s (127 / 128)).holders = [] ∧ s.held = false ∧ s.memoryForm ∧
      snoopHeld s 127 1 = false) :=
  let e : State := { sAt with agenda := [.event (.getVersion 0)] }
  ⟨⟨e, .event (.getVersion 0), [], .getVersion 0, by decide +kernel⟩,
   ⟨{ e with power := .silent }, .event (.getVersion 0), [], .getVersion 0, by decide +kernel⟩,
   ⟨{ State.reset with agenda := [.tick 1000] }, [], Die.reset 35, by decide +kernel⟩,
   ⟨{ sAt with agenda := [.hostWrite 127 [7]] }, [], by unfold State.memoryForm; decide +kernel⟩⟩

theorem wit_EncodedWordsDecode : (Instr.cstart 12 8 2).hasWord = true ∧ encode (.cstart 12 8 2) = some 0xE8308002 := by
  decide +kernel

theorem wit_DecodedWordsEncode : decode 0xE8308002 = .ok (.cstart 12 8 2) := by decide +kernel

theorem wit_RegisterWordsKeepThePanel :
    ∃ s t w, State.memoryForm s ∧ isRegisterWord w = true ∧ exec w s = .next t :=
  ⟨sAt, (match exec (.iadd (.v 0) .lid .lid) sAt with | .next t => t | _ => sAt), .iadd (.v 0) .lid .lid,
    by unfold State.memoryForm; decide +kernel, by decide +kernel, rfl⟩

/-! ## Ill-formed terms -/

theorem test_wf_destination : (Instr.iadd .lid .zero .zero).wf = false := by decide
theorem test_wf_source : (Instr.iadd .zero .none .zero).wf = false := by decide
theorem test_wf_run : (Instr.ld64 (.v 3) (.v 0) 0).wf = false := by decide
theorem test_wf_data : (Instr.st128 (.v 2) (.v 0) 0).wf = false := by decide
theorem test_wf_address : (Instr.ld32 (.v 3) (.v 1) 0).wf = false := by decide
theorem test_wf_main : (Instr.tex (.o 0) (.v 0) 0).wf = false := by decide
theorem test_wf_fragment : (Instr.mma 0 0 (.o 1) (.o 4)).wf = false := by decide
theorem test_wf_operand_run : (Instr.accrd (.o 12) 0 0).wf = false := by decide
theorem test_wf_condition : (Instr.icmp 6 1 .zero .zero).wf = false := by decide
theorem test_wf_predicate : (Instr.icmp 0 0 .zero .zero).wf = false := by decide
theorem test_wf_even : (Instr.rdtime 3).wf = false := by decide
theorem test_wf_flag : (Instr.mloop 0 13).wf = false := by decide
theorem test_wf_flags : (Instr.clause 0 0 3 0).wf = false ∧ (Instr.clause 0 3 3 0).wf = false := by decide
theorem test_wf_rounding : (Instr.pfx .zero 0 0 6 0 0 0 0).wf = false := by decide
theorem test_wf_type : (Instr.mma 8 0 (.o 0) (.o 4)).wf = false := by decide
theorem test_wf_size : (Instr.sld 0 0 0 3 0).wf = false := by decide
theorem test_wf_level : (Instr.barr 0 0 4).wf = false ∧ (Instr.barw 0 2 8).wf = false := by decide
theorem test_wf_query : (Instr.sumrd 0 0 0 7).wf = false := by decide
theorem test_wf_part : (Instr.partFail (.die 36)).wf = false ∧ (Instr.partFail (.core 35 96)).wf = false := by decide
theorem test_wf_lane_register : (Instr.rdlane 0 0 .zero).wf = false := by decide

/-! ## Words written out from the encoding (04 R83 to R102; the kernel of the chapter's end) -/

theorem test_decode_clause : decode 0x80001004 = .ok (.clause 1 0 0 4) := by decide +kernel
theorem test_decode_clause_flag : decode 0x80000100 = .ok (.clause 0 1 0 0) := by decide +kernel
theorem test_decode_ld32 : decode 0x53020002 = .ok (.ld32 (.v 2) (.v 0) 2) := by decide +kernel
theorem test_decode_pfx : decode 0x81040200 = .ok (.pfx (.v 4) 0 0 1 0 0 0 0) := by decide +kernel
theorem test_decode_ffma : decode 0x2B0302E8 = .ok (.ffma (.v 3) (.v 2) (.s 8)) := by decide +kernel
theorem test_decode_rep : decode 0x830C9000 = .ok (.rep 3 1 1 0) := by decide +kernel
theorem test_decode_iaddi : decode 0x1C0804FD = .ok (.iaddi (.v 8) (.v 4) 0xFD) := by decide +kernel
theorem test_decode_cleared : decode 0x00000000 = .ok (.iadd (.v 0) (.v 0) (.v 0)) := by decide +kernel
theorem test_decode_fence : decode 0xB3000003 = .ok (.fence 3) := by decide +kernel
theorem test_decode_accz : decode 0xC9000003 = .ok (.accz 3) := by decide +kernel
theorem test_decode_sumq : decode 0x76D4E605 = .ok (.sumq 3 (.v 5)) := by decide +kernel
theorem test_decode_redadd : decode 0x6CD40002 = .ok (.redadd (.v 0) (.v 2)) := by decide +kernel
theorem test_decode_barr : decode 0xD0140019 = .ok (.barr 5 1 9) := by decide +kernel
theorem test_decode_sumrd : decode 0xDA102181 = .ok (.sumrd 4 2 6 1) := by decide +kernel
theorem test_decode_rdsr : decode 0xF11C0018 = .ok (.rdsr 7 0x18) := by decide +kernel
theorem test_decode_launch : decode 0xF6084181 = .ok (.launch 2 4 6 1) := by decide +kernel
theorem test_decode_satom : decode 0xB2240481 = .ok (.satom 9 0 18 0 1) := by decide +kernel
theorem test_decode_fork : decode 0x8A040010 = .ok (.fork 1 16) := by decide +kernel
theorem test_decode_nbind : decode 0xE00C4000 = .ok (.nbind 3 4) := by decide +kernel
theorem test_decode_reserved : decode 0x79000000 = .error .reservedOpcode := by decide +kernel

/-! ## Single steps -/

/-- The state after a word; where the word does not answer one, the state before. -/
def after (w : Instr) (s : State) : State := match exec w s with | .next t => t | _ => s

/-- A lane's register in a state. -/
def laneOf (s : State) (r : LReg) (l : Nat) : Word := readReg (iAt s).g (iAt s).f r l

theorem test_step_iaddi : (List.range 4).map (fun l => laneOf (after (.iaddi (.v 8) .lid 0xFD) sAt) (.v 8) (10 + l)) =
    [7, 8, 9, 10] := by decide +kernel
theorem test_step_isub_wraps : laneOf (after (.isub (.v 9) .zero .lid) sAt) (.v 9) 1 = 0xFFFFFFFF := by decide +kernel
theorem test_step_imul : laneOf (after (.imul (.v 9) .lid .lid) sAt) (.v 9) 63 = 3969 := by decide +kernel
theorem test_step_brev : laneOf (after (.brev (.v 9) .lid) sAt) (.v 9) 1 = 0x80000000 := by decide +kernel
theorem test_step_clz : laneOf (after (.clz (.v 9) .lid) sAt) (.v 9) 0 = 32 := by decide +kernel
theorem test_step_qswapx : laneOf (after (.qswapx (.v 9) .lid) sAt) (.v 9) 62 = 63 := by decide +kernel
theorem test_step_cvtif : laneOf (after (.cvtif (.v 9) .lid) sAt) (.v 9) 3 = 0x40400000 := by decide +kernel
theorem test_step_trap : (iAt (after (.trap 5) sTrap)).f.pc = 0x100000100 := by decide +kernel
theorem test_step_last_result : laneOf (after (.iaddi (.v 8) .lid 0xFD) sAt) (.l 0) 10 = 7 := by decide +kernel
theorem test_step_silent : step { State.reset with power := .off, agenda := [] } = .fault .moduleOff := by rfl

/-- The word at the reset state's next issue, placed there, is the one that the step runs. -/
theorem test_step_runs_placed_word :
    (match step (State.reset.withFetchWord 32 0x1C08D5FD) with | .next t => laneOf t (.v 8) 10 | _ => 0) = 7 := by
  decide +kernel

end Sys2Proof.Tests
end

section
/-! SUPPORT. What a register word never reaches (00 R4; 05; 06 R132 to R135), carried through every operation that its
meaning is made of. A register word can meet a trap, and a trap commits the region buffer and may fault its context, so
memory is written, L1 lines are evicted and event records are posted; but every write of memory goes through
`Memory.write`, which keeps the canonical form, and none of these operations changes the module's own parts. -/

namespace Sys2Proof.Machine

/-! ## What is kept -/

/-- The parts of the module that no register word changes: its power, its root, its partitions, its links, its ports,
its link map and its agenda. -/
def State.panelParts (s : State) :
    Power × Nat × Table Partition × List HostLink × List EthPort × List Byte × List Move :=
  (s.power, s.root, s.partitions, s.hostLinks, s.ethPorts, s.linkMap, s.agenda)

/-- That an operation from `s` to `t` keeps memory in its canonical form and leaves the module's parts as they are. -/
structure Keeps (s t : State) : Prop where
  memory : s.memoryForm → t.memoryForm
  panel : t.panelParts = s.panelParts

theorem Keeps.refl (s : State) : Keeps s s := ⟨id, rfl⟩

theorem Keeps.trans {s t u : State} (a : Keeps s t) (b : Keeps t u) : Keeps s u :=
  ⟨b.memory ∘ a.memory, b.panel.trans a.panel⟩

/-- The operation made last, and what came before it. -/
theorem Keeps.after {s t u : State} (b : Keeps t u) (a : Keeps s t) : Keeps s u := a.trans b

/-- A state that differs neither in memory nor in the module's parts. -/
theorem Keeps.of_eq {s t : State} (m : t.mem = s.mem) (p : t.panelParts = s.panelParts) : Keeps s t :=
  ⟨fun h => memoryForm_of_mem h m, p⟩

theorem Keeps.ite {s a b : State} {c : Prop} [Decidable c] (ha : Keeps s a) (hb : Keeps s b) :
    Keeps s (if c then a else b) := by
  split
  · exact ha
  · exact hb

theorem Keeps.writeN (s : State) (a : Nat) (bs : List Byte) : Keeps s { s with mem := Memory.writeN s.mem a bs } :=
  ⟨fun h => Memory.wf_writeN h a bs, rfl⟩

/-- A fold whose accumulator carries something beside the state. -/
theorem Keeps.foldl_snd {α β : Type} (f : α × State → β → α × State) (hf : ∀ acc b, Keeps acc.2 (f acc b).2)
    (bs : List β) (acc : α × State) : Keeps acc.2 (bs.foldl f acc).2 := by
  induction bs generalizing acc with
  | nil => exact .refl _
  | cons b bs ih => exact (hf acc b).trans (ih _)

theorem Keeps.foldl {β : Type} (f : State → β → State) (hf : ∀ s b, Keeps s (f s b)) (bs : List β) (s : State) :
    Keeps s (bs.foldl f s) := by
  induction bs generalizing s with
  | nil => exact .refl _
  | cons b bs ih => exact (hf s b).trans (ih _)

/-! ## Changes of one record -/

theorem keeps_updGroup (s : State) (g : Nat) (f : Group → Group) : Keeps s (updGroup s g f) := .of_eq rfl rfl
theorem keeps_updFibre (s : State) (g b : Nat) (f : Fibre → Fibre) : Keeps s (updFibre s g b f) := .of_eq rfl rfl
theorem keeps_updKernel (s : State) (k : Nat) (f : Kernel → Kernel) : Keeps s (updKernel s k f) := .of_eq rfl rfl
theorem keeps_updBlock (s : State) (b : Nat) (f : Block → Block) : Keeps s (updBlock s b f) := .of_eq rfl rfl
theorem keeps_updCtx (s : State) (c : Nat) (f : Context → Context) : Keeps s (updCtx s c f) := .of_eq rfl rfl
theorem keeps_freshId (s : State) : Keeps s (freshId s).2 := .of_eq rfl rfl

theorem keeps_answerMail (s : State) (key result : Nat) : Keeps s (answerMail s key result) :=
  .ite (.of_eq rfl rfl) (.refl s)

theorem keeps_setExh (s : State) (ctx : Nat) : Keeps s (setExh s ctx) := keeps_updCtx _ _ _

theorem keeps_waitOn (s : State) (gid fid : Nat) (w : Wait) : Keeps s (waitOn s gid fid w) := keeps_updFibre _ _ _ _

theorem keeps_stallFibre (s : State) (gid fid : Nat) (h : Hold) : Keeps s (stallFibre s gid fid h) :=
  keeps_updFibre _ _ _ _

theorem keeps_endFibre (s : State) (gid fid : Nat) : Keeps s (endFibre s gid fid) := keeps_updFibre _ _ _ _

theorem keeps_noteWct (s : State) (gid : Nat) (fibs : List Nat) (scope w : Nat) : Keeps s (noteWct s gid fibs scope w) :=
  keeps_updGroup _ _ _

theorem keeps_addJob (s : State) (j : Job) : Keeps s (addJob s j) := .of_eq rfl rfl

theorem keeps_addWrite (s : State) (w : Write) : Keeps s (addWrite s w) := .of_eq rfl rfl

theorem keeps_dropTlb (s : State) (ctx va size : Nat) : Keeps s (dropTlb s ctx va size) := .of_eq rfl rfl

theorem keeps_countEvent (s : State) (gid code n : Nat) : Keeps s (countEvent s gid code n) := by
  unfold countEvent
  split
  · exact .refl s
  · split
    · exact .refl s
    · exact .ite (keeps_updGroup _ _ _) (.refl s)

/-! ## Homes (09 R186 to R203; 10 R225, R228) -/

theorem keeps_choose (s : State) (n : Nat) : Keeps s (choose s n).2 := by
  refine .of_eq (choose_mem s n) ?_
  unfold choose
  split <;> rfl

theorem keeps_countHot (s : State) (ctx key requester m : Nat) : Keeps s (countHot s ctx key requester m) := by
  refine .of_eq (countHot_mem s ctx key requester m) ?_
  unfold countHot
  dsimp only
  split
  · rfl
  · split <;> rfl

theorem keeps_intoSlice (s : State) (f : Nat → Nat) (held : List (Nat × Nat)) (die line cap : Nat) :
    Keeps s (intoSlice s f held die line cap).2 := by
  unfold intoSlice
  dsimp only
  split
  · exact .refl s
  · split
    · exact .refl s
    · exact keeps_choose _ _

theorem keeps_lodgeTake (s : State) (die line : Nat) (write : Bool) : Keeps s (lodgeTake s die line write) :=
  (keeps_intoSlice s channelOf s.lodge die line 4096).trans (.of_eq rfl rfl)

theorem keeps_homeTouch (s : State) (ctx requester line : Nat) (write : Bool) :
    Keeps s (homeTouch s ctx requester line write) := by
  have noted : Keeps s (if write ∧ !s.written.contains line then { s with written := line :: s.written } else s) :=
    .ite (.of_eq rfl rfl) (.refl s)
  unfold homeTouch
  dsimp only
  generalize (if write ∧ !s.written.contains line then { s with written := line :: s.written } else s) = t at noted ⊢
  have lodged : Keeps t (if keyTier (line * 128) = 0 then
      lodgeTake (countHot t ctx (line * 128) requester 1) (homeDie s ctx (line * 128)) line write else t) :=
    .ite (.after (keeps_lodgeTake _ _ _ _) (keeps_countHot _ _ _ _ _)) (.refl t)
  exact .ite noted (noted.trans (lodged.trans ((keeps_intoSlice _ _ _ _ _ _).trans (.of_eq rfl rfl))))

theorem keeps_needWay (s : State) (src dest : Nat) : Keeps s (needWay s src dest) := .ite (.of_eq rfl rfl) (.refl s)

theorem keeps_needHome (s : State) (ctx die line : Nat) : Keeps s (needHome s ctx die line) := by
  have way : Keeps s (needWay s die (homeDie s ctx (line * 128))) := keeps_needWay _ _ _
  unfold needHome
  dsimp only
  generalize needWay s die (homeDie s ctx (line * 128)) = t at way ⊢
  split <;> split <;> exact way.trans (.of_eq rfl rfl)

theorem keeps_updHome (s : State) (line : Nat) (f : HomeLine → HomeLine) : Keeps s (updHome s line f) := .of_eq rfl rfl

theorem keeps_keepHelps (s : State) (hs : List (Nat × Nat)) : Keeps s (keepHelps s hs) :=
  .ite (.refl s) (.of_eq rfl rfl)

theorem keeps_wakeSpin (s : State) (line : Nat) : Keeps s (wakeSpin s line) :=
  (keeps_keepHelps s _).trans (.of_eq rfl rfl)

theorem keeps_writeLeaf (s : State) (ctx a leaf : Nat) : Keeps s (writeLeaf s ctx a leaf) :=
  (keeps_homeTouch _ _ _ _ _).trans (.writeN _ _ _)

theorem keeps_clearPoison (s : State) (ls : List Nat) : Keeps s (clearPoison s ls) := by
  unfold clearPoison
  refine .ite (.refl s) (.after (.foldl _ (fun s x => ?_) _ _) (.of_eq rfl rfl))
  split
  · exact (keeps_writeLeaf _ _ _ _).trans (keeps_dropTlb _ _ _ _)
  · exact .refl s

theorem keeps_foldPartial (s : State) (p : Partial) : Keeps s (foldPartial s p) := by
  unfold foldPartial
  exact .ite (.refl s) ((keeps_homeTouch _ _ _ _ _).trans ((Keeps.writeN _ _ _).trans (keeps_wakeSpin _ _)))

theorem keeps_recallLine (s : State) (line : Nat) : Keeps s (recallLine s line) := by
  have folded (es : List (Nat × Partial)) (u : State) : Keeps u (es.foldl (fun s e =>
      { foldPartial s e.2 with partials := Table.del s.partials e.1 }) u) := by
    refine .foldl _ (fun s e => ?_) es u
    exact (keeps_foldPartial s e.2).trans (.of_eq rfl rfl)
  unfold recallLine
  refine .ite (.refl s) (.after (keeps_updHome _ _ _) (.after (.foldl _ (fun s _ => folded _ s) _ _) ?_))
  refine .after (keeps_choose _ _) (.foldl _ (fun s c => ?_) _ _)
  exact .after (keeps_needWay _ _ _) (keeps_needWay _ _ _)

/-- A line's home asked, its line recalled and touched. -/
theorem keeps_homeAccess (s : State) (ctx die l : Nat) (w : Bool) :
    Keeps s (homeTouch (recallLine (needHome s ctx die l) l) ctx die l w) :=
  (keeps_needHome _ _ _ _).trans ((keeps_recallLine _ _).trans (keeps_homeTouch _ _ _ _ _))

theorem keeps_homeBytes (s : State) (k : Nat) (bs : List Byte) : Keeps s (homeBytes s k bs) :=
  (Keeps.writeN s k bs).trans (keeps_clearPoison _ _)

theorem keeps_engineRead (s : State) (ctx die k n : Nat) : Keeps s (engineRead s ctx die k n).2 :=
  .foldl _ (fun s l => keeps_homeAccess s ctx die l false) _ s

theorem keeps_engineWrite (s : State) (ctx die k : Nat) (bs : List Byte) : Keeps s (engineWrite s ctx die k bs).2 := by
  unfold engineWrite
  refine .after (.foldl _ keeps_wakeSpin _ _) (.after (keeps_homeBytes _ k bs) (.after (keeps_updCtx _ _ _) ?_))
  exact .foldl _ (fun s l => keeps_homeAccess s ctx die l true) _ s

/-! ## L1 caches (09 R191, R203) -/

theorem keeps_unkeepFills (s : State) (ck : Nat) (p : Fill → Bool) : Keeps s (unkeepFills s ck p) := .of_eq rfl rfl

theorem keeps_l1Drop (s : State) (ck : Nat) (p : Nat → L1Byte → Bool) : Keeps s (l1Drop s ck p) := .of_eq rfl rfl

theorem keeps_l1Forget (s : State) (ck k n : Nat) : Keeps s (l1Forget s ck k n) :=
  (keeps_l1Drop _ _ _).trans (keeps_unkeepFills _ _ _)

theorem keeps_l1Touch (s : State) (ck gid k : Nat) : Keeps s (l1Touch s ck gid k) := .of_eq rfl rfl

theorem keeps_l1WriteBack (s : State) (ck : Nat) (p : Nat → L1Byte → Bool) : Keeps s (l1WriteBack s ck p).2 := by
  unfold l1WriteBack
  refine Keeps.foldl_snd _ (fun acc line => ?_) _ (0, s)
  refine .after (keeps_wakeSpin _ _) (.after (.foldl _ (fun s e => ?_) _ _) (keeps_homeAccess _ _ _ _ _))
  exact ⟨fun h => Memory.wf_write h _ _, rfl⟩

theorem keeps_evictLine (s : State) (ck line : Nat) : Keeps s (evictLine s ck line) := by
  have written := keeps_l1WriteBack s ck fun k _ => decide (k / 128 = line)
  unfold evictLine
  dsimp only
  generalize l1WriteBack s ck (fun k _ => decide (k / 128 = line)) = r at written ⊢
  exact written.trans (.of_eq rfl rfl)

theorem keeps_l1Room (s : State) (ck line : Nat) : Keeps s (l1Room s ck line) :=
  .ite (.refl s) ((keeps_choose _ _).trans (keeps_evictLine _ _ _))

theorem keeps_l1Store (s : State) (ck gid ctx scope k : Nat) (bs : List Byte) :
    Keeps s (l1Store s ck gid ctx scope k bs) := by
  refine .foldl _ (fun s line => ?_) _ s
  have touched : Keeps s (l1Touch (l1Room s ck line) ck gid (line * 128)) :=
    .after (keeps_l1Touch _ _ _ _) (keeps_l1Room _ _ _)
  dsimp only
  generalize l1Touch (l1Room s ck line) ck gid (line * 128) = t at touched ⊢
  exact touched.trans (.of_eq rfl rfl)

theorem keeps_l1Load (s : State) (ck ctx k n : Nat) : Keeps s (l1Load s ck ctx k n).2 := by
  refine .foldl _ (fun s line => ?_) _ s
  exact .ite (.refl s) (keeps_homeAccess _ _ _ _ _)

theorem keeps_captureBefore (s : State) (gid : Nat) (fibs : List Nat) (ck ctx k n : Nat) :
    Keeps s (captureBefore s gid fibs ck ctx k n) := by
  unfold captureBefore
  exact .ite ((keeps_l1Load s _ _ _ _).trans (.of_eq rfl rfl)) (.refl s)

theorem keeps_foldInL1 (s : State) (ck ctx k : Nat) (op : AtomOp) (ty w : Nat) (b : DWord) :
    Keeps s (foldInL1 s ck ctx k op ty w b) := by
  have added (t : State) (ps : Table Partial) : Keeps t { (freshId t).2 with partials := ps } := .of_eq rfl rfl
  unfold foldInL1
  dsimp only
  split
  · exact .of_eq rfl rfl
  · exact .after (added _ _) (.after (keeps_l1Room _ _ _) (.of_eq rfl rfl))

/-! ## Translation (10 R211 to R216) -/

theorem keeps_withRanges (s : State) (ck ctx : Nat) : Keeps s (withRanges s ck ctx) :=
  .ite (.refl s) (.of_eq rfl rfl)

theorem keeps_keepLeaf (s : State) (e : TlbEntry) : Keeps s (keepLeaf s e) := .of_eq rfl rfl

theorem keeps_touchWalk (s : State) (ctx die a : Nat) : Keeps s (touchWalk s ctx die a) :=
  .foldl _ (fun _ _ => (keeps_needWay _ _ _).trans (keeps_homeTouch _ _ _ _ _)) _ s

theorem keeps_translate (s : State) (ck ctx a : Nat) : Keeps s (translate s ck ctx a).2 := by
  unfold translate
  dsimp only
  split
  · exact .refl s
  · refine (keeps_withRanges s ck ctx).trans ?_
    split
    · exact .refl _
    · split
      · exact .refl _
      · split
        · exact (keeps_touchWalk _ _ _ _).trans (keeps_keepLeaf _ _)
        · exact keeps_touchWalk _ _ _ _

/-! ## The commit of a region buffer (11 R236 to R245) -/

theorem keeps_sendStore (s : State) (gid : Nat) (fibs : List Nat) (ck ctx va : Nat) (bs : List Byte) :
    Keeps s (sendStore s gid fibs ck ctx va bs) := by
  unfold sendStore
  dsimp only
  refine .after (.ite ?_ ?_) (keeps_translate s ck ctx va)
  · refine .after (keeps_noteWct _ _ _ _ _) (.after (.ite (keeps_clearPoison _ _) (.refl _)) ?_)
    exact .after (keeps_l1Store _ _ _ _ _ _ _) (keeps_captureBefore _ _ _ _ _ _ _)
  · exact .after (keeps_addWrite _ _) (keeps_l1Forget _ _ _ _)

theorem keeps_sendReduce (s : State) (gid : Nat) (fibs : List Nat) (ck ctx va : Nat) (op : AtomOp) (ty w : Nat)
    (b : DWord) : Keeps s (sendReduce s gid fibs ck ctx va op ty w b) := by
  unfold sendReduce
  dsimp only
  refine .after (.ite ?_ (.ite ?_ ?_)) (keeps_translate s ck ctx va)
  · refine .after (keeps_noteWct _ _ _ _ _) (.after (keeps_l1Store _ _ _ _ _ _ _) ?_)
    exact .after (keeps_l1Load _ _ _ _ _) (keeps_captureBefore _ _ _ _ _ _ _)
  · exact .after (keeps_addWrite _ _) (keeps_l1Forget _ _ _ _)
  · split
    · exact .after (keeps_noteWct _ _ _ _ _) (keeps_foldInL1 _ _ _ _ _ _ _ _)
    · exact keeps_addWrite _ _

theorem keeps_sendEntry (s : State) (gid : Nat) (fibs : List Nat) (ck ctx : Nat) (ws : List BufWrite) :
    Keeps s (sendEntry s gid fibs ck ctx ws) := by
  have stored (rs : List (Nat × List Byte)) :
      Keeps s (rs.foldl (fun s r => sendStore s gid fibs ck ctx r.1 r.2) s) :=
    .foldl _ (fun s r => keeps_sendStore s gid fibs ck ctx r.1 r.2) rs s
  unfold sendEntry
  refine .after (.foldl _ (fun s w => ?_) _ _) (stored _)
  cases w with
  | store va bs => exact .refl s
  | reduce va op ty n b => exact keeps_sendReduce _ _ _ _ _ _ _ _ _ _

theorem keeps_commitNow (s : State) (gid fid : Nat) : Keeps s (commitNow s gid fid) := by
  unfold commitNow
  split
  · exact .refl s
  · split
    · exact .after (keeps_updFibre _ _ _ _) (.foldl _ (fun s e => keeps_sendEntry _ _ _ _ _ _) _ s)
    · exact .refl s

/-! ## Page jobs and events of the command processor (10 R222, R226; 17 R362) -/

theorem keeps_startStaging (s : State) (ctx : Nat) (p : Pg) : Keeps s (startStaging s ctx p) := by
  unfold startStaging
  split
  · exact (keeps_writeLeaf _ _ _ _).trans (keeps_addJob _ _)
  · exact .refl s

theorem keeps_startCollapse (s : State) (ctx : Nat) (p : Pg) : Keeps s (startCollapse s ctx p) := by
  unfold startCollapse
  split
  · refine .ite (.refl s) ?_
    exact (keeps_writeLeaf _ _ _ _).trans ((keeps_dropTlb _ _ _ _).trans (keeps_addJob _ _))
  · exact .refl s

theorem keeps_heldUp {s t : State} {ctx a n : Nat} {write : Bool} (h : heldUp s ctx a n write = some t) : Keeps s t := by
  unfold heldUp at h
  split at h
  · cases h; exact keeps_startStaging _ _ _
  · cases h; exact keeps_startCollapse _ _ _
  · cases h

theorem keeps_eventHeldUp {s t : State} {ctx : Nat} {c : Context} (h : eventHeldUp s ctx c = some t) : Keeps s t := by
  simp only [eventHeldUp, Option.or_eq_some_iff] at h
  obtain (h | ⟨-, h⟩) | ⟨-, h⟩ := h <;> exact keeps_heldUp h

theorem keeps_cpRead (s : State) (ctx die a n : Nat) : Keeps s (cpRead s ctx die a n).2 := by
  unfold cpRead
  split
  · exact .refl s
  · refine Keeps.foldl_snd _ (fun _ _ => ?_) _ ([], s)
    exact .after (keeps_engineRead _ _ _ _ _) (keeps_touchWalk _ _ _ _)

theorem keeps_cpWrite {s t : State} {ctx die a w : Nat} {bs : List Byte} (h : cpWrite s ctx die a bs = some (w, t)) :
    Keeps s t := by
  unfold cpWrite at h
  split at h
  · cases h
  · cases h
    refine .after (keeps_updCtx _ _ _) (Keeps.foldl_snd _ (fun _ _ => ?_) _ (0, s))
    exact .after (keeps_engineWrite _ _ _ _ _) (keeps_touchWalk _ _ _ _)

theorem keeps_tryWrite (s : State) (ctx a : Nat) (bs : List Byte) : Keeps s (tryWrite s ctx a bs) := by
  unfold tryWrite
  split
  · rename_i h; exact keeps_cpWrite h
  · exact .refl s

theorem keeps_dropEvent (s : State) (ctx : Nat) (c : Context) : Keeps s (dropEvent s ctx c) :=
  (keeps_updCtx _ _ _).trans (keeps_tryWrite _ _ _ _)

theorem keeps_writeEvent (s : State) (ctx die type : Nat) (payload : List Byte) (c : Context) :
    Keeps s (writeEvent s ctx die type payload c).2 := by
  have read : Keeps s (cpRead s ctx (ctxDie s ctx) (rec64 c.desc 0x060) 4).2 := keeps_cpRead _ _ _ _ _
  unfold writeEvent
  dsimp only
  split
  · rename_i h
    rw [h] at read
    exact read.trans (keeps_dropEvent _ _ _)
  · rename_i h
    rw [h] at read
    refine read.trans ?_
    split
    · exact keeps_dropEvent _ _ _
    · split
      · exact keeps_dropEvent _ _ _
      · rename_i h
        exact (keeps_cpWrite h).trans (keeps_updCtx _ _ _)

theorem keeps_outNow (s : State) (ctx die : Nat) (w : OutWrite) : Keeps s (outNow s ctx die w).2 := by
  unfold outNow
  split
  · exact .refl s
  · cases w with
    | event type payload =>
      dsimp only
      split
      · rename_i h; exact keeps_eventHeldUp h
      · exact keeps_writeEvent _ _ _ _ _ _
    | bytes va bs =>
      dsimp only
      split
      · rename_i h; exact keeps_heldUp h
      · exact keeps_tryWrite _ _ _ _
    | released va bs =>
      dsimp only
      split
      · exact .refl s
      · split
        · rename_i h; exact keeps_heldUp h
        · exact keeps_tryWrite _ _ _ _

theorem keeps_outOne (s : State) (ctx die : Nat) (w : OutWrite) : Keeps s (outOne s ctx die w).2 := by
  have made : Keeps s (outNow { s with held := false } ctx die w).2 := .after (keeps_outNow _ _ _ _) (.of_eq rfl rfl)
  unfold outOne
  dsimp only
  split
  · exact .refl s
  · exact made.trans (.of_eq rfl rfl)

theorem keeps_sendOut (s : State) (ctx die : Nat) (w : OutWrite) : Keeps s (sendOut s ctx die w) := by
  have one : Keeps s (outOne s ctx die w).2 := keeps_outOne s ctx die w
  unfold sendOut
  refine .ite (.of_eq rfl rfl) ?_
  split
  · rename_i h; rw [h] at one; exact one
  · rename_i h; rw [h] at one; exact one.trans (.of_eq rfl rfl)

theorem keeps_pageRequest (s : State) (ctx die va ident : Nat) : Keeps s (pageRequest s ctx die va ident) :=
  keeps_sendOut _ _ _ _

theorem keeps_engineMeets (s : State) (ctx die : Nat) (p : Pg) (va : Nat) (b : Block1) :
    Keeps s (engineMeets s ctx die p va b) := by
  unfold engineMeets
  split
  · exact keeps_pageRequest _ _ _ _ _
  · exact keeps_startCollapse _ _ _
  · exact keeps_startStaging _ _ _
  · exact .refl s

/-! ## Traps (18 R367 to R370, R386) -/

theorem keeps_faultContext (s : State) (ctx die cause : Nat) (epc : DWord) (ident : Nat) :
    Keeps s (faultContext s ctx die cause epc ident) := by
  unfold faultContext
  split
  · exact .refl s
  · refine .ite ?_ (.refl s)
    exact (keeps_updCtx _ _ _).trans ((keeps_answerMail _ _ _).trans (keeps_sendOut _ _ _ _))

theorem keeps_deliverTrap (s : State) (gid fid : Nat) : Keeps s (deliverTrap s gid fid) := by
  unfold deliverTrap
  refine .ite (.refl s) ?_
  split
  · exact .refl s
  · split
    · split
      · exact .refl s
      · dsimp only
        have loaded (c : Prop) [Decidable c] (u : State) (f : Group → Group) (n : Nat) (k : Kernel → Kernel) :
            Keeps u (if c then updKernel (updGroup u gid f) n k else updGroup u gid f) :=
          .ite (.after (keeps_updKernel _ _ _) (keeps_updGroup _ _ _)) (keeps_updGroup _ _ _)
        refine .ite (.after (keeps_endFibre _ _ _) (loaded _ _ _ _ _)) ?_
        refine .after (.ite ?_ (keeps_updFibre _ _ _ _)) (.after (loaded _ _ _ _ _) (keeps_commitNow s gid fid))
        exact .after (keeps_faultContext _ _ _ _ _ _) (keeps_updFibre _ _ _ _)
    · exact .refl s

theorem keeps_takeTrap (s : State) (gid fid cause : Nat) (epc addr : DWord) (mask : Mask) (cl : Option Clause) :
    Keeps s (takeTrap s gid fid cause epc addr mask cl) :=
  (keeps_freshId s).trans ((keeps_updFibre _ _ _ _).trans (keeps_deliverTrap _ _ _))

theorem keeps_trapHere (s : State) (i : Iss) (cause : Nat) (addr : DWord) (mask : Mask) :
    Keeps s (trapHere s i cause addr mask) :=
  Keeps.trans (.ite (keeps_countEvent _ _ _ _) (.refl s)) (keeps_takeTrap _ _ _ _ _ _ _ _)

theorem keeps_illegal (s : State) (i : Iss) : Keeps s (illegal s i) := keeps_trapHere _ _ _ _ _

theorem keeps_stepTrap (s : State) (i : Iss) : Keeps s (stepTrap s i) := by
  unfold stepTrap
  refine .ite ?_ (.refl s)
  split
  · exact .ite (keeps_takeTrap _ _ _ _ _ _ _ _) (.refl s)
  · exact .refl s

theorem keeps_raisePending (s : State) (i : Iss) : Keeps s (raisePending s i) := by
  unfold raisePending
  split
  · exact .refl s
  · exact .ite (.refl s) ((keeps_updFibre _ _ _ _).trans (keeps_deliverTrap _ _ _))

theorem keeps_finish (s : State) (i : Iss) : Keeps s (finish s i) :=
  (keeps_updFibre _ _ _ _).trans ((keeps_raisePending _ _).trans (keeps_stepTrap _ _))

/-! ## Noise draws (06 R145 to R147) -/

theorem keeps_openReplay (s : State) (k : Kernel) (g : Group) (n : Nat) : Keeps s (openReplay s k g n) := by
  unfold openReplay
  refine .ite (.refl s) (.foldl _ (fun s j => ?_) _ s)
  dsimp only
  split
  · exact keeps_engineRead _ _ _ _ _
  · exact keeps_startStaging _ _ _
  · exact .refl s

theorem keeps_storeHalf (s : State) (gid : Nat) (k : Kernel) (g : Group) (a v : Nat) :
    Keeps s (storeHalf s gid k g a v).1 := by
  have written (die key : Nat) : Keeps s (engineWrite { s with held := false } k.ctx die key (toBytes 2 v)).2 :=
    .after (keeps_engineWrite _ _ _ _ _) (.of_eq rfl rfl)
  unfold storeHalf
  dsimp only
  split
  · split
    · exact .refl s
    · exact .after (keeps_updGroup _ _ _) ((written _ _).trans (.of_eq rfl rfl))
  · exact keeps_engineMeets s k.ctx g.die _ a .wait
  · exact keeps_engineMeets s k.ctx g.die _ a .collapse
  · exact .refl s

theorem keeps_drainLog (fuel : Nat) (s : State) (gid : Nat) : Keeps s (drainLog fuel s gid) := by
  induction fuel generalizing s with
  | zero => exact .refl s
  | succ fuel ih =>
    unfold drainLog
    split
    · exact .refl s
    · split
      · refine (keeps_storeHalf _ _ _ _ _ _).trans (.ite ?_ (.ite ?_ (.refl _)))
        · exact (keeps_updGroup _ _ _).trans (keeps_setExh _ _)
        · exact (keeps_updGroup _ _ _).trans (ih _)
      · exact .refl s

theorem keeps_commitDraws (s : State) (gid n : Nat) : Keeps s (commitDraws s gid n) := by
  unfold commitDraws
  refine .ite (.refl s) ?_
  split
  · exact .refl s
  · split
    · exact .refl s
    · split
      · exact .after (.ite (keeps_setExh _ _) (.refl _)) (.after (keeps_updGroup _ _ _) (.of_eq rfl rfl))
      · refine .after (keeps_drainLog _ _ _) (.after (.ite (keeps_setExh _ _) (.refl _)) ?_)
        exact .after (keeps_updGroup _ _ _) (.of_eq rfl rfl)
      · exact .of_eq rfl rfl

/-! ## Lane words (04 R85, R96; 05 R108 to R130) -/

/-- The state that a repetition leaves, completed or stopped. -/
def RepOut.state : RepOut → State
  | .ok t => t
  | .stop t => t

theorem RepOut.state_ite (c : Prop) [Decidable c] (x y : RepOut) :
    (if c then x else y).state = if c then x.state else y.state := by
  split <;> rfl

theorem Keeps.of_ok {s t : State} {r : RepOut} (k : Keeps s r.state) (h : r = .ok t) : Keeps s t := by
  subst h; exact k

theorem Keeps.of_stop {s t : State} {r : RepOut} (k : Keeps s r.state) (h : r = .stop t) : Keeps s t := by
  subst h; exact k

theorem keeps_standing (s : State) (i : Iss) (j : Nat) : Keeps s (standing s i j) := keeps_updFibre _ _ _ _

theorem keeps_boardHold {board : List Nat} {s t : State} {i : Iss} {fs : List (Use × LReg)}
    (h : boardHold board s i fs = some t) : Keeps s t := by
  unfold boardHold at h
  split at h
  · cases h; exact keeps_stallFibre _ _ _ _
  · obtain ⟨k, -, rfl⟩ := Option.map_eq_some_iff.1 h
    exact keeps_waitOn _ _ _ _

theorem keeps_runOnce (s : State) (i : Iss) (fm : Form) (m : Mods) (d a b : LReg) (imm : Nat) (fn : LaneFn)
    (sink : Sink) : Keeps s (runOnce s i fm m d a b imm fn sink).state := by
  unfold runOnce
  simp only [RepOut.state_ite]
  refine .ite (keeps_waitOn _ _ _ _) ?_
  split
  · exact .after (keeps_waitOn _ _ _ _) (keeps_openReplay _ _ _ _)
  · have taken (c : Prop) [Decidable c] (n : Nat) (blk : Block) : Keeps s
        (if c then commitDraws (openReplay s i.k i.g n) i.gid n
          else updBlock (commitDraws (openReplay s i.k i.g n) i.gid n) i.g.block fun _ => blk) := by
      have drawn : Keeps s (commitDraws (openReplay s i.k i.g n) i.gid n) :=
        .after (keeps_commitDraws _ _ _) (keeps_openReplay _ _ _ _)
      exact .ite drawn (.after (keeps_updBlock _ _ _) drawn)
    cases sink with
    | pred n => exact .after (keeps_updGroup _ _ _) (taken _ _ _)
    | regs =>
      dsimp only
      split
      · exact .after (keeps_updBlock _ _ _) (taken _ _ _)
      · split
        · exact .after (keeps_updFibre _ _ _ _) (.after (keeps_updGroup _ _ _) (taken _ _ _))
        · exact .after (keeps_updGroup _ _ _) (taken _ _ _)

theorem keeps_runReps (fm : Form) (m : Mods) (d a b : LReg) (imm : Nat) (fn : LaneFn) (sink : Sink) (sd sa sb : Int)
    (board : List Nat) (n j : Nat) (s : State) (i : Iss) :
    Keeps s (runReps fm m d a b imm fn sink sd sa sb board n j s i).state := by
  induction n generalizing j s i with
  | zero => exact .refl s
  | succ n ih =>
    unfold runReps
    split
    · dsimp only
      split
      · exact keeps_trapHere _ _ _ _ _
      · split
        · rename_i h
          exact .after (keeps_standing _ _ _) (keeps_boardHold h)
        · split
          · rename_i h
            exact .after (keeps_standing _ _ _) (.of_stop (keeps_runOnce _ _ _ _ _ _ _ _ _ _) h)
          · rename_i h
            have once := Keeps.of_ok (keeps_runOnce _ _ _ _ _ _ _ _ _ _) h
            split
            · exact .after (ih _ _ _) once
            · exact once
    · exact keeps_trapHere _ _ _ _ _

theorem keeps_laneRun (s : State) (i : Iss) (fm : Form) (d a b : LReg) (low : Nat) (imm : Mods → Nat) (fn : LaneFn)
    (sink : Sink) : Keeps s (laneRun s i fm d a b low imm fn sink) := by
  unfold laneRun
  refine .ite (keeps_illegal _ _) ?_
  split
  · exact keeps_trapHere _ _ _ _ _
  · dsimp only
    split
    · rename_i h
      split at h
      · exact keeps_boardHold h
      · cases h
    · split
      · rename_i h
        exact .of_stop (keeps_runReps _ _ _ _ _ _ _ _ _ _ _ _ _ _ _ _) h
      · rename_i h
        have run := Keeps.of_ok (keeps_runReps _ _ _ _ _ _ _ _ _ _ _ _ _ _ _ _) h
        exact .ite (.after (keeps_standing _ _ _) run) (.after (keeps_finish _ _) run)

/-! ## The meanings of words -/

/-- That a meaning, where it answers a next state, keeps memory canonical and the module's parts. -/
def KeepsNext (s : State) (o : Out) : Prop := ∀ t, o = .next t → Keeps s t

theorem keepsNext_withIssuing {s : State} {act : Iss → State} (h : ∀ i, Keeps s (act i)) :
    KeepsNext s (withIssuing s act) := by
  intro t e
  unfold withIssuing at e
  split at e
  · cases e; exact h _
  · cases e

theorem keepsNext_uniform {s : State} {ok : Iss → Bool} {regs : List Nat} {act : Iss → State}
    (h : ∀ i, Keeps s (act i)) : KeepsNext s (uniform s ok regs act) := by
  refine keepsNext_withIssuing fun i => .ite (keeps_illegal _ _) ?_
  split
  · exact keeps_waitOn _ _ _ _
  · exact h i

theorem keeps_putS (s : State) (i : Iss) (d : BitVec 6) (x : Word) : Keeps s (putS s i d x) :=
  .after (keeps_finish _ _) (keeps_updGroup _ _ _)

theorem keeps_putPair (s : State) (i : Iss) (d : BitVec 6) (x : DWord) : Keeps s (putPair s i d x) :=
  .after (keeps_finish _ _) (keeps_updGroup _ _ _)

/-- A uniform word that writes an S register. -/
theorem keepsNext_uniform_putS {s : State} {ok : Iss → Bool} {regs : List Nat} {d : BitVec 6} {x : Iss → Word} :
    KeepsNext s (uniform s ok regs fun i => putS s i d (x i)) := keepsNext_uniform fun _ => keeps_putS _ _ _ _

/-- A uniform word that writes a pair of S registers. -/
theorem keepsNext_uniform_putPair {s : State} {ok : Iss → Bool} {regs : List Nat} {d : BitVec 6} {x : Iss → DWord} :
    KeepsNext s (uniform s ok regs fun i => putPair s i d (x i)) := keepsNext_uniform fun _ => keeps_putPair _ _ _ _

theorem keepsNext_predicate {s : State} {d : BitVec 3} {regs : List Nat} {ok : Bool} {f : Iss → Mask} :
    KeepsNext s (predicate s d regs ok f) :=
  keepsNext_uniform fun _ => .after (keeps_finish _ _) (keeps_updGroup _ _ _)

theorem keepsNext_recordModifier {s : State} {ok : Chain → Bool} {f : Chain → Chain} :
    KeepsNext s (recordModifier s ok f) :=
  keepsNext_withIssuing fun _ => .ite (keeps_updFibre _ _ _ _) (keeps_illegal _ _)

theorem keepsNext_laneReg {s : State} {fm : Form} {d a b : LReg} {fn : LaneFn} : KeepsNext s (laneReg s fm d a b fn) :=
  keepsNext_withIssuing fun _ => keeps_laneRun _ _ _ _ _ _ _ _ _ _

theorem keepsNext_laneImm {s : State} {fm : Form} {d a : LReg} {low : Nat} {imm : Mods → Nat} {fn : LaneFn} :
    KeepsNext s (laneImm s fm d a low imm fn) :=
  keepsNext_withIssuing fun _ => keeps_laneRun _ _ _ _ _ _ _ _ _ _

theorem keepsNext_laneCompare {s : State} {types : List Nat} {top : Nat} {c : BitVec 5} {p : BitVec 3} {a b : LReg}
    {cond : Nat → Nat → Nat → Bool} : KeepsNext s (laneCompare s types top c p a b cond) :=
  keepsNext_withIssuing fun _ => .ite (keeps_illegal _ _) (keeps_laneRun _ _ _ _ _ _ _ _ _ _)

theorem keepsNext_laneMove {s : State} {u : Use} {d a b : LReg} {sigma : Nat → Nat → Option Nat} :
    KeepsNext s (laneMove s u d a b sigma) :=
  keepsNext_withIssuing fun _ => keeps_laneRun _ _ _ _ _ _ _ _ _ _

theorem keepsNext_reorder {s : State} {b k : LReg} {inv : BitVec 1} {cnt : BitVec 6} :
    KeepsNext s (execReorder b k inv cnt s) := by
  refine keepsNext_withIssuing fun i => .ite (keeps_illegal _ _) ?_
  split
  · exact keeps_trapHere _ _ _ _ _
  · refine .ite (keeps_stallFibre _ _ _ _) (.after (keeps_finish _ _) ?_)
    have put (g : Group) (f : Fibre → Fibre) : Keeps s (updFibre (setGroup s i.gid g) i.gid i.fid f) :=
      .after (keeps_updFibre _ _ _ _) (.of_eq rfl rfl)
    exact .ite (put _ _) (.after (keeps_updFibre _ _ _ _) (put _ _))

theorem keepsNext_rdlane {s : State} {d a : BitVec 6} {v : LReg} : KeepsNext s (execRdlane d a v s) :=
  keepsNext_uniform fun _ => .ite (keeps_stallFibre _ _ _ _) (keeps_putS _ _ _ _)

theorem keepsNext_wrlane {s : State} {d a : BitVec 6} {v : LReg} : KeepsNext s (execWrlane d a v s) :=
  keepsNext_uniform fun _ => .ite (keeps_stallFibre _ _ _ _)
    (.ite (.after (keeps_finish _ _) (keeps_updGroup _ _ _)) (keeps_finish _ _))

theorem keepsNext_nop {s : State} : KeepsNext s (execNop s) := keepsNext_uniform fun _ => keeps_finish _ _

/-! ## The register words among all instructions (04 R86 to R99) -/

/-- A word whose fields leave its top byte to the fixed bits has these for its opcode. -/
theorem opcodeOf_eq {w : Instr} {fixed : Nat} {fs : List (Nat × Nat)} (e : encode w = word fixed fs)
    (h : fixed % 2 ^ 24 + packFields fs < 2 ^ 24) : opcodeOf w = some (fixed / 2 ^ 24 % 256) := by
  simp only [opcodeOf, e, word, field, Option.map_some, Option.some.injEq, BitVec.toNat_ofNat]
  omega

theorem isRegisterWord_of_opcode {w : Instr} {n : Nat} (h : opcodeOf w = some n) :
    isRegisterWord w = (n < 0x50 || (0x81 ≤ n && n ≤ 0x84) || (0x90 ≤ n && n ≤ 0xAB)) := by
  simp [isRegisterWord, h]

/-- A word whose fixed opcode lies outside the register words' is none of them. -/
theorem not_isRegisterWord {w : Instr} {fixed : Nat} {fs : List (Nat × Nat)} (e : encode w = word fixed fs)
    (h : fixed % 2 ^ 24 + packFields fs < 2 ^ 24)
    (out : 0x50 ≤ fixed / 2 ^ 24 % 256 ∧ fixed / 2 ^ 24 % 256 < 0x81 ∨
      0x85 ≤ fixed / 2 ^ 24 % 256 ∧ fixed / 2 ^ 24 % 256 < 0x90 ∨ 0xAB < fixed / 2 ^ 24 % 256) :
    ¬isRegisterWord w = true := by
  rw [isRegisterWord_of_opcode (opcodeOf_eq e h)]
  simp only [Bool.or_eq_true, Bool.and_eq_true, decide_eq_true_eq]
  omega

/-- The meaning of every register word, class by class of its form (04 R86 to R89). -/
theorem keepsNext_exec (w : Instr) (s : State) (hw : isRegisterWord w = true) : KeepsNext s (exec w s) := by
  cases w with
  | iadd | isub | imul | imulh | umulh | imad | imin | imax | umin | umax | and | or | xor | andn | shl | shr | sar
  | rol | popc | clz | brev | bfx | bfi | mov | sel | fadd | fsub | fmul | ffma | fmin | fmax | fclass | frcp | frsq
  | fsqrt | fexp2 | flog2 | fsin | fcos | ftanh | hadd2 | hmul2 | hfma2 | hmin2 | hmax2 | dot4 | fdot2 | frnd | cvtif
  | cvtfi | cvtfh | cvthf | cvt8p | cvt8u => exact keepsNext_laneReg
  | iaddi | shli | shri | sari | andi | ori | xori | movi => exact keepsNext_laneImm
  | icmp | ucmp | fcmp => exact keepsNext_laneCompare
  | qswapx | qswapy | qswapd | qbcast | shfl | shflup | shfldn =>
    dsimp only [exec, execQswapx, execQswapy, execQswapd, execQbcast, execShfl, execShflup, execShfldn]
    exact keepsNext_laneMove
  | reorder => exact keepsNext_reorder
  | pfx | pfxi | rep =>
    dsimp only [exec, execPfx, execPfxi, execRep]
    exact keepsNext_recordModifier
  | nop => exact keepsNext_nop
  | sadd | ssub | smul | smulh | sand | sor | sxor | sshl | sshlImm | sshr | sshrImm | ssar | ssarImm | smin | smax
  | scmp | ssel | spopc | sclz | smov | smovi | smovh | saddi => exact keepsNext_uniform_putS
  | sadd64 | sballotToS => exact keepsNext_uniform_putPair
  | sballot | pand | por | pxor | pnot =>
    dsimp only [exec, execSballot, execPand, execPor, execPxor, execPnot]
    exact keepsNext_predicate
  | rdlane => exact keepsNext_rdlane
  | wrlane => exact keepsNext_wrlane
  | ld8u | ld8s | ld16u | ld32 | ld64 | ld128 | st8 | st16 | st32 | st64 | st128 | lcpy | lds32 | lds64 | lds128
  | sts32 | sts64 | sts128 | atadd | atfadd | atmin | atmax | atand | ator | atxor | atxchg | atcas | atinc
  | redadd | redfadd | redmin | redmax | mma | accrd | accwr | neval | tex | splat | sumq | sumh | sumd | clause
  | bra | brc | brp | call | ret | fork | fdone | join | yield | waitf | exit | sld | sst | satom | fence | icinv
  | isync | cwb | cwbAll | pref | prefHome | pcopy | ptile | pstore | pgath | pscat | pfill | mloop | accz
  | accld | accst | mlink | barr | barw | barrw | barq | spinh | suminit | summerge | sumrd | nbind | nbindRel
  | spflush | sptile | cstart | carm | cquery | cqueryState | trap | rdsr | wrsr | rdtime | rng | region | launch =>
    refine absurd hw (not_isRegisterWord rfl ?_ (by decide))
    simp only [packFields]
    omega
  | _ => cases hw

/-- Settles O60, by following every operation that a register word's meaning is made of. -/
theorem registerWordsKeepThePanel : Obligations.RegisterWordsKeepThePanel := by
  unfold Obligations.RegisterWordsKeepThePanel
  intro s t w hs hw ht
  obtain ⟨memory, panel⟩ := keepsNext_exec w s hw t ht
  simp only [State.panelParts, Prod.mk.injEq] at panel
  exact ⟨memory hs, panel⟩

end Sys2Proof.Machine
end

section
/-! SUPPORT. What reset leaves (01 R12 to R15, R22, R23; 26 R436 to R440). -/

namespace Sys2Proof.Machine

/-- Every die of the reset panel is one right after bring-up. -/
theorem mem_dies_reset {x : Die} (h : x ∈ State.reset.dies) : ∃ d, x = Die.reset d := by
  obtain ⟨d, -, rfl⟩ := List.mem_map.1 h
  exact ⟨d, rfl⟩

theorem panelForm_reset : State.reset.panelForm := by
  simp [State.panelForm, State.reset]

theorem buact0_reset : buact0 State.reset = 0xFFFFFFFF := by decide +kernel

theorem buact1_reset : buact1 State.reset = 0x8024FFFF := by decide +kernel

/-- Settles O59, from the record that stands for each die at reset. -/
theorem resetLeavesTheSpecifiedState : Obligations.ResetLeavesTheSpecifiedState := by
  unfold Obligations.ResetLeavesTheSpecifiedState
  have dies : ∀ x ∈ State.reset.dies, x.gt = 0 ∧ x.frac = 0 ∧ x.log = [] ∧ x.hold = 0 ∧ x.slew = 0 := by
    intro x hx
    obtain ⟨d, rfl⟩ := mem_dies_reset hx
    exact ⟨rfl, rfl, rfl, rfl, rfl⟩
  exact ⟨dies, rfl, rfl, rfl, rfl, rfl, rfl, rfl, rfl, panelForm_reset, memoryForm_reset, buact0_reset, buact1_reset⟩

end Sys2Proof.Machine
end

section
/-! SUPPORT. The events of time (01 R24 to R26): what a die reads as once it is changed, each event of the correction
exchange as one equation, and that the counting of time leaves the dies' counts and memory. -/

namespace Sys2Proof.Machine

/-! ## Dies (01 R12, R13) -/

theorem dieAt_updDie {s : State} {d : Nat} {x : Die} (f : Die → Die) (h : dieAt s d = some x) :
    dieAt (updDie s d f) d = some (f x) := by
  unfold dieAt at h
  simp [dieAt, updDie, h]

/-- Two changes of a die are one where they agree on it. -/
theorem updDie_congr {s : State} {d : Nat} {x : Die} {f g : Die → Die} (h : dieAt s d = some x) (e : f x = g x) :
    updDie s d f = updDie s d g := by
  have dies : s.dies.mapIdx (fun i y => if i = d then f y else y) = s.dies.mapIdx fun i y => if i = d then g y else y := by
    refine List.mapIdx_eq_mapIdx_iff.2 fun i hi => ?_
    split
    · rename_i same
      subst same
      obtain ⟨_, hx⟩ := List.getElem?_eq_some_iff.1 h
      rw [hx, e]
    · rfl
  simp only [updDie, dies]

/-! ## The time sideband and stamps (01 R24, R25) -/

theorem sidebandOpen_of_carries {s : State} {d p : Nat} (h : carries s (boundaryOf d p)) : sidebandOpen s d p = true :=
  decide_eq_true h

theorem stampOf_eq {s : State} {d : Nat} {x : Die} (h : dieAt s d = some x) : stampOf s d = x.gt * 64 + x.frac := by
  simp [stampOf, h]

theorem pathAsym_eq {s : State} {d p : Nat} {b : Boundary} (h : s.boundaries[boundaryOf d p]? = some b) :
    pathAsym s d p = b.asym := by
  simp [pathAsym, h]

theorem exchangeDue_iff {x : Die} : exchangeDue x = true ↔ ∀ t, x.lastExchange = some t → t + 10000 ≤ x.gt := by
  unfold exchangeDue
  split <;> simp_all

section
variable {s : State} {d p : Nat} {x : Die} (hx : dieAt s d = some x)
include hx

/-- A due request goes out with its stamp t1 (01 R24). -/
theorem execTimeExchange_due (hp : x.parent = some p) (active : dieActive s d = true) (child : d ≠ s.root)
    (idle : x.req = none) (due : exchangeDue x = true) (way : sidebandOpen s d p = true) :
    execTimeExchange d s = .next (updDie s d fun x => { x with
      req := some { t1 := x.gt * 64 + x.frac, t2 := none, t3 := none, sent := s.refNs, arrived := 0, replied := 0 }
      lastExchange := some x.gt }) := by
  simp only [execTimeExchange, hx, hp, active, child, idle, due, way, Bool.not_true, Option.isSome_none, Bool.false_eq_true,
    or_self, if_false]
  exact congrArg Host.Outcome.next (updDie_congr hx (by rw [stampOf_eq hx]))

section
variable {r : TimeReq} {y : Die} (hp : x.parent = some p) (hr : x.req = some r) (hy : dieAt s p = some y)
  (active : dieActive s p = true) (way : sidebandOpen s d p = true)
include hp hr hy active way

/-- The parent stamps a request's arrival, which the path's asymmetry moves (01 R24, R25). -/
theorem execTimeReply_arrival {b : Boundary} (hb : s.boundaries[boundaryOf d p]? = some b) (fresh : r.t2 = none) :
    execTimeReply d s = .next (updDie s d fun x => { x with
      req := some { r with t2 := some (((y.gt * 64 + y.frac : Nat) : Int) + b.asym).toNat, arrived := s.refNs } }) := by
  simp [execTimeReply, hx, hp, hr, active, way, fresh, stampOf_eq hy, pathAsym_eq hb]

/-- The parent stamps its reply (01 R24). -/
theorem execTimeReply_reply (arrived : r.t2 ≠ none) (fresh : r.t3 = none) :
    execTimeReply d s = .next (updDie s d fun x => { x with
      req := some { r with t3 := some (y.gt * 64 + y.frac), replied := s.refNs } }) := by
  obtain ⟨t2, ht⟩ := Option.ne_none_iff_exists'.1 arrived
  simp [execTimeReply, hx, hp, hr, active, way, ht, fresh, stampOf_eq hy]

end

section
variable {r : TimeReq} (hp : x.parent = some p) (hr : x.req = some r) (active : dieActive s d = true)
  (way : sidebandOpen s d p = true)
include hp hr active way

/-- An exchange that failed is logged and goes out once more (01 R26). -/
theorem execTimeExchangeRetry_again : execTimeExchangeRetry d true s =
    .next (if x.retried then s else updDie (logPart s (.boundary (boundaryOf d p)) 1) d
      fun x => { x with req := none, lastExchange := none, retried := true }) := by
  simp [execTimeExchangeRetry, hx, hp, hr, active, way]

/-- An exchange whose retry failed too loses the parent (01 R26). -/
theorem execTimeExchangeRetry_lost : execTimeExchangeRetry d false s = .next (loseParent s d p x) := by
  simp [execTimeExchangeRetry, hx, hp, hr, active, way]

/-- A reply that is back gives its correction: one beyond 64 ns and the die is lost (01 R24, R26). -/
theorem execTimeCorrection_back {t2 t3 : Nat} (h2 : r.t2 = some t2) (h3 : r.t3 = some t3) (back : r.backAt ≤ s.refNs) :
    execTimeCorrection d s = .next (
      let c := correctionOf r.t1 t2 t3 (x.gt * 64 + x.frac)
      if 4096 < c.natAbs then failDie s d 5 else countGt s (updDie s d fun x => x.correct c)) := by
  simp [execTimeCorrection, hx, hp, hr, h2, h3, active, way, Nat.not_lt.2 back, stampOf_eq hx]

end

/-- An announced hand-over gives the die its parent in the new tree (01 R26). -/
theorem execHandOverAnnouncement_taken {q : Nat} (active : dieActive s d = true) (child : d ≠ s.root)
    (announced : x.handOver = true) (hq : timeParent s d = some q) :
    execHandOverAnnouncement d s = .next (takeParent s d q) := by
  simp [execHandOverAnnouncement, hx, active, child, announced, hq]

end

/-! ## A lost parent (01 R26) -/

/-- An entry of a log leaves the die's count of lost parents. -/
theorem exchangeFails_logError {s : State} {d : Nat} {x : Die} (h : dieAt s d = some x) (cls kind index addr : Nat)
    (group part : Word) :
    ∃ y, dieAt (logError s d cls kind index addr group part) d = some y ∧ y.exchangeFails = x.exchangeFails := by
  refine ⟨_, dieAt_updDie _ h, ?_⟩
  split <;> rfl

/-- A boundary that retrains drops exchanges, and leaves each die's count of lost parents. -/
theorem exchangeFails_retrain {s : State} {d : Nat} {x : Die} (h : dieAt s d = some x) (b : Nat) :
    ∃ y, dieAt (retrain s b) d = some y ∧ y.exchangeFails = x.exchangeFails := by
  unfold dieAt at h
  unfold retrain
  dsimp only
  split
  · exact ⟨x, h, rfl⟩
  · simp only [dieAt, updBoundary, List.getElem?_mapIdx, h, Option.map_some]
    refine ⟨_, rfl, ?_⟩
    split <;> rfl

theorem retrain_root (s : State) (b : Nat) : (retrain s b).root = s.root := by
  unfold retrain
  dsimp only
  split <;> rfl

theorem sidebandLost_root (s : State) (d p : Nat) (x : Die) : (sidebandLost s d p x).root = s.root :=
  retrain_root _ _

/-- A die that loses its first parent, which is not the root, takes the one of R23; the dies that are now too far fail
(01 R23, R26). -/
theorem loseParent_first {s : State} {d p q : Nat} {x : Die} (hx : dieAt s d = some x) (hp : p ≠ s.root) (hd : d ≠ s.root)
    (first : x.exchangeFails = 0) (hq : timeParent (sidebandLost s d p x) d = some q) :
    loseParent s d p x = failDies 36 [] (takeParent (sidebandLost s d p x) d q) := by
  have counted : updDie (retrain (updBoundary (logError s d 2 0 p 0 0 (partWord s d)) (boundaryOf d p)
        fun y => { y with sideFails := 2 }) (boundaryOf d p)) d
      (fun y => { y with req := none, retried := false, exchangeFails := y.exchangeFails + 1 }) = sidebandLost s d p x := by
    obtain ⟨y, hy, same⟩ := exchangeFails_logError hx 2 0 p 0 0 (partWord s d)
    have hy' : dieAt (updBoundary (logError s d 2 0 p 0 0 (partWord s d)) (boundaryOf d p) fun y => { y with sideFails := 2 }) d =
      some y := hy
    obtain ⟨z, hz, same'⟩ := exchangeFails_retrain hy' (boundaryOf d p)
    exact updDie_congr hz (by rw [same', same])
  have root := sidebandLost_root s d p x
  unfold loseParent
  dsimp only
  rw [counted]
  simp [root, hp, hd, first, hq]

/-! ## What the counting of time leaves (16 R348; 18 R386) -/

/-- No group has logged halfwords that are still to store (06 R147). -/
def State.logsStored (s : State) : Prop := ∀ e ∈ s.groups, e.2.logQueue = []

/-- That an operation from `s` to `t` leaves the dies and memory, and queues no logged halfword. -/
structure OnlyCounts (s t : State) : Prop where
  dies : t.dies = s.dies
  mem : t.mem = s.mem
  logs : s.logsStored → t.logsStored

theorem OnlyCounts.refl (s : State) : OnlyCounts s s := ⟨rfl, rfl, id⟩

theorem OnlyCounts.trans {s t u : State} (a : OnlyCounts s t) (b : OnlyCounts t u) : OnlyCounts s u :=
  ⟨b.dies.trans a.dies, b.mem.trans a.mem, b.logs ∘ a.logs⟩

theorem OnlyCounts.foldl {β : Type} (f : State → β → State) (hf : ∀ s b, OnlyCounts s (f s b)) (bs : List β) (s : State) :
    OnlyCounts s (bs.foldl f s) := by
  induction bs generalizing s with
  | nil => exact .refl s
  | cons b bs ih => exact (hf s b).trans (ih _)

/-- What a key reads as stands in the table under that key. -/
theorem mem_of_look {α : Type} {t : Table α} {k : Nat} {v : α} (h : Table.look t k = some v) : (k, v) ∈ t := by
  induction t with
  | nil => cases h
  | cons e t ih =>
    obtain ⟨j, w⟩ := e
    rw [Table.look_cons] at h
    split at h
    · rename_i same
      cases h
      simp [same]
    · exact .tail _ (ih h)

/-- A change of a group that leaves its log queue. -/
theorem onlyCounts_updGroup (s : State) (gid : Nat) {f : Group → Group} (hf : ∀ g, (f g).logQueue = g.logQueue) :
    OnlyCounts s (updGroup s gid f) := by
  refine ⟨rfl, rfl, fun stored e he => ?_⟩
  change e ∈ Table.upd s.groups gid f at he
  cases hg : Table.look s.groups gid with
  | none =>
    rw [Table.upd_absent _ _ hg] at he
    exact stored e he
  | some g =>
    rw [Table.upd_eq _ _ hg] at he
    obtain rfl | he := Table.ins_keys _ _ _ _ he
    · exact (hf g).trans (stored _ (mem_of_look hg))
    · exact stored e he

theorem onlyCounts_countEvent (s : State) (gid code n : Nat) : OnlyCounts s (countEvent s gid code n) := by
  unfold countEvent
  split
  · exact .refl s
  · split
    · exact .refl s
    · split
      · exact onlyCounts_updGroup s gid fun _ => rfl
      · exact .refl s

theorem onlyCounts_countGt (before s : State) : OnlyCounts s (countGt before s) := by
  unfold countGt
  dsimp only
  refine OnlyCounts.trans ?_ (.foldl _ (fun t e => ?_) _ _)
  · split
    · exact ⟨rfl, rfl, id⟩
    · exact .refl s
  · split
    · exact onlyCounts_countEvent _ _ _ _
    · exact .refl t

theorem dieAt_countGt (before s : State) (d : Nat) : dieAt (countGt before s) d = dieAt s d := by
  unfold dieAt
  rw [(onlyCounts_countGt before s).dies]

/-! ## Corrections (01 R24) -/

theorem correct_slewed {x : Die} {c : Int} (h : c.natAbs ≤ 640) : x.correct c =
    { x with req := none, exchangeFails := 0, retried := false, slew := c, hold := 0, phase := 0, drift := 0 } := by
  simp [Die.correct, h]

theorem correct_stepped {x : Die} {c : Int} (h : 640 < c) : (x.correct c).gt = (x.gt * 64 + x.frac + c.toNat) / 64 % 2 ^ 64 ∧
    (x.correct c).frac = (x.gt * 64 + x.frac + c.toNat) % 64 ∧ (x.correct c).slew = 0 ∧ (x.correct c).hold = 0 := by
  have size : c.natAbs = c.toNat := by omega
  have big : ¬c.toNat ≤ 640 := by omega
  have forward : 0 < c := by omega
  simp only [Die.correct, size, if_neg big, if_pos forward, and_self]

theorem correct_held {x : Die} {c : Int} (h : c < -640) : (x.correct c).hold = (-c).toNat ∧ (x.correct c).slew = 0 ∧
    (x.correct c).gt = x.gt ∧ (x.correct c).frac = x.frac := by
  have size : c.natAbs = (-c).toNat := by omega
  have big : ¬(-c).toNat ≤ 640 := by omega
  have backward : ¬0 < c := by omega
  simp only [Die.correct, size, if_neg big, if_neg backward, and_self]

/-- Settles O46, event by event. -/
theorem timeEventsTakeEffect : Obligations.TimeEventsTakeEffect := by
  unfold Obligations.TimeEventsTakeEffect
  refine ⟨fun s d p x hx hp => ⟨?_, ?_, ?_, ?_⟩, ?_, ?_⟩
  · intro active child idle due way
    exact execTimeExchange_due hx hp active child idle (exchangeDue_iff.2 due) (sidebandOpen_of_carries way)
  · intro r y hy active way hr
    exact ⟨fun b hb fresh => execTimeReply_arrival hx hp hr hy active (sidebandOpen_of_carries way) hb fresh,
      fun arrived fresh => execTimeReply_reply hx hp hr hy active (sidebandOpen_of_carries way) arrived fresh⟩
  · intro r hr active way
    exact execTimeExchangeRetry_again hx hp hr active (sidebandOpen_of_carries way)
  · intro r q hr active way hroot hd first hq
    refine (execTimeExchangeRetry_lost hx hp hr active (sidebandOpen_of_carries way)).trans ?_
    exact congrArg _ (loseParent_first hx hroot hd first hq)
  · intro s d p t2 t3 x r c hx active hp way hr h2 h3 back hc
    have event := execTimeCorrection_back hx hp hr active (sidebandOpen_of_carries way) h2 h3 back
    have same : correctionOf r.t1 t2 t3 (x.gt * 64 + x.frac) = c := hc.symm
    simp only [same] at event
    have corrected (small : ¬4096 < c.natAbs) {P : Die → Prop} (hP : P (x.correct c)) :
        Happens (.timeCorrection d) s fun t => ∃ y, dieAt t d = some y ∧ P y := by
      rw [if_neg small] at event
      exact ⟨_, event, _, (dieAt_countGt _ _ _).trans (dieAt_updDie _ hx), hP⟩
    refine ⟨fun low high => ?_, fun far => ?_, fun low high => ?_, fun low high => ?_⟩
    · rw [if_neg (by omega)] at event
      exact event.trans (by simp only [correct_slewed (show c.natAbs ≤ 640 by omega)])
    · rw [if_pos (by omega)] at event
      exact event
    · exact corrected (by omega) (correct_stepped low)
    · exact corrected (by omega) (correct_held low)
  · intro s d q x hx active child announced hq
    exact execHandOverAnnouncement_taken hx active child announced hq

end Sys2Proof.Machine
end

section
/-! SUPPORT. What a step does with the move that stands first (01 R16, R22; 19 R390; 26 R436). -/

namespace Sys2Proof.Machine

/-! ## Events (19 R390; 26 R436) -/

/-- A module that is on admits every event. -/
theorem eventAllowed_on (w : Instr) : eventAllowed .on w = true := by
  cases w <;> rfl

theorem step_of_agenda {s : State} {m : Move} {rest : List Move} (h : s.agenda = m :: rest) :
    step s = perform { s with agenda := rest } m := by
  unfold step
  rw [h]

/-! ## The passing of time (01 R22, R24) -/

/-- What lies below each of some numbers lies below the least of them. -/
theorem le_minOf {xs : List Nat} {n m : Nat} (h : ∀ x ∈ xs, n ≤ x) (e : minOf xs = some m) : n ≤ m := by
  have start : ∀ y, (none : Option Nat) = some y → n ≤ y := nofun
  unfold minOf at e
  generalize (none : Option Nat) = acc at start e
  induction xs generalizing acc with
  | nil => exact start m e
  | cons x xs ih =>
    refine ih (fun y hy => h y (by simp [hy])) _ (fun y hy => ?_) e
    have hx : n ≤ x := h x (by simp)
    cases acc with
    | none => cases hy; exact hx
    | some z => cases hy; exact le_min hx (start z rfl)

section
variable {s : State} {ns : Nat} (ahead : ∀ l ∈ slotLimits s ++ limits s, l.1 ≠ 0 ∧ ns ≤ l.1)
include ahead

/-- With nothing due, taking what is due changes nothing. -/
theorem dueRounds_nothing (fuel : Nat) : dueRounds fuel s = s := by
  cases fuel with
  | zero => rfl
  | succ fuel =>
    have none_due : (slotLimits s ++ limits s).filter (fun l => l.1 = 0) = [] :=
      List.filter_eq_nil_iff.2 fun l hl => by simpa using (ahead l hl).1
    simp only [dueRounds, none_due, List.foldl_nil, if_true]

theorem takeDue_nothing (sent : s.outbox = []) (latched : latchTiles s = s) : takeDue s = s := by
  unfold takeDue
  rw [if_pos sent, latched]
  exact dueRounds_nothing ahead _

/-- Time before which nothing happens by itself passes at once. -/
theorem passUpTo_nothing (sent : s.outbox = []) (latched : latchTiles s = s) (fuel : Nat) : passUpTo fuel s ns = tick s ns := by
  cases fuel with
  | zero => rfl
  | succ fuel =>
    unfold passUpTo
    dsimp only
    rw [takeDue_nothing ahead sent latched]
    split
    · rfl
    · rename_i m hm
      have later : ns ≤ m := by
        refine le_minOf (fun x hx => ?_) hm
        obtain ⟨l, hl, hlx⟩ := List.mem_filterMap.1 hx
        split at hlx
        · cases hlx
        · cases hlx
          exact (ahead l hl).2
      rw [if_neg (Nat.not_lt.2 later)]

end

/-- Without logged halfwords the passing of time is the counting of it. -/
theorem tick_stored {s : State} (ns : Nat) (on : s.power = .on) (stored : s.logsStored) :
    tick s ns = countGt s { s with refNs := s.refNs + ns, dies := s.dies.map (Die.tick ns) } := by
  have stored' := (onlyCounts_countGt s { s with refNs := s.refNs + ns, dies := s.dies.map (Die.tick ns) }).logs stored
  unfold tick
  rw [if_neg (not_not_intro on)]
  dsimp only
  generalize countGt s { s with refNs := s.refNs + ns, dies := s.dies.map (Die.tick ns) } = t at stored' ⊢
  calc t.groups.foldl (fun s e => if e.2.logQueue = [] then s else drainLog e.2.logQueue.length s e.1) t
      = t.groups.foldl (fun s _ => s) t := List.foldl_ext _ _ t fun s e he => if_pos (stored' e he)
    _ = t := List.foldl_fixed _

/-- A die that neither slews nor holds counts its reference's nanoseconds (01 R22). -/
theorem tick_steady {x : Die} (ns : Nat) (active : x.active = true) (slew : x.slew = 0) (hold : x.hold = 0)
    (frac : x.frac < 64) (room : x.gt + ns < 2 ^ 64) : (x.tick ns).gt = x.gt + ns ∧ (x.tick ns).frac = x.frac := by
  have count : (x.gt * 64 + x.frac + 64 * ns) / 64 = x.gt + ns := by omega
  have part : (x.gt * 64 + x.frac + 64 * ns) % 64 = x.frac := by omega
  simp only [Die.tick, active, slew, hold, Bool.not_true, Bool.false_eq_true, if_false, Nat.zero_min, Nat.sub_zero,
    Int.natAbs_zero, Nat.min_zero, lt_self_iff_false, Nat.add_zero, count, part, Nat.mod_eq_of_lt room, and_self]

/-- Time that passes with nothing before its end, at a die that neither slews nor holds. -/
theorem letPass_steady {s : State} {ns d : Nat} {x : Die} (hx : dieAt s d = some x) (active : x.active = true)
    (slew : x.slew = 0) (hold : x.hold = 0) (frac : x.frac < 64) (room : x.gt + ns < 2 ^ 64) (on : s.power = .on)
    (stored : s.logsStored) (sent : s.outbox = []) (latched : latchTiles s = s)
    (ahead : ∀ l ∈ slotLimits s ++ limits s, l.1 ≠ 0 ∧ ns ≤ l.1) :
    ∃ y, dieAt (letPass s ns) d = some y ∧ y.gt = x.gt + ns ∧ y.frac = x.frac ∧ (letPass s ns).mem = s.mem := by
  by_cases still : ns = 0
  · subst still
    exact ⟨x, by simpa [letPass] using hx, rfl, rfl, by simp [letPass]⟩
  · have passed : letPass s ns = tick s ns := (if_pos ⟨on, still⟩).trans (passUpTo_nothing ahead sent latched ns)
    have counts := onlyCounts_countGt s { s with refNs := s.refNs + ns, dies := s.dies.map (Die.tick ns) }
    obtain ⟨gt, part⟩ := tick_steady ns active slew hold frac room
    rw [passed, tick_stored ns on stored]
    refine ⟨x.tick ns, ?_, gt, part, counts.mem⟩
    rw [dieAt_countGt]
    unfold dieAt at hx
    simp [dieAt, hx]

/-! ## A write by the host (01 R16; 09 R187) -/

/-- That an operation from `s` to `t` leaves memory, and closes no way that it needs. -/
structure LeavesMemory (s t : State) : Prop where
  mem : t.mem = s.mem
  held : t.held = s.held

theorem LeavesMemory.refl (s : State) : LeavesMemory s s := ⟨rfl, rfl⟩

theorem LeavesMemory.trans {s t u : State} (a : LeavesMemory s t) (b : LeavesMemory t u) : LeavesMemory s u :=
  ⟨b.mem.trans a.mem, b.held.trans a.held⟩

theorem leavesMemory_choose (s : State) (n : Nat) : LeavesMemory s (choose s n).2 := by
  refine ⟨choose_mem s n, ?_⟩
  unfold choose
  split <;> rfl

theorem leavesMemory_countHot (s : State) (ctx key requester m : Nat) : LeavesMemory s (countHot s ctx key requester m) := by
  refine ⟨countHot_mem s ctx key requester m, ?_⟩
  unfold countHot
  dsimp only
  split
  · rfl
  · split <;> rfl

theorem leavesMemory_intoSlice (s : State) (f : Nat → Nat) (held : List (Nat × Nat)) (die line cap : Nat) :
    LeavesMemory s (intoSlice s f held die line cap).2 := by
  unfold intoSlice
  dsimp only
  split
  · exact .refl s
  · split
    · exact .refl s
    · exact leavesMemory_choose _ _

theorem leavesMemory_lodgeTake (s : State) (die line : Nat) (write : Bool) : LeavesMemory s (lodgeTake s die line write) :=
  (leavesMemory_intoSlice s channelOf s.lodge die line 4096).trans ⟨rfl, rfl⟩

theorem leavesMemory_homeTouch (s : State) (ctx requester line : Nat) (write : Bool) :
    LeavesMemory s (homeTouch s ctx requester line write) := by
  have noted : LeavesMemory s (if write ∧ !s.written.contains line then { s with written := line :: s.written } else s) := by
    split
    · exact ⟨rfl, rfl⟩
    · exact .refl s
  unfold homeTouch
  dsimp only
  generalize (if write ∧ !s.written.contains line then { s with written := line :: s.written } else s) = t at noted ⊢
  have lodged : LeavesMemory t (if keyTier (line * 128) = 0 then
      lodgeTake (countHot t ctx (line * 128) requester 1) (homeDie s ctx (line * 128)) line write else t) := by
    split
    · exact (leavesMemory_countHot _ _ _ _ _).trans (leavesMemory_lodgeTake _ _ _ _)
    · exact .refl t
  split
  · exact noted
  · exact noted.trans (lodged.trans ((leavesMemory_intoSlice _ _ _ _ _ _).trans ⟨rfl, rfl⟩))

theorem leavesMemory_wakeSpin (s : State) (line : Nat) : LeavesMemory s (wakeSpin s line) := by
  refine ⟨keepHelps_mem _ _, ?_⟩
  unfold wakeSpin keepHelps
  dsimp only
  split <;> rfl

/-- A line that no core holds with permission is recalled with nothing to fold into it. -/
theorem leavesMemory_recallLine_clear {s : State} {line : Nat} (unheld : (homeOf s line).holders = [])
    (clear : partialsOf s line = []) : LeavesMemory s (recallLine s line) := by
  unfold recallLine
  dsimp only
  split
  · exact .refl s
  · rw [unheld, List.foldl_nil, clear]
    exact ⟨rfl, rfl⟩

theorem linesOf_byte (a : Nat) : linesOf a 1 = [a / 128] := by
  simp [linesOf]

/-- One byte clears the poison of no line (10 R225). -/
theorem homeBytes_byte (s : State) (a : Nat) (b : Byte) : homeBytes s a [b] = { s with mem := Memory.write s.mem a b } := by
  have part : (linesOf a 1).filter (fun l => a ≤ l * 128 ∧ l * 128 + 128 ≤ a + 1) = [] :=
    List.filter_eq_nil_iff.2 fun l _ => by simp only [decide_eq_true_eq]; omega
  unfold homeBytes
  simp only [List.length_cons, List.length_nil, Nat.zero_add, part]
  rfl

/-- What needs no closed way is done (19 R390). -/
theorem orStay_free {s t : State} (h : t.held = false) : orStay s t = t := if_neg (by simp [h])

/-- A byte that the host writes to a line that no core holds with permission is the one byte of memory that changes. -/
theorem hostWrite_byte {s : State} {a : Nat} (b : Byte) (clear : partialsOf s (a / 128) = [])
    (unheld : (homeOf s (a / 128)).holders = []) (free : s.held = false) (answered : snoopHeld s a 1 = false) :
    (hostWrite s a [b]).mem = Memory.write s.mem a b := by
  have reached := (leavesMemory_recallLine_clear unheld clear).trans
    (leavesMemory_homeTouch _ 0 (homeDie s 0 a) (a / 128) true)
  unfold hostWrite
  simp only [List.length_cons, List.length_nil, Nat.zero_add, answered, linesOf_byte, List.foldl_cons, List.foldl_nil,
    Bool.false_eq_true, if_false, homeBytes_byte]
  generalize homeTouch (recallLine s (a / 128)) 0 (homeDie s 0 a) (a / 128) true = u at reached ⊢
  have woken := leavesMemory_wakeSpin { u with mem := Memory.write u.mem a b } (a / 128)
  rw [orStay_free (woken.held.trans (reached.held.trans free)), woken.mem, reached.mem]

/-- Settles O55, move by move. -/
theorem stepTakesTheFirstMove : Obligations.StepTakesTheFirstMove := by
  unfold Obligations.StepTakesTheFirstMove
  intro s s0 m rest hm h0
  have taken : step s = perform s0 m := h0 ▸ step_of_agenda hm
  subst h0
  refine ⟨fun w hw on => ?_, fun w hw no => ?_, ?_, ?_⟩
  · subst hw
    exact taken.trans (if_pos (on ▸ eventAllowed_on w))
  · subst hw
    exact taken.trans (if_neg (by simp [no]))
  · intro ns d x hw hx active _ slew hold frac room on stored sent latched ahead
    subst hw
    exact ⟨_, taken, letPass_steady hx active slew hold frac room on stored sent latched ahead⟩
  · intro a b hw clear unheld free form answered
    subst hw
    refine ⟨_, taken, ?_⟩
    have written : (hostWrite { s with agenda := rest } a [b]).mem = Memory.write s.mem a b :=
      hostWrite_byte b clear unheld free answered
    rw [written]
    exact ⟨Memory.read_write_same form a b, fun x hx => Memory.read_write_other _ b hx.symm⟩

end Sys2Proof.Machine
end

section
/-! SUPPORT. Illegal fields (02 R31, R40; 04 R100, R101; 06 R132 to R138): a uniform word whose check refuses its fields, and
a short-latency word whose modifiers or fields its form does not accept, do nothing but raise the illegal-encoding trap. -/

namespace Sys2Proof.Machine

/-! ## Uniform words -/

/-- The illegal-encoding trap of a word outside a chain is raised at the word's own address. -/
theorem illegal_of_plain {s : State} {i : Iss} (h : i.plain s) :
    illegal s i = takeTrap s i.gid i.fid 0x01 i.f.pc 0 0 i.f.clause := by
  obtain ⟨-, alone, -⟩ := h
  have start : i.f.epc = i.f.pc := by simp [Fibre.epc, alone]
  unfold illegal trapHere
  rw [if_neg (by decide), start]

section
variable {s : State} {i : Iss} (h : i.plain s)
include h

/-- A uniform word whose check refuses its fields is illegal (06 R131). -/
theorem uniform_illegal {ok : Iss → Bool} {regs : List Nat} {act : Iss → State} {bad : Bool} (refuses : ok i = !bad)
    (isBad : bad = true) :
    uniform s ok regs act = .next (takeTrap s i.gid i.fid 0x01 i.f.pc 0 0 i.f.clause) := by
  unfold uniform
  rw [withIssuing_eq h.1, if_pos (.inr (by simp [refuses, isBad])), illegal_of_plain h]

/-- A predicate word that names P0 or a bad register is illegal (02 R31; 06 R134). -/
theorem predicate_illegal {d : BitVec 3} {regs : List Nat} {ok : Bool} {f : Iss → Mask} {bad : Bool}
    (refuses : (d ≠ 0 && ok) = !bad) (isBad : bad = true) :
    predicate s d regs ok f = .next (takeTrap s i.gid i.fid 0x01 i.f.pc 0 0 i.f.clause) :=
  uniform_illegal h refuses isBad

end

theorem evenReg_eq (k : BitVec 6) : evenReg k = !decide (k.toNat % 2 = 1) := by
  unfold evenReg
  rw [← decide_not]
  exact decide_eq_decide.2 (by omega)

/-- RDLANE and WRLANE refuse what is neither an O register nor a V register of the window (06 R135). -/
theorem vregOk_eq (w : Nat) (v : LReg) :
    vregOk w v = !(match v with | .v k => decide (w ≤ k.val) | .o _ => false | _ => true) := by
  cases v with
  | v k => exact (decide_eq_decide.2 Nat.not_le.symm).trans (decide_not)
  | _ => rfl

theorem not_zero_and_true (d : BitVec 3) : (decide (d ≠ 0) && true) = !decide (d = 0) := by simp

/-- Every uniform word with bad fields is refused by its check (02 R31, R40; 06 R132, R134, R135, R138). -/
theorem exec_badUniformFields {s : State} {i : Iss} {w : Instr} (h : i.plain s) (bad : badUniformFields i w = true) :
    exec w s = .next (takeTrap s i.gid i.fid 0x01 i.f.pc 0 0 i.f.clause) := by
  cases w with
  | scmp d a b u c =>
    exact uniform_illegal h ((decide_eq_decide.2 Nat.not_lt.symm).trans decide_not) bad
  | sadd64 d a b =>
    exact uniform_illegal h (bad := decide (d.toNat % 2 = 1) || decide (a.toNat % 2 = 1) || decide (b.toNat % 2 = 1))
      (by simp only [evenReg_eq, Bool.not_or]) bad
  | sballotToS d | rdtime d => exact uniform_illegal h (evenReg_eq d) bad
  | sballot d a =>
    exact predicate_illegal h (bad := decide (d = 0) || decide (a.toNat % 2 = 1))
      (by simp only [evenReg_eq, Bool.not_or, decide_not, ne_eq]) bad
  | pand d | por d | pxor d | pnot d =>
    dsimp only [exec, execPand, execPor, execPxor, execPnot]
    exact predicate_illegal h (not_zero_and_true d) bad
  | rdlane d a v | wrlane d a v => exact uniform_illegal h (vregOk_eq i.g.window v) bad
  | call o =>
    dsimp only [exec, execCall]
    refine uniform_illegal h (bad := decide (16 ≤ i.f.stack.length)) ?_ bad
    exact (decide_eq_decide.2 Nat.not_le.symm).trans decide_not
  | ret =>
    obtain ⟨empty, program⟩ := of_decide_eq_true bad
    dsimp only [exec, execRet]
    exact uniform_illegal h (bad := true) (by simp [empty, program]) rfl
  | _ => cases bad

/-! ## Short-latency lane words -/

/-- What every form of a short-latency word holds to (04 R86, R91, R100): no ORD code and no flag, TYPE codes below 14, a D of
any class under TYPE 0 and 1, sources that must name a register, no C operand. -/
structure Form.IsRow (fm : Form) : Prop where
  ords : fm.ords = [0]
  counting : fm.counting = false
  types : ∀ t ∈ fm.types, t < 14
  dst : ∀ t ≤ 1, fm.d t = .dst
  srcA : ∀ t, fm.a t = .src ∨ fm.a t = .srcPair
  srcB : ∀ t, fm.b t = .src ∨ fm.b t = .srcPair
  unusedC : ∀ t, fm.c t = .unused

theorem isRow_arith64 : (Form.arith64 .src .b).IsRow where
  ords := rfl
  counting := rfl
  types := by decide
  dst t ht := if_neg (by omega)
  srcA t := (ite_eq_or_eq _ _ _).symm
  srcB t := (ite_eq_or_eq _ _ _).symm
  unusedC _ := rfl

theorem isRow_regs {types : List Nat} {sat : Bool} (h : ∀ t ∈ types, t < 14) :
    (Form.regs types sat .src .src .unused).IsRow where
  ords := rfl
  counting := rfl
  types := h
  dst _ _ := rfl
  srcA _ := .inl rfl
  srcB _ := .inl rfl
  unusedC _ := rfl

/-- A short-latency word runs over the lanes under one of these forms. -/
theorem exec_rowWord {w : Instr} (s : State) (hw : isRowWord w = true) :
    ∃ fm fn, Form.IsRow fm ∧ exec w s = laneReg s fm (rowFields w).1 (rowFields w).2.1 (rowFields w).2.2 fn := by
  cases w with
  | iadd | isub => exact ⟨_, _, isRow_arith64, rfl⟩
  | and | or | xor | fadd | fsub | fmul | hadd2 | hmul2 => exact ⟨_, _, isRow_regs (by decide), rfl⟩
  | _ => cases hw

theorem useOk_none {u : Use} (w : Nat) (h : u = .src ∨ u = .srcPair) : useOk w u .none = false := by
  obtain rfl | rfl := h <;> rfl

/-- A field that is no queue and lies outside its use raises the illegal-encoding trap before any other (04 R101). -/
theorem fieldTrap_illegal {k : Kernel} {w : Nat} {noQueues : Bool} {fs : List (Use × LReg)} {f : Use × LReg} (mem : f ∈ fs)
    (single : isQueue f.2 = false) (bad : useOk w f.1 f.2 = false) : fieldTrap k w noQueues fs = some 0x01 := by
  unfold fieldTrap
  exact if_pos (List.any_eq_true.2 ⟨f, mem, by simp [single, bad]⟩)

section
variable {s : State} {i : Iss} {m : Mods} (h : i.modified s m) (fm : Form) (d a b : LReg) (low : Nat) (imm : Mods → Nat)
  (fn : LaneFn) (sink : Sink)
include h

/-- Modifiers that a form does not honour are illegal (04 R100). -/
theorem laneRun_badMods (bad : modsOk fm i.f.clause m low = false) : laneRun s i fm d a b low imm fn sink = illegal s i := by
  obtain ⟨-, -, -, -, rfl⟩ := h
  unfold laneRun
  exact if_pos (by simp [bad])

/-- A field outside its use is illegal, whatever the modifiers (04 R100, R101). -/
theorem laneRun_badField {f : Use × LReg} (mem : f ∈ fm.fields m d a b) (single : isQueue f.2 = false)
    (bad : useOk i.g.window f.1 f.2 = false) : laneRun s i fm d a b low imm fn sink = illegal s i := by
  cases ok : modsOk fm i.f.clause m low with
  | false => exact laneRun_badMods h fm d a b low imm fn sink ok
  | true =>
    obtain ⟨-, -, once, -, rfl⟩ := h
    unfold laneRun
    simp only [once, ok, fieldTrap_illegal mem single bad]
    rfl

end

/-- Modifiers that no short-latency form honours (04 R100). -/
theorem modsOk_row {fm : Form} (row : fm.IsRow) (cl : Option Clause) {m : Mods} (low : Nat)
    (bad : 5 < m.rnd ∨ m.ord ≠ 0 ∨ m.fb = true ∨ 14 ≤ m.ty) : modsOk fm cl m low = false := by
  refine Bool.eq_false_iff.2 fun ok => ?_
  simp only [modsOk, row.ords, row.counting, Bool.and_eq_true, List.contains_iff_mem, List.mem_singleton,
    decide_eq_true_eq, Bool.false_and, Bool.or_false, Bool.not_eq_true'] at ok
  obtain ⟨⟨⟨⟨⟨⟨type, -⟩, rnd⟩, ord⟩, flag⟩, -⟩, -⟩ := ok
  have small := row.types _ type
  obtain bad | bad | bad | bad := bad
  · omega
  · exact bad ord
  · simp [flag] at bad
  · omega

/-- A short-latency word with a field or a modifier that its form does not accept (04 R100, R101). -/
theorem exec_badRowFields {s : State} {i : Iss} {m : Mods} {w : Instr} (h : i.modified s m) (hw : isRowWord w = true)
    (plain : m.imm = none)
    (bad : useOk i.g.window .dst (rowFields w).1 = false ∧ m.ty ≤ 1 ∨ 5 < m.rnd ∨ m.ord ≠ 0 ∨ m.fb = true ∨ 14 ≤ m.ty ∨
      (m.c ≠ .zero ∧ isQueue m.c = false) ∨ (rowFields w).2.1 = .none ∨ (rowFields w).2.2 = .none) :
    exec w s = .next (illegal s i) := by
  obtain ⟨fm, fn, row, same⟩ := exec_rowWord s hw
  rw [same]
  generalize rowFields w = f at bad ⊢
  obtain ⟨d, a, b⟩ := f
  refine (withIssuing_eq h.1 _).trans (congrArg _ ?_)
  have fields : fm.fields m d a b = [(fm.d m.ty, d), (fm.a m.ty, a), (fm.b m.ty, b), (.unused, m.c)] := by
    simp [Form.fields, Form.bUse, plain, row.unusedC]
  obtain ⟨bad, type⟩ | bad | bad | bad | bad | ⟨used, single⟩ | rfl | rfl := bad
  · refine laneRun_badField h (f := (.dst, d)) (mem := ?_) (single := ?_) (bad := bad) ..
    · simp [fields, row.dst _ type]
    · cases d with
      | q => cases bad
      | _ => rfl
  · exact laneRun_badMods h _ _ _ _ _ _ _ _ (modsOk_row row _ _ (.inl bad))
  · exact laneRun_badMods h _ _ _ _ _ _ _ _ (modsOk_row row _ _ (.inr (.inl bad)))
  · exact laneRun_badMods h _ _ _ _ _ _ _ _ (modsOk_row row _ _ (.inr (.inr (.inl bad))))
  · exact laneRun_badMods h _ _ _ _ _ _ _ _ (modsOk_row row _ _ (.inr (.inr (.inr bad))))
  · exact laneRun_badField h (f := (.unused, m.c)) (mem := by simp [fields]) (single := single)
      (bad := decide_eq_false used) ..
  · exact laneRun_badField h (f := (fm.a m.ty, .none)) (mem := by simp [fields]) (single := rfl)
      (bad := useOk_none _ (row.srcA _)) ..
  · exact laneRun_badField h (f := (fm.b m.ty, .none)) (mem := by simp [fields]) (single := rfl)
      (bad := useOk_none _ (row.srcB _)) ..

/-- Settles O53, uniform words by the check of each, short-latency words by what their forms hold to. -/
theorem badFieldsRaiseTheIllegalTrap : Obligations.BadFieldsRaiseTheIllegalTrap := by
  unfold Obligations.BadFieldsRaiseTheIllegalTrap
  exact ⟨fun _ _ _ h bad => exec_badUniformFields h bad, fun _ _ _ _ h hw plain bad => exec_badRowFields h hw plain bad⟩

end Sys2Proof.Machine
end

section
/-! SUPPORT. Where save records stand (18 R373): the place that a reservation finds lies within the save area and meets no other
record's. -/

namespace Sys2Proof.Machine

variable {α : Type}

theorem insertBy_perm (before : α → α → Bool) (x : α) (l : List α) : (insertBy before x l).Perm (x :: l) := by
  induction l with
  | nil => exact .refl _
  | cons y ys ih =>
    unfold insertBy
    split
    · exact (ih.cons y).trans (.swap x y ys)
    · exact .refl _

theorem sortBy_perm (before : α → α → Bool) (l : List α) : (sortBy before l).Perm l := by
  induction l with
  | nil => exact .refl _
  | cons x xs ih => exact (insertBy_perm before x _).trans (ih.cons x)

/-- Two places side by side in ascending order, by their first units. -/
def byPlace (x y : Nat × Nat) : Bool := decide (x.1 < y.1)

theorem insertBy_sorted {l : List (Nat × Nat)} (x : Nat × Nat) (h : l.Pairwise fun a b => a.1 ≤ b.1) :
    (insertBy byPlace x l).Pairwise fun a b => a.1 ≤ b.1 := by
  induction l with
  | nil => simp [insertBy]
  | cons y ys ih =>
    obtain ⟨first, rest⟩ := List.pairwise_cons.1 h
    unfold insertBy byPlace
    split
    · rename_i lower
      refine List.pairwise_cons.2 ⟨fun z hz => ?_, ih rest⟩
      obtain rfl | hz := List.mem_cons.1 ((insertBy_perm byPlace x ys).mem_iff.1 hz)
      · exact (of_decide_eq_true lower).le
      · exact first z hz
    · rename_i lower
      have least : x.1 ≤ y.1 := Nat.not_lt.1 fun c => lower (decide_eq_true c)
      refine List.pairwise_cons.2 ⟨fun z hz => ?_, h⟩
      obtain rfl | hz := List.mem_cons.1 hz
      · exact least
      · exact least.trans (first z hz)

theorem sortBy_sorted (l : List (Nat × Nat)) : (sortBy byPlace l).Pairwise fun a b => a.1 ≤ b.1 := by
  induction l with
  | nil => exact .nil
  | cons x xs ih => exact insertBy_sorted x ih

/-- The free place found among sorted ones lies in the area and meets none of them. -/
theorem freeUnits_fits {size units off : Nat} {rs : List (Nat × Nat)} {a : Nat} (sorted : rs.Pairwise fun x y => x.1 ≤ y.1)
    (h : freeUnits size units rs a = some off) :
    a ≤ off ∧ off + units ≤ size ∧ ∀ r ∈ rs, r.1 + r.2 ≤ off ∨ off + units ≤ r.1 := by
  induction rs generalizing a with
  | nil =>
    simp only [freeUnits, Option.ite_none_right_eq_some, Option.some.injEq] at h
    obtain ⟨fits, rfl⟩ := h
    exact ⟨le_rfl, fits, nofun⟩
  | cons r rs ih =>
    obtain ⟨first, rest⟩ := List.pairwise_cons.1 sorted
    unfold freeUnits at h
    split at h
    · rename_i gap
      cases h
      obtain ⟨inside, before⟩ := Nat.le_min.1 gap
      refine ⟨le_rfl, inside, fun q hq => .inr ?_⟩
      obtain rfl | hq := List.mem_cons.1 hq
      · exact before
      · exact before.trans (first q hq)
    · obtain ⟨past, inside, apart⟩ := ih rest h
      obtain ⟨past, beyond⟩ := Nat.max_le.1 past
      refine ⟨past, inside, fun q hq => ?_⟩
      obtain rfl | hq := List.mem_cons.1 hq
      · exact .inl beyond
      · exact apart q hq

/-- A record's place as it is reserved (18 R371, R373). -/
theorem reserveRecord_place {s t : State} {ctx key units : Nat} {kind : RecKind}
    (h : reserveRecord s ctx kind key units = some t) :
    ∃ r, t = { s with saves := r :: s.saves.filter (recordStands s) } ∧ r.kind = kind ∧ r.key = key ∧ r.ctx = ctx ∧
      r.units = units ∧ r.filled = false ∧ r.off + units ≤ saveUnits s ctx ∧
      ∀ q ∈ s.saves, recordStands s q = true → q.ctx = ctx → q.off + q.units ≤ r.off ∨ r.off + units ≤ q.off := by
  obtain ⟨off, found, rfl⟩ := Option.map_eq_some_iff.1 h
  obtain ⟨-, inside, apart⟩ := freeUnits_fits (sortBy_sorted _) found
  refine ⟨_, rfl, rfl, rfl, rfl, rfl, rfl, inside, fun q hq stands same => ?_⟩
  refine apart (q.off, q.units) ((sortBy_perm _ _).mem_iff.2 (List.mem_map.2 ⟨q, ?_, rfl⟩))
  simp [hq, stands, same]

end Sys2Proof.Machine
end

section
/-! SUPPORT. Gangs placed and restored (02 R46; 17 R358, R359; 18 R376): a group's launch state, and what the placing of a gang
does for its kernel and its context. -/

namespace Sys2Proof.Machine

/-! ## Tables -/

/-- What a key reads as after every entry is changed under its own key. -/
theorem look_map {α β : Type} (t : Table α) (k : Nat) {h : Nat × α → Nat × β} (keyed : ∀ e, (h e).1 = e.1) :
    Table.look (t.map h) k = (Table.look t k).map fun v => (h (k, v)).2 := by
  induction t with
  | nil => rfl
  | cons e t ih =>
    obtain ⟨j, v⟩ := e
    rw [List.map_cons, show h (j, v) = (j, (h (j, v)).2) from Prod.ext (keyed _) rfl, Table.look_cons, Table.look_cons]
    split
    · rename_i same
      rw [same]
      rfl
    · exact ih

/-- A run of numbered values, zeros left out, reads as the values. -/
theorem rd_numbered {xs : List Nat} (n : Nat) {j x : Nat} (h : xs[j]? = some x) :
    Table.rd ((xs.mapIdx fun i y => (n + i, BitVec.ofNat 32 y)).filter fun e => e.2 ≠ 0) 0 (n + j) = BitVec.ofNat 32 x := by
  induction xs generalizing n j with
  | nil => cases h
  | cons y ys ih =>
    have rest : (ys.mapIdx fun i z => (n + (i + 1), BitVec.ofNat 32 z)) =
        ys.mapIdx fun i z => (n + 1 + i, BitVec.ofNat 32 z) := by simp only [Nat.add_comm, Nat.add_left_comm]
    rw [List.mapIdx_cons, rest]
    cases j with
    | zero =>
      cases h
      by_cases zero : BitVec.ofNat 32 x = 0
      · have above : ∀ e ∈ (ys.mapIdx fun i z => (n + 1 + i, BitVec.ofNat 32 z)).filter fun e => e.2 ≠ 0, n < e.1 := by
          intro e he
          obtain ⟨i, hi, rfl⟩ := List.mem_mapIdx.1 (List.mem_of_mem_filter he)
          simp only; omega
        rw [List.filter_cons_of_neg (by simpa using zero)]
        simp only [Nat.add_zero, Table.rd, Table.look_none_of_small above, Option.getD_none, zero]
      · rw [List.filter_cons_of_pos (by simpa using zero)]
        simp [Table.rd, Table.look_cons]
    | succ j =>
      have later := ih (n + 1) (j := j) h
      rw [show n + (j + 1) = n + 1 + j by omega, ← later, List.filter_cons]
      split
      · rw [Table.rd, Table.look_cons, if_neg (by omega), Table.rd]
      · rfl

/-- A new group's uniform registers (02 R46). -/
theorem startS_reads (k : Kernel) {s1 s2 s3 die core room j x : Nat}
    (h : [k.width, s1, s2, s3, k.arg.toNat % 2 ^ 32, k.arg.toNat / 2 ^ 32, die, 4 * core + room][j]? = some x) :
    Table.rd (startS k s1 s2 s3 die core room) 0 j = BitVec.ofNat 32 x := by
  have reads := rd_numbered 0 h
  simp only [Nat.zero_add] at reads
  exact reads

/-! ## The context of a gang -/

theorem ctxAt_updCtx {s : State} {c : Nat} {x : Context} (f : Context → Context) (h : ctxAt s c = some x) :
    ctxAt (updCtx s c f) c = some (f x) := by
  unfold ctxAt at h ⊢
  simp [updCtx, Table.look_upd, h]

theorem kernelAt_updKernel {s : State} {k : Nat} {x : Kernel} (f : Kernel → Kernel) (h : kernelAt s k = some x) :
    kernelAt (updKernel s k f) k = some (f x) := by
  unfold kernelAt at h ⊢
  simp [updKernel, Table.look_upd, h]

/-- A context's change that keeps its partition leaves the die that serves each context. -/
theorem ctxDie_updCtx (s : State) (c d : Nat) {f : Context → Context} (keeps : ∀ x, (f x).part = x.part) :
    ctxDie (updCtx s c f) d = ctxDie s d := by
  have part : ((ctxAt (updCtx s c f) d).bind fun x => partAt (updCtx s c f) x.part) =
      (ctxAt s d).bind fun x => partAt s x.part := by
    have entry : ctxAt (updCtx s c f) d = if c = d then (ctxAt s d).map f else ctxAt s d := Table.look_upd _ _ _ _
    rw [entry]
    split
    · cases ctxAt s d with
      | none => rfl
      | some x => exact congrArg (partAt s) (keeps x)
    · rfl
  unfold ctxDie ctxRanks
  rw [part]
  rfl

/-- A queue's turn changes queues alone (17 R358). -/
theorem takeTurn_eq (s : State) (k : Kernel) : ∃ cs, takeTurn s k = { s with contexts := cs } := by
  unfold takeTurn
  split
  · exact ⟨_, rfl⟩
  · dsimp only
    split <;> exact ⟨_, rfl⟩

theorem ctxAt_updQueue {s : State} {c : Nat} {x : Context} (d q : Nat) (f : Queue → Queue) (h : ctxAt s c = some x) :
    ∃ qs, ctxAt (updQueue s d q f) c = some { x with queues := qs } := by
  unfold ctxAt at h ⊢
  simp only [updQueue, updCtx, Table.look_upd, h, Option.map_some]
  split <;> exact ⟨_, rfl⟩

/-- What a context reads as once turns begin anew: every context's queues changed, then one queue (17 R358). -/
theorem ctxAt_updQueue_requeued {s : State} {c : Nat} {x : Context} {h : Nat × Context → Nat × Context} (d q : Nat)
    (f : Queue → Queue) (hx : ctxAt s c = some x) (requeues : ∀ e, (h e).1 = e.1 ∧ ∃ qs, (h e).2 = { e.2 with queues := qs }) :
    ∃ qs, ctxAt (updQueue { s with contexts := s.contexts.map h } d q f) c = some { x with queues := qs } := by
  obtain ⟨-, qs, same⟩ := requeues (c, x)
  refine ctxAt_updQueue (x := { x with queues := qs }) d q f ?_
  unfold ctxAt at hx ⊢
  rw [look_map _ _ fun e => (requeues e).1, hx, Option.map_some, same]

/-- A queue's turn leaves a context but for its queues (17 R358). -/
theorem ctxAt_takeTurn {s : State} {c : Nat} {x : Context} (k : Kernel) (h : ctxAt s c = some x) :
    ∃ qs, ctxAt (takeTurn s k) c = some { x with queues := qs } := by
  unfold takeTurn
  split
  · exact ⟨_, h⟩
  · dsimp only
    split
    · exact ctxAt_updQueue _ _ _ h
    · refine ctxAt_updQueue_requeued _ _ _ h fun e => ?_
      split <;> exact ⟨rfl, _, rfl⟩

/-- A context as a gang's placing leaves it: one that was ready runs (18 R366). -/
def Context.run (c : Context) : Context := if c.state = .ready then { c with state := .running } else c

theorem Context.run_state (c : Context) : c.run.state = if c.state = .ready then .running else c.state := by
  unfold Context.run
  split <;> rfl

theorem Context.run_part (c : Context) : c.run.part = c.part := by
  unfold Context.run
  split <;> rfl

theorem Context.sampleRegs_run (c : Context) : sampleRegs c.run = sampleRegs c := by
  unfold Context.run
  split <;> rfl

/-- What a gang's placing does, step by step: its context runs, its queue's turn is taken, its kernel is launched if it was
staged (16 R344; 17 R358; 18 R366). -/
theorem gangPlaced_eq (s : State) (kid : Nat) (k : Kernel) :
    gangPlaced s kid k = updKernel (takeTurn (updCtx s k.ctx Context.run) k) kid fun y =>
      if y.state = .staged then
        { y with
          placedAny := true, state := .launched, gtStart := gtOf s (ctxDie (updCtx s k.ctx Context.run) y.ctx)
          sampled := ((ctxAt (updCtx s k.ctx Context.run) k.ctx).map sampleRegs).getD [] }
      else { y with placedAny := true } := rfl

/-- Nothing but contexts and kernels changes when a gang is placed. -/
theorem gangPlaced_frame (s : State) (kid : Nat) (k : Kernel) :
    ∃ cs ks, gangPlaced s kid k = { s with contexts := cs, kernels := ks } := by
  obtain ⟨cs, turn⟩ := takeTurn_eq (updCtx s k.ctx Context.run) k
  rw [gangPlaced_eq, turn]
  exact ⟨_, _, rfl⟩

section
variable {s : State} {kid : Nat} {x y : Kernel} {c : Context} (hc : ctxAt s x.ctx = some c)
include hc

/-- A context with a gang placed runs (18 R366). -/
theorem ctxAt_gangPlaced (kid : Nat) : ∃ d, ctxAt (gangPlaced s kid x) x.ctx = some d ∧
    d.state = if c.state = .ready then .running else c.state := by
  obtain ⟨qs, turn⟩ := ctxAt_takeTurn x (ctxAt_updCtx Context.run hc)
  exact ⟨_, turn, c.run_state⟩

/-- The kernel of a gang placed is launched, if it was staged, with its context's registers as they are (16 R344; 06 R143). -/
theorem kernelAt_gangPlaced (hy : kernelAt s kid = some y) :
    kernelAt (gangPlaced s kid x) kid = some (y.placedFor c (gtOf s (ctxDie s y.ctx))) := by
  obtain ⟨cs, turn⟩ := takeTurn_eq (updCtx s x.ctx Context.run) x
  rw [gangPlaced_eq, kernelAt_updKernel _ (x := y) (by rw [turn]; exact hy), ctxAt_updCtx _ hc,
    ctxDie_updCtx s x.ctx y.ctx Context.run_part]
  simp only [Option.map_some, Option.getD_some, c.sampleRegs_run, Kernel.placedFor]

end

/-! ## New groups and gangs -/

/-- A new group's registers, flags and predicates read zero (02 R46). -/
theorem newGroup_clear (k : Kernel) (kid block s3 s2 s1 : Nat) (given : Mask) :
    let g := newGroup k kid block s3 s2 s1 given
    (∀ j l : Nat, g.readV j l = 0 ∧ g.readO j l = 0) ∧ ∀ n : Nat, Table.rd g.flags 0 n = 0 ∧ Table.rd g.p 0 n = 0 :=
  ⟨fun _ _ => ⟨rfl, rfl⟩, fun _ => ⟨rfl, rfl⟩⟩

theorem settleKernel_of_hasGroups {s : State} {k : Nat} (h : hasGroups s k = true) : settleKernel s k = s := by
  unfold settleKernel
  split
  · rfl
  · exact if_pos (.inl h)

/-- GANG_PLACE with a gang that fits (17 R358): what placing the gang itself gives, its kernel launched, its context running. -/
theorem execGangPlace_placed {s s0 s1 : State} {k : Nat} {x y : Kernel} {ws : List Waiter} {c : Context}
    (latched : latchTiles s = s0) (hx : kernelAt s0 k = some x)
    (first : (unheld (waiters s0 (kernelPart s0 x)) []).filter (fun w => w.1 = k && w.2.2.2) = ws) (some_ : ws ≠ [])
    (placed : placeFirst s0 k x ws = some s1) (hy : kernelAt s1 k = some y) (has : hasGroups s1 k = true)
    (hc : ctxAt s1 x.ctx = some c) :
    Happens (.gangPlace k) s fun t => t.groups = s1.groups ∧ t.blocks = s1.blocks ∧ t.mem = s1.mem ∧
      kernelAt t k = some (y.placedFor c (gtOf s1 (ctxDie s1 y.ctx))) ∧
      ∃ d, ctxAt t x.ctx = some d ∧ d.state = if c.state = .ready then .running else c.state := by
  have launched := kernelAt_gangPlaced hc hy
  have runs := ctxAt_gangPlaced hc k
  obtain ⟨cs, ks, same⟩ := gangPlaced_frame s1 k x
  refine ⟨gangPlaced s1 k x, ?_, ?_, ?_, ?_, launched, runs⟩
  · obtain ⟨w, rest, rfl⟩ := List.exists_cons_of_ne_nil some_
    have stays : settleKernel (gangPlaced s1 k x) k = gangPlaced s1 k x :=
      settleKernel_of_hasGroups (by rw [same]; exact has)
    dsimp only [exec, execGangPlace]
    simp only [latched, hx, first, placed, stays]
  all_goals rw [same]

end Sys2Proof.Machine
end

section
/-! SUPPORT. Gangs restored and groups retired (07 R152, R173; 17 R359; 18 R375, R376). -/

namespace Sys2Proof.Machine

/-! ## Restoring -/

/-- A gang restored from records that can be read is placed (18 R375, R376). -/
theorem restoreOr_restored {s s1 : State} {kid : Nat} {k : Kernel} {key : Nat × Nat} {c : Context} (full : State → State)
    (hc : ctxAt s k.ctx = some c) (read : recordsLost s c (gangGroups s kid k key) = false)
    (back : restoreGang (readRecords s k.ctx c (gangGroups s kid k key)) kid k key = some s1) :
    restoreOr s kid k key full = gangPlaced s1 kid k := by
  simp [restoreOr, hc, read, back]

section
variable {s s1 : State} {g : Nat} {x : Group} {k : Kernel} {c : Context} (hx : groupAt s g = some x)
  (hk : kernelAt s x.kernel = some k) (saved : x.state = .saved)
  (ready : restorable s x.kernel k (k.gangOf x.s3 x.s2) = true) (hc : ctxAt s k.ctx = some c)
  (read : recordsLost s c (gangGroups s x.kernel k (k.gangOf x.s3 x.s2)) = false)
  (back : restoreGang (readRecords s k.ctx c (gangGroups s x.kernel k (k.gangOf x.s3 x.s2))) x.kernel k
    (k.gangOf x.s3 x.s2) = some s1)
include hx hk saved ready hc read back

/-- GROUP_RESTORE in the gang's turn (18 R376). -/
theorem execGroupRestore_turn
    (turn : ∃ w ∈ unheld (waiters s (kernelPart s k)) [], w.1 = x.kernel ∧ w.2.1 = k.gangOf x.s3 x.s2 ∧ w.2.2.2 = false) :
    execGroupRestore g s = .next (gangPlaced s1 x.kernel k) := by
  obtain ⟨w, hw, mine, gang, old⟩ := turn
  cases found : (unheld (waiters s (kernelPart s k)) []).find?
      fun w => w.1 = x.kernel && w.2.1 = k.gangOf x.s3 x.s2 && !w.2.2.2 with
  | none => exact absurd (List.find?_eq_none.1 found w hw) (by simp [mine, gang, old])
  | some v => simp [execGroupRestore, hx, hk, saved, ready, found, restoreOr_restored _ hc read back]

/-- STARV_RESTORE once STARV is over (17 R359). -/
theorem execStarvRestore_starved (may : placing s k = true) (starved : x.savedAt + starvOf s k.ctx ≤ gtOf s x.die) :
    execStarvRestore g s = .next (
      let t := gangPlaced s1 x.kernel k
      { t with groups := t.groups.map fun e =>
          if e.2.kernel = x.kernel ∧ k.gangOf e.2.s3 e.2.s2 = k.gangOf x.s3 x.s2 ∧ e.2.state ≠ .saved then
            (e.1, { e.2 with starvRestored := gtOf t e.2.die })
          else e }) := by
  simp [execStarvRestore, hx, hk, saved, ready, may, Nat.not_lt.2 starved, restoreOr_restored _ hc read back]

end

theorem groupAt_updGroup {s : State} {g : Nat} {x : Group} (f : Group → Group) (h : groupAt s g = some x) :
    groupAt (updGroup s g f) g = some (f x) := by
  unfold groupAt at h ⊢
  simp [updGroup, Table.look_upd, h]

/-- The state with the records of a gang read (18 R376). -/
def State.recordsRead (s : State) (gs : List (Nat × Group)) : State :=
  { s with saves := s.saves.map fun r => if recordOfGang gs r then { r with filled := false } else r }

/-- The records of a gang's groups, once read, hold nothing to restore. -/
theorem recordsRead_unfilled {s : State} {gs : List (Nat × Group)} {e : Nat × Group} {r : SaveRec} (he : e ∈ gs)
    (h : r ∈ (s.recordsRead gs).saves) (kind : r.kind = .group) (key : r.key = e.1) : r.filled = false := by
  obtain ⟨q, -, rfl⟩ := List.mem_map.1 h
  split
  · rfl
  · rename_i other
    rw [if_neg other] at kind key
    exact absurd (List.any_eq_true.2 ⟨e, he, by simp [kind, key]⟩) other

/-- One group of a gang restored on its new core (18 R376). -/
def State.restoreOne (k : Kernel) (s : State) (e : Nat × Group) : State :=
  match groupAt s e.1 with
  | none => s
  | some g =>
    let s := acquireL1 s (coreKey g.die g.core) 4
    let s := updGroup s e.1 fun g => restoredGroup s k e.2 g
    if k.expired.isSome ∧ e.2.watchdogTrap then watchdogTraps s e.1 else s

/-- A gang is restored group by group on its blocks' new seats, its records read. -/
theorem restoreGang_eq (s : State) (kid : Nat) (k : Kernel) (key : Nat × Nat) :
    restoreGang s kid k key = (seatBlocks s k (dedup ((gangGroups s kid k key).map fun e => (e.2.block, e.2.die)))).map
      fun u => (gangGroups s kid k key).foldl (State.restoreOne k) (u.recordsRead (gangGroups s kid k key)) := rfl

/-- A group restored before the watchdog's expiry: its core acquires, and it takes up where its record left it (18 R376). -/
theorem restoreOne_inTime {s : State} {k : Kernel} {e : Nat × Group} {y : Group} (hy : groupAt s e.1 = some y)
    (inTime : k.expired = none) :
    s.restoreOne k e = updGroup (acquireL1 s (coreKey y.die y.core) 4) e.1
      (restoredGroup (acquireL1 s (coreKey y.die y.core) 4) k e.2) := by
  simp [State.restoreOne, hy, inTime]

/-- The restore of a gang of one group, before the watchdog's expiry. -/
theorem restoreGang_alone {s s1 : State} {kid g : Nat} {k : Kernel} {key : Nat × Nat} {x y : Group}
    (alone : gangGroups s kid k key = [(g, x)]) (inTime : k.expired = none)
    (seated : seatBlocks s k [(x.block, x.die)] = some s1) (hy : groupAt s1 g = some y) :
    ∃ t, restoreGang s kid k key = some t ∧ t.saves = (s1.recordsRead [(g, x)]).saves ∧
      groupAt t g = some (restoredGroup (acquireL1 (s1.recordsRead [(g, x)]) (coreKey y.die y.core) 4) k x y) := by
  have seat : groupAt (s1.recordsRead [(g, x)]) g = some y := hy
  refine ⟨(s1.recordsRead [(g, x)]).restoreOne k (g, x), ?_, ?_, ?_⟩
  · rw [restoreGang_eq, alone]
    exact congrArg (Option.map _) seated
  · rw [restoreOne_inTime seat inTime]
    rfl
  · rw [restoreOne_inTime seat inTime]
    exact groupAt_updGroup _ hy

/-! ## Retiring -/

/-- A drain token that has followed every earlier packet frees its slot (07 R173). -/
theorem execDrainTokenReturn_followed {s : State} {die room slot token : Nat} {d : Die} (hd : dieAt s die = some d)
    (held : d.draining.find? (fun x => x.1 = room * 32 + slot) = some (room * 32 + slot, token))
    (followed : aheadOf s token = false) :
    execDrainTokenReturn die room slot s =
      .next (updDie s die fun d => { d with draining := d.draining.filter (· ≠ (room * 32 + slot, token)) }) := by
  simp [execDrainTokenReturn, hd, held, followed]

/-- That an operation from `s` to `t` leaves memory, the dies, and every group but for its links to barriers. -/
structure OnlyLinks (s t : State) : Prop where
  mem : t.mem = s.mem
  dies : t.dies = s.dies
  groups : ∀ n, ∃ l : Group → List (Nat × List Nat), groupAt t n = (groupAt s n).map fun h => { h with links := l h }

theorem OnlyLinks.of_eq {s t : State} (mem : t.mem = s.mem) (dies : t.dies = s.dies) (groups : t.groups = s.groups) :
    OnlyLinks s t := by
  refine ⟨mem, dies, fun n => ⟨Group.links, ?_⟩⟩
  unfold groupAt
  rw [groups]
  exact Option.map_id_apply.symm

theorem OnlyLinks.refl (s : State) : OnlyLinks s s := .of_eq rfl rfl rfl

theorem OnlyLinks.trans {s t u : State} (a : OnlyLinks s t) (b : OnlyLinks t u) : OnlyLinks s u := by
  refine ⟨b.mem.trans a.mem, b.dies.trans a.dies, fun n => ?_⟩
  obtain ⟨l, hl⟩ := a.groups n
  obtain ⟨m, hm⟩ := b.groups n
  exact ⟨fun h => m { h with links := l h }, by rw [hm, hl, Option.map_map]; rfl⟩

theorem OnlyLinks.foldl {β : Type} {f : State → β → State} (hf : ∀ s b, OnlyLinks s (f s b)) (bs : List β) (s : State) :
    OnlyLinks s (bs.foldl f s) := by
  induction bs generalizing s with
  | nil => exact .refl s
  | cons b bs ih => exact (hf s b).trans (ih _)

theorem onlyLinks_updGroup (s : State) (g : Nat) (l : Group → List (Nat × List Nat)) :
    OnlyLinks s (updGroup s g fun h => { h with links := l h }) := by
  refine ⟨rfl, rfl, fun n => ?_⟩
  by_cases same : g = n
  · exact ⟨l, (Table.look_upd _ _ _ _).trans (if_pos same)⟩
  · exact ⟨Group.links, ((Table.look_upd _ _ _ _).trans (if_neg same)).trans Option.map_id_apply.symm⟩

theorem onlyLinks_settleBarrier (s : State) (bar : Nat) : OnlyLinks s (settleBarrier s bar) := by
  unfold settleBarrier
  split
  · exact .refl s
  · dsimp only
    split
    · exact .refl s
    · exact (OnlyLinks.foldl (fun s gid => onlyLinks_updGroup s gid fun g => g.links.filter fun e => e.1 ≠ bar) _ s).trans
        (.of_eq rfl rfl rfl)

theorem onlyLinks_settleBarriers (s : State) (kernel : Nat) : OnlyLinks s (settleBarriers s kernel) := by
  refine .foldl (fun t e => ?_) _ s
  split
  · exact onlyLinks_settleBarrier _ _
  · exact .refl t

theorem onlyLinks_settleKernel (s : State) (kid : Nat) : OnlyLinks s (settleKernel s kid) := by
  unfold settleKernel
  split
  · exact .refl s
  · split
    · exact .refl s
    · split
      · exact .of_eq rfl rfl rfl
      · exact .refl s

theorem onlyLinks_answerMail (s : State) (key result : Nat) : OnlyLinks s (answerMail s key result) := by
  unfold answerMail
  split
  · exact .of_eq rfl rfl rfl
  · exact .refl s

theorem onlyLinks_settleCtx (s : State) (ctx : Nat) : OnlyLinks s (settleCtx s ctx) := by
  have changed (f : Context → Context) : OnlyLinks s (updCtx s ctx f) := .of_eq rfl rfl rfl
  unfold settleCtx
  split
  · exact .refl s
  · dsimp only
    split
    · exact changed _
    · split
      · exact (changed _).trans (onlyLinks_answerMail _ _ _)
      · exact .refl s

/-- What stands of a group once some helps are over: the groups that lent it priority, fewer perhaps (17 R360). -/
theorem groupAt_keepHelps (s : State) (hs : List (Nat × Nat)) (n : Nat) :
    ∃ b : Group → List Nat, groupAt (keepHelps s hs) n = (groupAt s n).map (fun h => { h with lentBy := b h }) ∧
      (hs = s.helps → b = Group.lentBy) := by
  unfold keepHelps
  split
  · exact ⟨Group.lentBy, Option.map_id_apply.symm, fun _ => rfl⟩
  · rename_i fewer
    exact ⟨_, look_map _ _ fun _ => rfl, fun same => absurd same fewer⟩

/-- The state that a seated group leaves, before its block, its kernel and its context are settled (07 R152, R173). -/
def State.leftBy (s : State) (gid : Nat) (g : Group) : State :=
  keepHelps { leaveSeat s g with groups := Table.del s.groups gid } (s.helps.filter fun h => h.1 ≠ gid)

/-- A block that one of its groups has left: it goes with the last of them (07 R152). -/
def State.blockLeft (s : State) (block : Nat) : State :=
  if s.groups.any fun e => e.2.block = block then updBlock s block fun b => { b with retired := b.retired + 1 }
  else { s with blocks := Table.del s.blocks block }

/-- A group's latest write completion time taken over by its kernel and its context (10 R217; 16 R346). -/
def State.wctNoted (s : State) (kid w : Nat) : State :=
  let s := updKernel s kid fun k => { k with wct := max k.wct w }
  match kernelAt s kid with
  | some k => updCtx s k.ctx fun c => { c with wct := max c.wct w }
  | none => s

/-- What follows for a kernel, its barriers and its context when its set of groups changes (08 R176; 16 R344, R348; 18 R366). -/
def State.settledFor (s : State) (kid : Nat) : State :=
  let s := settleKernel (settleBarriers s kid) kid
  match kernelAt s kid with
  | some k => settleCtx s k.ctx
  | none => s

/-- A seated group dropped, step by step. -/
theorem dropGroup_eq (s : State) (gid : Nat) {g : Group} (seated : g.state = .begun ∨ g.state = .resident) :
    dropGroup s gid g = (((s.leftBy gid g).blockLeft g.block).wctNoted g.kernel g.wctMax).settledFor g.kernel := by
  unfold dropGroup
  rw [if_pos seated.symm]
  rfl

theorem onlyLinks_blockLeft (s : State) (block : Nat) : OnlyLinks s (s.blockLeft block) := by
  unfold State.blockLeft
  split <;> exact .of_eq rfl rfl rfl

theorem onlyLinks_wctNoted (s : State) (kid w : Nat) : OnlyLinks s (s.wctNoted kid w) := by
  unfold State.wctNoted
  dsimp only
  split <;> exact .of_eq rfl rfl rfl

theorem onlyLinks_settledFor (s : State) (kid : Nat) : OnlyLinks s (s.settledFor kid) := by
  have settled := (onlyLinks_settleBarriers s kid).trans (onlyLinks_settleKernel _ kid)
  unfold State.settledFor
  dsimp only
  split
  · exact settled.trans (onlyLinks_settleCtx _ _)
  · exact settled

theorem onlyLinks_dropGroup (s : State) (gid : Nat) {g : Group} (seated : g.state = .begun ∨ g.state = .resident) :
    OnlyLinks (s.leftBy gid g) (dropGroup s gid g) := by
  rw [dropGroup_eq s gid seated]
  exact (onlyLinks_blockLeft _ _).trans ((onlyLinks_wctNoted _ _ _).trans (onlyLinks_settledFor _ _))

/-- A group that has left is gone, its slot's generation has moved on, and the others stay (07 R173). -/
theorem groupAt_leftBy (s : State) (gid : Nat) (g : Group) (n : Nat) :
    ∃ b : Group → List Nat,
      groupAt (s.leftBy gid g) n = (Table.look (Table.del s.groups gid) n).map (fun h => { h with lentBy := b h }) ∧
      ((∀ e ∈ s.helps, e.1 ≠ gid) → b = Group.lentBy) := by
  obtain ⟨b, stands, same⟩ := groupAt_keepHelps { leaveSeat s g with groups := Table.del s.groups gid }
    (s.helps.filter fun h => h.1 ≠ gid) n
  exact ⟨b, stands, fun none_ => same (List.filter_eq_self.2 fun e he => decide_eq_true (none_ e he))⟩

theorem keepHelps_dies (s : State) (hs : List (Nat × Nat)) : (keepHelps s hs).dies = s.dies := by
  unfold keepHelps
  split <;> rfl

theorem leftBy_mem (s : State) (gid : Nat) (g : Group) : (s.leftBy gid g).mem = s.mem := keepHelps_mem _ _

theorem dieAt_leftBy {s : State} (gid : Nat) {g : Group} {d : Die} (hd : dieAt s g.die = some d) :
    dieAt (s.leftBy gid g) g.die = some
      { d with
        gens := Table.wr d.gens 0 ((4 * g.core + g.room) * 32 + g.slot) ((g.gen + 1) % 16)
        draining := if g.gen = 15 then ((4 * g.core + g.room) * 32 + g.slot, s.nextId) :: d.draining else d.draining } := by
  have stepped : dieAt (leaveSeat s g) g.die = _ := dieAt_updDie _ hd
  unfold dieAt at stepped ⊢
  rw [State.leftBy, keepHelps_dies]
  exact stepped

/-- A core's L1 with no dirty byte that a test picks writes nothing back (09 R191). -/
theorem l1WriteBack_nothing {s : State} {ck : Nat} {p : Nat → L1Byte → Bool}
    (none_ : ∀ e ∈ s.l1, e.1 / 2 ^ 48 = ck → e.2.dirty = true → p (e.1 % 2 ^ 48) e.2 = false) :
    l1WriteBack s ck p = (0, s) := by
  have clean : s.l1.filter (fun e => decide (e.1 / 2 ^ 48 = ck) && e.2.dirty && p (e.1 % 2 ^ 48) e.2) = [] := by
    refine List.filter_eq_nil_iff.2 fun e he picked => ?_
    simp only [Bool.and_eq_true, decide_eq_true_eq] at picked
    obtain ⟨⟨here, dirty⟩, tagged⟩ := picked
    exact Bool.eq_false_iff.1 (none_ e he here dirty) tagged
  unfold l1WriteBack
  rw [clean]
  rfl

section
variable {s : State} {g : Nat} {x : Group} (seated : x.state = .begun ∨ x.state = .resident)
include seated

/-- GROUP_RETIRE of a group with no line of its own left dirty (06 R140; 09 R191). -/
theorem execGroupRetire_clean (hx : groupAt s g = some x) (ended : allEnded x = true) (quiet : groupQuiet s g x = true)
    (clean : ∀ e ∈ s.l1, e.1 / 2 ^ 48 = coreKey x.die x.core → e.2.dirty = true → e.2.owner ≠ some g) :
    execGroupRetire g s = .next (dropGroup s g x) := by
  have written : writeBackFor s g x 0 false = (0, s) :=
    l1WriteBack_nothing fun e he here dirty => by simp [clean e he here dirty]
  have standing : (x.state = .begun ∨ x.state = .resident ∨ x.state = .saved) ∧ allEnded x = true ∧
      groupQuiet s g x = true := ⟨seated.elim .inl fun h => .inr (.inl h), ended, quiet⟩
  have unsaved : x.state ≠ .saved := by
    obtain h | h := seated <;> simp [h]
  simp only [execGroupRetire, hx, if_pos standing, if_neg unsaved, written, if_true]

/-- What is left when a group retires (07 R152, R173). -/
theorem dropGroup_leaves {d : Die} (hd : dieAt s x.die = some d) (form : Table.wf d.gens 0 = true) :
    (Table.look (Table.del s.groups g) g = none → groupAt (dropGroup s g x) g = none) ∧ (dropGroup s g x).mem = s.mem ∧
      (∀ n h, n ≠ g → groupAt s n = some h → ∃ l b, groupAt (dropGroup s g x) n = some { h with links := l, lentBy := b } ∧
        ((∀ e ∈ s.helps, e.1 ≠ g) → b = h.lentBy)) ∧
      ∃ d', dieAt (dropGroup s g x) x.die = some d' ∧
        Table.rd d'.gens 0 ((4 * x.core + x.room) * 32 + x.slot) = (x.gen + 1) % 16 ∧
        (x.gen = 15 → ((4 * x.core + x.room) * 32 + x.slot, s.nextId) ∈ d'.draining) := by
  obtain ⟨mem, dies, groups⟩ := onlyLinks_dropGroup s g seated
  have freed := (congrArg (·[x.die]?) dies).trans (dieAt_leftBy g hd)
  refine ⟨fun gone => ?_, mem.trans (leftBy_mem _ _ _), fun n h other hn => ?_, _, freed, Table.rd_wr_same form _ _, fun wraps => ?_⟩
  · obtain ⟨l, settled⟩ := groups g
    obtain ⟨b, stands, -⟩ := groupAt_leftBy s g x g
    rw [settled, stands, gone]
    rfl
  · obtain ⟨l, settled⟩ := groups n
    obtain ⟨b, stands, same⟩ := groupAt_leftBy s g x n
    have kept : Table.look (Table.del s.groups g) n = some h := (Table.look_del_other _ other.symm).trans hn
    rw [settled, stands, kept]
    exact ⟨_, _, rfl, fun none_ => by rw [same none_]⟩
  · simp [wraps]

end

end Sys2Proof.Machine
end

section
/-! SUPPORT. Saving a group (18 R371 to R375): what its write-back, its record and the records of its block and kernel leave of the
groups, of the records and of memory; and the events of groups. -/

namespace Sys2Proof.Machine

/-! ## What an access of a home slice changes (09 R186 to R188; 10 R228) -/

theorem choose_eq (s : State) (n : Nat) : ∃ c, (choose s n).2 = { s with choices := c } := by
  unfold choose
  split <;> exact ⟨_, rfl⟩

theorem countHot_eq (s : State) (ctx key requester m : Nat) :
    ∃ ds out, countHot s ctx key requester m = { s with dies := ds, outbox := out } := by
  unfold countHot
  dsimp only
  split
  · exact ⟨_, _, rfl⟩
  · split <;> exact ⟨_, _, rfl⟩

theorem intoSlice_eq (s : State) (f : Nat → Nat) (held : List (Nat × Nat)) (die line cap : Nat) :
    ∃ c, (intoSlice s f held die line cap).2 = { s with choices := c } := by
  unfold intoSlice
  dsimp only
  split
  · exact ⟨_, rfl⟩
  · split
    · exact ⟨_, rfl⟩
    · exact choose_eq _ _

theorem lodgeTake_eq (s : State) (die line : Nat) (write : Bool) :
    ∃ c lo ld, lodgeTake s die line write = { s with choices := c, lodge := lo, lodgeDirty := ld } := by
  obtain ⟨c, taken⟩ := intoSlice_eq s channelOf s.lodge die line 4096
  unfold lodgeTake
  dsimp only
  rw [taken]
  exact ⟨_, _, _, rfl⟩

/-- An access of a home slice changes what hotness counts and posts, what slices and lodges hold, and the choices made. -/
theorem homeTouch_eq (s : State) (ctx requester line : Nat) (write : Bool) :
    ∃ c ds out l2 lo ld ws, homeTouch s ctx requester line write =
      { s with choices := c, dies := ds, outbox := out, l2 := l2, lodge := lo, lodgeDirty := ld, written := ws } := by
  have noted : ∃ ws, (if write ∧ !s.written.contains line then { s with written := line :: s.written } else s) =
      { s with written := ws } := by
    split <;> exact ⟨_, rfl⟩
  have lodged (u : State) : ∃ c ds out lo ld, (if keyTier (line * 128) = 0 then
      lodgeTake (countHot u ctx (line * 128) requester 1) (homeDie s ctx (line * 128)) line write else u) =
      { u with choices := c, dies := ds, outbox := out, lodge := lo, lodgeDirty := ld } := by
    split
    · obtain ⟨c, lo, ld, held⟩ := lodgeTake_eq (countHot u ctx (line * 128) requester 1) (homeDie s ctx (line * 128)) line write
      obtain ⟨ds, out, hot⟩ := countHot_eq u ctx (line * 128) requester 1
      rw [held, hot]
      exact ⟨_, _, _, _, _, rfl⟩
    · exact ⟨_, _, _, _, _, rfl⟩
  obtain ⟨ws, noted⟩ := noted
  obtain ⟨c, ds, out, lo, ld, lodged⟩ := lodged { s with written := ws }
  obtain ⟨c', taken⟩ := intoSlice_eq
    { s with written := ws, choices := c, dies := ds, outbox := out, lodge := lo, lodgeDirty := ld }
    sliceOf s.l2 (homeDie s ctx (line * 128)) line 6144
  unfold homeTouch
  dsimp only
  rw [noted]
  split
  · exact ⟨_, _, _, _, _, _, _, rfl⟩
  · rw [lodged, taken]
    exact ⟨_, _, _, _, _, _, _, rfl⟩

/-! ## What the clearing of poison leaves (10 R225) -/

/-- That an operation from `s` to `t` leaves the groups, the contexts and the save records. -/
structure LeavesRecords (s t : State) : Prop where
  groups : t.groups = s.groups
  contexts : t.contexts = s.contexts
  saves : t.saves = s.saves

theorem LeavesRecords.refl (s : State) : LeavesRecords s s := ⟨rfl, rfl, rfl⟩

theorem LeavesRecords.trans {s t u : State} (a : LeavesRecords s t) (b : LeavesRecords t u) : LeavesRecords s u :=
  ⟨b.groups.trans a.groups, b.contexts.trans a.contexts, b.saves.trans a.saves⟩

theorem LeavesRecords.foldl {β : Type} {f : State → β → State} (hf : ∀ s b, LeavesRecords s (f s b)) (bs : List β)
    (s : State) : LeavesRecords s (bs.foldl f s) := by
  induction bs generalizing s with
  | nil => exact .refl s
  | cons b bs ih => exact (hf s b).trans (ih _)

theorem leavesRecords_homeTouch (s : State) (ctx requester line : Nat) (write : Bool) :
    LeavesRecords s (homeTouch s ctx requester line write) := by
  obtain ⟨c, ds, out, l2, lo, ld, ws, touched⟩ := homeTouch_eq s ctx requester line write
  rw [touched]
  exact ⟨rfl, rfl, rfl⟩

theorem leavesRecords_writeN (s : State) (a : Nat) (bs : List Byte) :
    LeavesRecords s { s with mem := Memory.writeN s.mem a bs } := ⟨rfl, rfl, rfl⟩

theorem leavesRecords_writeLeaf (s : State) (ctx a leaf : Nat) : LeavesRecords s (writeLeaf s ctx a leaf) :=
  (leavesRecords_homeTouch _ _ _ _ _).trans (leavesRecords_writeN _ _ _)

theorem leavesRecords_dropTlb (s : State) (ctx va size : Nat) : LeavesRecords s (dropTlb s ctx va size) := ⟨rfl, rfl, rfl⟩

theorem leavesRecords_clearPoison (s : State) (ls : List Nat) : LeavesRecords s (clearPoison s ls) := by
  unfold clearPoison
  split
  · exact .refl s
  · refine .trans ?_ (.foldl (fun u x => ?_) _ _)
    · exact ⟨rfl, rfl, rfl⟩
    · split
      · exact (leavesRecords_writeLeaf _ _ _ _).trans (leavesRecords_dropTlb _ _ _ _)
      · exact .refl u

/-- No line is poisoned. -/
def State.clean (s : State) : Prop := ∀ l : Nat, badLine s l = false

theorem clearPoison_clean {s : State} (h : s.clean) (ls : List Nat) : clearPoison s ls = s :=
  if_pos (by simp [h _])

/-! ## Records written -/

/-- A record written: every record of its kind and key filled in as the copies stand (18 R371, R373). -/
theorem writeRecord_eq {s : State} {ctx key : Nat} {kind : RecKind} {c : Context} (regs : Table Word)
    (hc : ctxAt s ctx = some c) :
    ∃ lines f, writeRecord s ctx kind key regs = updCtx { clearPoison s lines with
      saves := (clearPoison s lines).saves.map fun r =>
        if (r.kind = kind && r.key = key) = true then r.filledIn (clearPoison s lines) c else r } ctx f := by
  unfold writeRecord
  simp only [hc]
  exact ⟨_, _, rfl⟩

/-- That an operation from `s` to `t` leaves the groups and the records of groups, and, where no line is poisoned, memory. -/
structure KeepsGroupRecords (s t : State) : Prop where
  groups : t.groups = s.groups
  records : ∀ r ∈ s.saves, r.kind = .group → r ∈ t.saves
  mem : s.clean → t.mem = s.mem
  clean : s.clean → t.clean

theorem KeepsGroupRecords.refl (s : State) : KeepsGroupRecords s s := ⟨rfl, fun _ h _ => h, fun _ => rfl, id⟩

theorem KeepsGroupRecords.trans {s t u : State} (a : KeepsGroupRecords s t) (b : KeepsGroupRecords t u) :
    KeepsGroupRecords s u :=
  ⟨b.groups.trans a.groups, fun r h kind => b.records r (a.records r h kind) kind,
    fun h => (b.mem (a.clean h)).trans (a.mem h), b.clean ∘ a.clean⟩

theorem keepsGroupRecords_updCtx (s : State) (c : Nat) (f : Context → Context) : KeepsGroupRecords s (updCtx s c f) :=
  ⟨rfl, fun _ h _ => h, fun _ => rfl, id⟩

theorem keepsGroupRecords_updBlock (s : State) (b : Nat) (f : Block → Block) : KeepsGroupRecords s (updBlock s b f) :=
  ⟨rfl, fun _ h _ => h, fun _ => rfl, id⟩

theorem keepsGroupRecords_settleCtx (s : State) (ctx : Nat) : KeepsGroupRecords s (settleCtx s ctx) := by
  have answered (u : State) (key result : Nat) : KeepsGroupRecords u (answerMail u key result) := by
    unfold answerMail
    split
    · exact ⟨rfl, fun _ h _ => h, fun _ => rfl, id⟩
    · exact .refl u
  unfold settleCtx
  split
  · exact .refl s
  · dsimp only
    split
    · exact keepsGroupRecords_updCtx _ _ _
    · split
      · exact (keepsGroupRecords_updCtx _ _ _).trans (answered _ _ _)
      · exact .refl s

/-- The records of a block and of a kernel are none of a group's (18 R371). -/
theorem keepsGroupRecords_writeRecord (s : State) (ctx key : Nat) {kind : RecKind} (other : kind ≠ .group)
    (regs : Table Word) : KeepsGroupRecords s (writeRecord s ctx kind key regs) := by
  cases hc : ctxAt s ctx with
  | none =>
    have nothing : writeRecord s ctx kind key regs = s := by simp [writeRecord, hc]
    rw [nothing]
    exact .refl s
  | some c =>
    obtain ⟨lines, f, written⟩ := writeRecord_eq (key := key) (kind := kind) regs hc
    obtain ⟨groups, -, saves⟩ := leavesRecords_clearPoison s lines
    rw [written]
    refine .trans ?_ (keepsGroupRecords_updCtx _ ctx f)
    refine ⟨groups, fun r hr isGroup => ?_, fun h => ?_, fun h => ?_⟩
    · refine List.mem_map.2 ⟨r, saves ▸ hr, if_neg ?_⟩
      simp [isGroup, other.symm]
    · exact (congrArg State.mem (clearPoison_clean h lines) :)
    · have same := clearPoison_clean h lines
      intro l
      change badLine (clearPoison s lines) l = false
      rw [same]
      exact h l

theorem keepsGroupRecords_leaveBlock (s : State) (g : Group) (k : Kernel) : KeepsGroupRecords s (leaveBlock s g k) := by
  have block (u : State) (regs : Table Word) : KeepsGroupRecords u
      (writeRecord (updBlock u g.block fun b => { b with placed := false }) k.ctx .block g.block regs) :=
    (keepsGroupRecords_updBlock _ _ _).trans (keepsGroupRecords_writeRecord _ _ _ (by decide) _)
  have kernel (u : State) (regs : Table Word) : KeepsGroupRecords u (writeRecord u k.ctx .kernel g.kernel regs) :=
    keepsGroupRecords_writeRecord _ _ _ (by decide) _
  unfold leaveBlock
  dsimp only
  split
  · split
    · exact .refl s
    · exact block _ _
  · split
    · exact kernel _ _
    · exact (block _ _).trans (kernel _ _)

/-! ## What writing lines back leaves (09 R191) -/

/-- That an operation from `s` to `t` leaves each group on its die. -/
def KeepsDies (s t : State) : Prop := ∀ n, (groupAt t n).map Group.die = (groupAt s n).map Group.die

theorem KeepsDies.refl (s : State) : KeepsDies s s := fun _ => rfl

theorem KeepsDies.trans {s t u : State} (a : KeepsDies s t) (b : KeepsDies t u) : KeepsDies s u :=
  fun n => (b n).trans (a n)

theorem KeepsDies.of_eq {s t : State} (groups : t.groups = s.groups) : KeepsDies s t := fun n => by
  unfold groupAt
  rw [groups]

theorem KeepsDies.foldl {β : Type} {f : State → β → State} (hf : ∀ s b, KeepsDies s (f s b)) (bs : List β) (s : State) :
    KeepsDies s (bs.foldl f s) := by
  induction bs generalizing s with
  | nil => exact .refl s
  | cons b bs ih => exact (hf s b).trans (ih _)

/-- A fold whose accumulator carries something beside the state. -/
theorem KeepsDies.foldl_snd {α β : Type} {f : α × State → β → α × State} (hf : ∀ acc b, KeepsDies acc.2 (f acc b).2)
    (bs : List β) (acc : α × State) : KeepsDies acc.2 (bs.foldl f acc).2 := by
  induction bs generalizing acc with
  | nil => exact .refl _
  | cons b bs ih => exact (hf acc b).trans (ih _)

/-- A change of every group under its own key that leaves its die. -/
theorem KeepsDies.of_map {s t : State} {h : Nat × Group → Nat × Group} (groups : t.groups = s.groups.map h)
    (keeps : ∀ e, (h e).1 = e.1 ∧ (h e).2.die = e.2.die) : KeepsDies s t := fun n => by
  unfold groupAt
  rw [groups, look_map _ _ fun e => (keeps e).1, Option.map_map]
  cases Table.look s.groups n with
  | none => rfl
  | some g => exact congrArg some (keeps (n, g)).2

theorem keepsDies_keepHelps (s : State) (hs : List (Nat × Nat)) : KeepsDies s (keepHelps s hs) := by
  unfold keepHelps
  split
  · exact .refl s
  · exact .of_map rfl fun _ => ⟨rfl, rfl⟩

theorem keepsDies_wakeSpin (s : State) (line : Nat) : KeepsDies s (wakeSpin s line) := by
  refine (keepsDies_keepHelps s _).trans (.of_map rfl fun e => ?_)
  split <;> exact ⟨rfl, rfl⟩

theorem keepsDies_homeTouch (s : State) (ctx requester line : Nat) (write : Bool) :
    KeepsDies s (homeTouch s ctx requester line write) := .of_eq (leavesRecords_homeTouch _ _ _ _ _).groups

theorem keepsDies_needWay (s : State) (src dest : Nat) : KeepsDies s (needWay s src dest) := by
  unfold needWay
  split <;> exact .of_eq rfl

theorem keepsDies_needHome (s : State) (ctx die line : Nat) : KeepsDies s (needHome s ctx die line) := by
  have way : KeepsDies s (needWay s die (homeDie s ctx (line * 128))) := keepsDies_needWay _ _ _
  unfold needHome
  dsimp only
  generalize needWay s die (homeDie s ctx (line * 128)) = t at way ⊢
  split <;> split <;> exact way.trans (.of_eq rfl)

theorem keepsDies_foldPartial (s : State) (p : Partial) : KeepsDies s (foldPartial s p) := by
  have written (u : State) (m : List Host.Cell) (line : Nat) : KeepsDies u (wakeSpin { u with mem := m } line) :=
    KeepsDies.trans (t := { u with mem := m }) (.of_eq rfl) (keepsDies_wakeSpin _ _)
  unfold foldPartial
  split
  · exact .refl s
  · exact (keepsDies_homeTouch _ _ _ _ _).trans (written _ _ _)

theorem keepsDies_updHome (s : State) (line : Nat) (f : HomeLine → HomeLine) : KeepsDies s (updHome s line f) := .of_eq rfl

theorem keepsDies_recallLine (s : State) (line : Nat) : KeepsDies s (recallLine s line) := by
  have folded (es : List (Nat × Partial)) (u : State) : KeepsDies u (es.foldl (fun s e =>
      { foldPartial s e.2 with partials := Table.del s.partials e.1 }) u) := by
    refine .foldl (fun s e => ?_) es u
    exact (keepsDies_foldPartial s e.2).trans (.of_eq rfl)
  have ways (cs : List (Nat × Nat)) (d : Nat) (u : State) : KeepsDies u (cs.foldl (fun s c =>
      needWay (needWay s d (coreDie c.1)) (coreDie c.1) d) u) :=
    .foldl (fun _ _ => (keepsDies_needWay _ _ _).trans (keepsDies_needWay _ _ _)) cs u
  have chosen (u : State) (n : Nat) : KeepsDies u (choose u n).2 := by
    obtain ⟨c, made⟩ := choose_eq u n
    exact .of_eq (by rw [made])
  unfold recallLine
  dsimp only
  split
  · exact .refl s
  · refine .trans ?_ (keepsDies_updHome _ _ _)
    refine .trans ?_ (.foldl (fun _ _ => folded _ _) _ _)
    exact (ways _ _ s).trans (chosen _ _)

theorem keepsDies_l1WriteBack (s : State) (ck : Nat) (p : Nat → L1Byte → Bool) : KeepsDies s (l1WriteBack s ck p).2 := by
  have bytes (es : List (Nat × L1Byte)) (u : State) : KeepsDies u (es.foldl (fun s e =>
      { s with mem := Memory.write s.mem (e.1 % 2 ^ 48) e.2.val
               l1 := Table.ins s.l1 e.1 { e.2 with dirty := false } }) u) := by
    refine .foldl (fun s e => ?_) es u
    exact .of_eq rfl
  have reached (u : State) (ctx die line : Nat) :
      KeepsDies u (homeTouch (recallLine (needHome u ctx die line) line) ctx die line true) :=
    (keepsDies_needHome _ _ _ _).trans ((keepsDies_recallLine _ _).trans (keepsDies_homeTouch _ _ _ _ _))
  unfold l1WriteBack
  refine KeepsDies.foldl_snd (fun acc line => ?_) _ (0, s)
  exact (reached acc.2 _ _ line).trans ((bytes _ _).trans (keepsDies_wakeSpin _ _))

/-- The writing back of a departing group's lines leaves each group on its die. -/
theorem die_of_writeBackFor {s t : State} {gid ctx w n : Nat} {g x y : Group} {whole : Bool}
    (back : writeBackFor s gid g ctx whole = (w, t)) (hx : groupAt s n = some x) (hy : groupAt t n = some y) :
    y.die = x.die := by
  have stays : KeepsDies s (writeBackFor s gid g ctx whole).2 := keepsDies_l1WriteBack _ _ _
  have same := stays n
  rw [back, hx, hy] at same
  exact Option.some.inj same

/-! ## Saving -/

theorem gtOf_leaveSeat (s : State) (g : Group) (d : Nat) : gtOf (leaveSeat s g) d = gtOf s d := by
  unfold gtOf dieAt leaveSeat updDie
  dsimp only
  rw [List.getElem?_mapIdx]
  cases s.dies[d]? with
  | none => rfl
  | some x =>
    simp only [Option.map_some, Option.getD_some]
    split <;> rfl

/-- A begun group is no part of a gang none of which has begun (07 R152). -/
theorem gangFresh_begun {s : State} {g : Nat} {x : Group} (k : Kernel) (hx : groupAt s g = some x) (begun : x.state = .begun) :
    gangFresh s k x = false := by
  refine Bool.eq_false_iff.2 fun fresh => ?_
  obtain ⟨-, unissued⟩ := Bool.and_eq_true_iff.1 fresh
  have resident := List.all_eq_true.1 unissued (g, x) (List.mem_filter.2 ⟨mem_of_look hx, by simp⟩)
  simp [begun] at resident

/-- GROUP_SAVE of a begun group that nothing delays, past the completion of its write-backs (18 R371). -/
theorem execGroupSave_ready {s s1 : State} {g w : Nat} {x : Group} {k : Kernel} (hx : groupAt s g = some x)
    (hk : kernelAt s x.kernel = some k) (wanted : saveWanted s x = true) (begun : x.state = .begun)
    (ready : saveReady s g x = true)
    (back : writeBackFor s g x k.ctx (!(s.groups.any fun e => e.1 ≠ g && e.2.block = x.block &&
      (e.2.state = .resident || e.2.state = .begun))) = (w, s1))
    (past : max w x.savedAt = 0 ∨ max w x.savedAt < gtOf s1 x.die) :
    execGroupSave g s = .next (saveGroup s1 g x k) := by
  have over_ : ¬(gtOf s1 x.die ≤ max w x.savedAt ∧ max w x.savedAt ≠ 0) := by omega
  simp only [execGroupSave, hx, hk, wanted, gangFresh_begun k hx begun, begun, ready, back, if_neg over_, Bool.not_true,
    Bool.false_eq_true, reduceCtorEq, if_false]

/-- The state in which a group has left its seat for its record (18 R371). -/
def State.vacatedBy (s : State) (gid : Nat) (g : Group) : State :=
  updGroup (leaveSeat s g) gid fun h => h.asSaved (gtOf (leaveSeat s g) h.die)

theorem saveGroup_eq {s : State} {gid : Nat} {g : Group} {k : Kernel} {c : Context} (hc : ctxAt s k.ctx = some c)
    (works : c.saveABad = false ∨ c.saveBBad = false) :
    saveGroup s gid g k =
      settleCtx (leaveBlock (writeRecord (s.vacatedBy gid g) k.ctx .group gid (sampleRegs c)) g k) k.ctx := by
  have some_ : ¬(c.saveABad = true ∧ c.saveBBad = true) := by
    obtain h | h := works <;> simp [h]
  unfold saveGroup
  simp only [hc, if_neg some_]
  rfl

/-- A group saved (18 R371, R373, R375): it stands as its record holds it, its record is filled in from both copies, and memory
stays where no line is poisoned. -/
theorem saveGroup_saves {s : State} {g : Nat} {x y : Group} {k : Kernel} {c : Context} (hy : groupAt s g = some y)
    (seat : y.die = x.die) (hc : ctxAt s k.ctx = some c) (works : c.saveABad = false ∨ c.saveBBad = false) :
    groupAt (saveGroup s g x k) g = some (y.asSaved (gtOf s x.die)) ∧ (s.clean → (saveGroup s g x k).mem = s.mem) ∧
      ∀ r ∈ s.saves, r.kind = .group → r.key = g → ∃ r' ∈ (saveGroup s g x k).saves, r'.kind = .group ∧ r'.key = g ∧
        r'.ctx = r.ctx ∧ r'.off = r.off ∧ r'.units = r.units ∧ r'.filled = true ∧ r'.badA = c.saveABad ∧
        r'.badB = c.saveBBad ∧ (s.clean → r'.textA = copyText s c false r ∧ r'.textB = copyText s c true r) := by
  rw [saveGroup_eq hc works]
  have vacated : groupAt (s.vacatedBy g x) g = some (y.asSaved (gtOf s x.die)) := by
    have moved := groupAt_updGroup (s := leaveSeat s x) (fun h => h.asSaved (gtOf (leaveSeat s x) h.die)) hy
    rwa [gtOf_leaveSeat, seat] at moved
  obtain ⟨lines, f, written⟩ := writeRecord_eq (s := s.vacatedBy g x) (key := g) (kind := .group) (sampleRegs c) hc
  obtain ⟨groups, -, saves⟩ := leavesRecords_clearPoison (s.vacatedBy g x) lines
  have untouched (h : s.clean) : clearPoison (s.vacatedBy g x) lines = s.vacatedBy g x :=
    clearPoison_clean (s := s.vacatedBy g x) h lines
  rw [written]
  generalize recorded : updCtx { clearPoison (s.vacatedBy g x) lines with saves := _ } k.ctx f = u
  obtain ⟨groups', records, mem, -⟩ :=
    (keepsGroupRecords_leaveBlock u x k).trans (keepsGroupRecords_settleCtx (leaveBlock u x k) k.ctx)
  subst recorded
  refine ⟨?_, fun h => ?_, fun r hr kind key => ?_⟩
  · unfold groupAt at vacated ⊢
    rw [groups', ← vacated, ← groups]
    rfl
  · refine (mem fun l => ?_).trans (congrArg State.mem (untouched h) :)
    change badLine (clearPoison (s.vacatedBy g x) lines) l = false
    rw [untouched h]
    exact h l
  · refine ⟨r.filledIn (clearPoison (s.vacatedBy g x) lines) c, records _ (List.mem_map.2 ⟨r, ?_, ?_⟩) kind,
      kind, key, rfl, rfl, rfl, rfl, rfl, rfl, fun h => ?_⟩
    · rw [saves]
      exact hr
    · exact if_pos (by simp [kind, key])
    · rw [untouched h]
      exact ⟨rfl, rfl⟩

end Sys2Proof.Machine
end

section
/-! SUPPORT. The events of groups, clause by clause (02 R46; 07 R152, R173; 17 R358, R359; 18 R371 to R376). -/

namespace Sys2Proof.Machine

/-- Settles O41, event by event. -/
theorem groupEventsTakeEffect : Obligations.GroupEventsTakeEffect := by
  unfold Obligations.GroupEventsTakeEffect
  refine ⟨?_, ?_, ?_, ?_, ?_, ?_, ?_, ?_, ?_⟩
  · intro k kid block s3 s2 s1 given
    exact ⟨rfl, rfl, newGroup_clear k kid block s3 s2 s1 given⟩
  · intro k s1 s2 s3 die core room j x h
    exact startS_reads k h
  · intro s s0 s1 k x y ws c latched hx first some_ placed hy has hc
    exact execGangPlace_placed latched hx first some_ placed hy has hc
  · intro s g x d hx seated ended quiet hd form clean
    exact ⟨_, execGroupRetire_clean seated hx ended quiet clean, dropGroup_leaves seated hd form⟩
  · intro s die room slot token d hd held followed
    exact ⟨_, execDrainTokenReturn_followed hd held followed, rfl, dieAt_updDie _ hd⟩
  · intro s t ctx key units kind h
    obtain ⟨r, rfl, place⟩ := reserveRecord_place h
    exact ⟨r, rfl, place⟩
  · intro s s1 g w x y k c hx hk wanted begun ready back past hy _ hc works
    exact ⟨_, execGroupSave_ready hx hk wanted begun ready back past,
      saveGroup_saves hy (die_of_writeBackFor back hx hy) hc works⟩
  · intro s s1 g x k c hx hk saved ready hc read back
    obtain ⟨cs, ks, same⟩ := gangPlaced_frame s1 x.kernel k
    refine ⟨fun turn => ⟨_, execGroupRestore_turn hx hk saved ready hc read back turn, ?_⟩, fun may starved =>
      ⟨_, execStarvRestore_starved hx hk saved ready hc read back may starved, ?_⟩⟩
    · rw [same]
      exact ⟨rfl, rfl, rfl⟩
    · rw [same]
      exact ⟨rfl, rfl, rfl⟩
  · intro s s1 kid g x k y alone inTime seated hy
    obtain ⟨t, restored, saves, group⟩ := restoreGang_alone alone inTime seated hy
    refine ⟨t, restored, fun r hr kind key => ?_, fun issued => ?_, fun fresh => ?_⟩
    · rw [saves] at hr
      exact recordsRead_unfilled (List.mem_singleton_self (g, x)) hr kind key
    · rw [group, restoredGroup, if_neg issued]
      exact ⟨_, rfl⟩
    · rw [group, restoredGroup, if_pos fresh]
      rfl

end Sys2Proof.Machine
end

section
/-! SUPPORT. Short-latency words that draw noise from a live source (03 R60, R61; 05 R119; 06 R147): what the source delivers,
one repetition with its draws, the word as a whole. -/

namespace Sys2Proof.Machine

/-! ## The live source (06 R146, R147) -/

/-- The next `n` values of the source. -/
def sourceDraws (s : State) (n : Nat) : List Nat := (List.range n).map fun j => (Config.noise (s.draws + j)).toNat

theorem getD_sourceDraws (s : State) {n j : Nat} (h : j < n) :
    (sourceDraws s n).getD j 0 = (Config.noise (s.draws + j)).toNat := by
  simp [sourceDraws, h]

/-- The state once the source has delivered `n` more values. -/
def State.afterDraws (s : State) (n : Nat) : State := { s with draws := s.draws + n }

theorem issuing_afterDraws (s : State) (n : Nat) : issuing (s.afterDraws n) = issuing s := rfl

theorem sourceHealthy_of_dieAt {s : State} {d c : Nat} {x : Die} (here : dieAt s d = some x)
    (passes : ∀ e ∈ x.healthFail, e.1 ≠ c) : sourceHealthy s d c = true := by
  simpa [sourceHealthy, here] using passes

/-- A group whose kernel draws live asks for no logged value. -/
theorem openReplay_live {k : Kernel} (live : noiseMode k = 0) (s : State) (g : Group) (n : Nat) : openReplay s k g n = s :=
  if_pos (.inl (by omega))

/-- A group whose kernel draws live takes the source's next values, where no earlier draw is owed. -/
theorem drawValues_live {s : State} {k : Kernel} {g : Group} (live : noiseMode k = 0) (owed : drawsOwed g = false)
    (healthy : sourceHealthy s g.die g.core = true) (n : Nat) : drawValues s k g n = some (sourceDraws s n) := by
  cases n with
  | zero => rfl
  | succ n => simp [drawValues, drawAny, live, owed, healthy, sourceDraws]

/-- Live draws move the source on and nothing else. -/
theorem commitDraws_live {s : State} {i : Iss} (h : issuing s = some i) (live : noiseMode i.k = 0) (n : Nat) :
    commitDraws s i.gid n = s.afterDraws n := by
  obtain ⟨-, hg, -, hk, -⟩ := issuing_parts h
  cases n with
  | zero => rfl
  | succ n => simp [commitDraws, groupAt, kernelAt, hg, hk, live, State.afterDraws]

/-! ## Fields that are no queues -/

theorem popsOf_eq_nil {rs : List LReg} (single : ∀ r ∈ rs, isQueue r = false) : popsOf rs = [] := by
  refine List.filterMap_eq_nil_iff.2 fun r mem => ?_
  cases r with
  | q k => cases single _ mem
  | _ => rfl

theorem fieldTrap_eq_none {k : Kernel} {w : Nat} {noQueues : Bool} {fs : List (Use × LReg)}
    (legal : ∀ y ∈ fs, useOk w y.1 y.2 = true ∧ isQueue y.2 = false) : fieldTrap k w noQueues fs = none := by
  unfold fieldTrap
  rw [if_neg, if_neg] <;> simp only [List.any_eq_true, not_exists, not_and] <;> intro y mem <;>
    simp [legal y mem]

theorem boardHold_eq_none {s : State} {i : Iss} {fs : List (Use × LReg)} (free : onBoard i.g fs = false)
    (settled : pendingS i.g (sCodes fs) = none) : boardHold i.g.board s i fs = none := by
  unfold boardHold
  rw [settled]
  exact if_neg (Bool.eq_false_iff.1 free)

/-- A field of one register holds that register's bits. -/
theorem fieldVal_eq_readReg {g : Group} {f : Fibre} {u : Use} {r : LReg} (one : u.count = 1) (single : isQueue r = false)
    (l : Nat) : fieldVal g f u r [] l = (readReg g f r l).toNat := by
  cases r with
  | q k => cases single
  | _ => simp [fieldVal, one, readWide]

/-! ## Results that draw (03 R61; 05 R119) -/

/-- A word that rounds one value in each lane draws under SR once in each lane, the lanes in order. -/
theorem laneResults_floatFn (f : Nat → Nat → Nat → Nat → Ext) {m : Mods} (sr : m.rnd = 5) (x : Srcs)
    (vals ls : List Nat) (pos : Nat) : laneResults (floatFn f) m x vals ls pos = ls.mapIdx fun j l =>
      (l, roundTo .fp32 5 m.sat (vals.getD (pos + j) 0) (f 5 (x.a l) (x.b l) (x.c l))) := by
  induction ls generalizing pos with
  | nil => rfl
  | cons l ls ih =>
    rw [laneResults, if_pos sr, ih, List.mapIdx_cons]
    simp [floatFn, sr, Nat.add_comm, Nat.add_left_comm]

/-! ## One repetition, and the word -/

/-- How a repetition's results come to stand: in the group, on the scoreboard, as last results. -/
def storeResults (t : State) (i : Iss) (fm : Form) (m : Mods) (d : LReg) (res : List (Nat × Nat)) : RepOut :=
  let n := (fm.d m.ty).count
  let t := updGroup t i.gid fun g =>
    let g := writeResults g d n res (Mask.lanes (zeroLanes i m))
    { g with board := g.board ++ boardCodes (fm.d m.ty) d }
  match groupAt t i.gid with
  | some g => .ok (updFibre t i.gid i.fid (pushResults g d n res))
  | none => .ok t

theorem storeResults_eq {t : State} {i : Iss} (h : issuing t = some i) (fm : Form) (m : Mods) (d : LReg)
    (res : List (Nat × Nat)) :
    storeResults t i fm m d res = .ok (i.put t (i.withFibre (resultGroup i fm m d res)
      (pushResults (resultGroup i fm m d res) d (fm.d m.ty).count res i.f))) := by
  have fibre : Table.look (resultGroup i fm m d res).fibres i.fid = some i.f := by
    rw [resultGroup_fibres]
    exact (issuing_parts h).2.2.1
  have board : (writeResults i.g d (fm.d m.ty).count res (Mask.lanes (zeroLanes i m))).board = i.g.board := by
    rw [sameButLanes_writeResults i.g d]
  rw [← updFibre_put t i _ i.f fibre]
  unfold storeResults
  simp only [updGroup_issuing h, groupAt_put, board]
  rfl

/-- The draws of one repetition under SR. -/
def drawCount (i : Iss) (m : Mods) (fn : LaneFn) (x : Srcs) : Nat := ((Mask.lanes (activeLanes i m)).map (fn.draws m x)).sum

/-- The results of one repetition that draws from the live source. -/
def drawnResults (s : State) (i : Iss) (m : Mods) (fn : LaneFn) (x : Srcs) : List (Nat × Nat) :=
  laneResults fn m x (sourceDraws s (drawCount i m fn x)) (Mask.lanes (activeLanes i m)) 0

/-- One repetition under SR with no queue field, its draws live. -/
theorem runOnce_drawn {s : State} {i : Iss} (h : issuing s = some i) (fm : Form) {m : Mods} (d a b : LReg) (imm : Nat)
    (fn : LaneFn) (sr : m.rnd = 5) (live : noiseMode i.k = 0) (owed : drawsOwed i.g = false)
    (healthy : sourceHealthy s i.g.die i.g.core = true) (single : isQueue d = false)
    (pops : popsOf [a, if fm.bUse m = .imm then .zero else b, m.c] = []) :
    runOnce s i fm m d a b imm fn .regs = storeResults (s.afterDraws (drawCount i m fn (plainSrcs i fm m a b imm))) i fm m d
      (drawnResults s i m fn (plainSrcs i fm m a b imm)) := by
  unfold runOnce
  simp only [pops, popAll, dealElems_nil _ pops, if_pos sr, openReplay_live live, drawValues_live live owed healthy,
    commitDraws_live h live, if_true]
  cases d with
  | q k => cases single
  | _ => rfl

/-- With no REP, a chain not yet begun has its one repetition before it (04 R96). -/
theorem chain_once {ch : Option Chain} (fresh : ∀ c, ch = some c → c.done = 0 ∧ c.upto ≠ some 0) :
    (ch.map (·.done)).getD 0 = 0 ∧ min 1 ((ch.bind (·.upto)).getD 1) = 1 := by
  cases ch with
  | none => exact ⟨rfl, rfl⟩
  | some c =>
    obtain ⟨done, upto⟩ := fresh c rfl
    refine ⟨done, ?_⟩
    rw [Option.bind_some]
    cases hu : c.upto with
    | none => rfl
    | some n =>
      have : n ≠ 0 := fun e => upto (e ▸ hu)
      exact Nat.min_eq_left (Nat.one_le_iff_ne_zero.2 this)

/-- A short-latency word that nothing stops, with no REP, is its one repetition. -/
theorem laneRun_of_runOnce {s t : State} {i : Iss} {m : Mods} (hm : i.modified s m) {fm : Form} {d a b : LReg} {low : Nat}
    {imm : Mods → Nat} {fn : LaneFn} {sink : Sink} (mods : modsOk fm i.f.clause m low = true)
    (legal : fieldTrap i.k i.g.window false (fm.fields m d a b) = none)
    (free : boardHold i.g.board s i (fm.fields m d a b) = none)
    (once : runOnce s i fm m d a b (imm m) fn sink = .ok t) : laneRun s i fm d a b low imm fn sink = finish t i := by
  obtain ⟨-, -, noRep, fresh, rfl⟩ := hm
  obtain ⟨start, stop⟩ := chain_once fresh
  have reps : runReps fm (modsOf i.f.chain) d a b (imm (modsOf i.f.chain)) fn sink 0 0 0 i.g.board 1 0 s i = .ok t := by
    simp only [runReps, stepReg, Nat.cast_zero, zero_mul, if_true, legal, free, once]
    split <;> rfl
  unfold laneRun
  simp only [noRep, mods, legal, start, stop, free, reps, Option.getD_none, Bool.not_true, Bool.or_false,
    Bool.false_eq_true, if_false, if_true, Nat.sub_zero, Nat.lt_irrefl]

/-- A fibre with new last results moved past its word (04 R82). -/
theorem finish_put_last {s : State} {i : Iss} (quiet : i.quiet s) (g : Group) (last : Table Word) :
    finish (i.put s (i.withFibre g { i.f with last := last })) i =
      i.put s (i.withFibre g { i.passed with last := last }) := by
  have moved : updFibre (i.put s (i.withFibre g { i.f with last := last })) i.gid i.fid (fun f => moveOn f (f.pc + 4)) =
      i.put s (i.withFibre g { i.passed with last := last }) := by
    rw [updFibre_put s i _ _ (Table.look_ins_same _ _ _), moveOn_last, moveOn_passed]
    simp [Iss.withFibre]
  unfold finish
  rw [moved, raisePending_quiet (s := s) ?_ quiet]
  · exact stepTrap_quiet rfl rfl quiet
  · intro f here
    rw [fibreAt_put] at here
    cases here
    rfl

/-- A SHORT-LATENCY LANE WORD under SR that nothing stops, with no REP and no queue field, its draws live: the source moves on
by its draws, the results stand in the group, one last-result entry a register is pushed, and the word is passed. -/
theorem laneRun_drawn {s : State} {i : Iss} {m : Mods} (hm : i.modified s m) {fm : Form} {d a b : LReg} {low : Nat}
    {imm : Mods → Nat} {fn : LaneFn} (mods : modsOk fm i.f.clause m low = true)
    (legal : fieldTrap i.k i.g.window false (fm.fields m d a b) = none)
    (free : boardHold i.g.board s i (fm.fields m d a b) = none)
    (sr : m.rnd = 5) (live : noiseMode i.k = 0) (owed : drawsOwed i.g = false)
    (healthy : sourceHealthy s i.g.die i.g.core = true) (single : isQueue d = false)
    (pops : popsOf [a, if fm.bUse m = .imm then .zero else b, m.c] = []) :
    let x := plainSrcs i fm m a b (imm m)
    let res := drawnResults s i m fn x
    let g := resultGroup i fm m d res
    laneRun s i fm d a b low imm fn .regs = i.put (s.afterDraws (drawCount i m fn x))
      (i.withFibre g { i.passed with last := pushedLast i g d (fm.d m.ty).count res }) := by
  intro x res g
  have ⟨now, calm, _⟩ := hm
  have next : issuing (s.afterDraws (drawCount i m fn x)) = some i := (issuing_afterDraws s _).trans now
  have quiet : i.quiet (s.afterDraws (drawCount i m fn x)) := calm
  have once := (runOnce_drawn now fm d a b (imm m) fn sr live owed healthy single pops).trans
    (storeResults_eq next fm m d res)
  rw [laneRun_of_runOnce hm mods legal free once, pushResults_last]
  exact finish_put_last quiet g _

/-! ## FADD, FSUB, FMUL, FFMA (05 R119) -/

/-- The form of the words that draw once in each lane. -/
def drawingForm (usesC : Bool) : Form := .float true .src .src (if usesC then .src else .unused)

/-- Those words run over the lanes under that form, each with its exact result under SR. -/
theorem exec_drawingWord {w : Instr} {d a b : LReg} {usesC : Bool} {f : Ext → Ext → Ext → Ext} (s : State)
    (hw : drawingWord w = some (d, a, b, usesC, f)) : ∃ result : Nat → Nat → Nat → Nat → Ext,
      (∀ x y z, result 5 x y z = f (fv x) (fv y) (fv z)) ∧
        exec w s = laneReg s (drawingForm usesC) d a b (floatFn result) := by
  cases w with
  | fadd | fsub | fmul | ffma => cases hw; exact ⟨_, fun _ _ _ => rfl, rfl⟩
  | _ => cases hw

/-- Modifiers that those words honour under SR (04 R91, R100). -/
theorem modsOk_drawingForm {m : Mods} (usesC : Bool) (cl : Option Clause) (low : Nat) (sr : m.rnd = 5) (type : m.ty ≤ 1)
    (ord : m.ord = 0) (flag : m.fb = false) (plain : m.imm = none) : modsOk (drawingForm usesC) cl m low = true := by
  have accepted : m.ty = 0 ∨ m.ty = 1 := by omega
  simp [modsOk, drawingForm, Form.float, Form.regs, sr, accepted, ord, flag, plain]

theorem fields_drawingForm {m : Mods} (usesC : Bool) (d a b : LReg) (plain : m.imm = none) :
    (drawingForm usesC).fields m d a b =
      [(.dst, d), (.src, a), (.src, b), (if usesC then .src else .unused, m.c)] := by
  simp [Form.fields, Form.bUse, drawingForm, Form.float, Form.regs, plain]

theorem bUse_drawingForm {m : Mods} (usesC : Bool) (plain : m.imm = none) : (drawingForm usesC).bUse m = .src := by
  simp [Form.bUse, drawingForm, Form.float, Form.regs, plain]

theorem popsOf_drawingForm {m : Mods} (usesC : Bool) {a b : LReg} (plain : m.imm = none) (ha : isQueue a = false)
    (hb : isQueue b = false) (hc : isQueue m.c = false) :
    popsOf [a, if (drawingForm usesC).bUse m = .imm then .zero else b, m.c] = [] := by
  rw [bUse_drawingForm usesC plain]
  exact popsOf_eq_nil (by simp [ha, hb, hc])

/-- The sources of those words are the bits of their registers. -/
theorem plainSrcs_drawingForm (i : Iss) {m : Mods} (usesC : Bool) {a b : LReg} (imm : Nat) (plain : m.imm = none)
    (ha : isQueue a = false) (hb : isQueue b = false) (hc : isQueue m.c = false) :
    plainSrcs i (drawingForm usesC) m a b imm =
      { a := fun l => (readReg i.g i.f a l).toNat
        b := fun l => (readReg i.g i.f b l).toNat
        c := fun l => (readReg i.g i.f m.c l).toNat } := by
  have one : ((drawingForm usesC).c m.ty).count = 1 := by cases usesC <;> rfl
  unfold plainSrcs
  rw [bUse_drawingForm usesC plain, if_neg (by decide)]
  congr 1 <;> funext l
  · exact fieldVal_eq_readReg rfl ha l
  · exact fieldVal_eq_readReg rfl hb l
  · exact fieldVal_eq_readReg one hc l

/-- A word that draws once in each lane draws as often as it has active lanes. -/
theorem drawCount_floatFn (i : Iss) (m : Mods) (result : Nat → Nat → Nat → Nat → Ext) (x : Srcs) :
    drawCount i m (floatFn result) x = (Mask.lanes (activeLanes i m)).length := by
  simp [drawCount, floatFn]

/-- Lane by lane in ascending order: the lane's exact result, rounded with the next value of the source. -/
theorem drawnResults_floatFn (s : State) (i : Iss) {m : Mods} (sr : m.rnd = 5) (result : Nat → Nat → Nat → Nat → Ext)
    (x : Srcs) : drawnResults s i m (floatFn result) x = (Mask.lanes (activeLanes i m)).mapIdx fun j l =>
      (l, roundTo .fp32 5 m.sat (Config.noise (s.draws + j)).toNat (result 5 (x.a l) (x.b l) (x.c l))) := by
  unfold drawnResults
  rw [laneResults_floatFn result sr, drawCount_floatFn]
  refine List.ext_getElem (by simp) fun j short _ => ?_
  rw [List.length_mapIdx] at short
  simp only [List.getElem_mapIdx, Nat.zero_add, getD_sourceDraws s short]

/-- Settles O52, by the one repetition that such a word is. -/
theorem stochasticRoundingDrawsInLaneOrder : Obligations.StochasticRoundingDrawsInLaneOrder := by
  unfold Obligations.StochasticRoundingDrawsInLaneOrder
  intro s i m w d a b usesC f x hm hw sr type ord flag plain _ fs legal free settled live owed die passes ls v res off g
  obtain ⟨result, value, same⟩ := exec_drawingWord s hw
  have fields : (drawingForm usesC).fields m d a b = fs := fields_drawingForm usesC d a b plain
  have single : ∀ y ∈ fs, isQueue y.2 = false := fun y mem => (legal y mem).2
  simp only [fs, List.forall_mem_cons] at single
  obtain ⟨hd, ha, hb, hc, -⟩ := single
  have run := laneRun_drawn hm (fm := drawingForm usesC) (d := d) (a := a) (b := b) (low := lowOf b)
    (imm := fun m => bImm (intWidth m.ty) m) (fn := floatFn result) (modsOk_drawingForm usesC _ _ sr type ord flag plain)
    (fields ▸ fieldTrap_eq_none legal) (fields ▸ boardHold_eq_none free settled) sr live owed
    (sourceHealthy_of_dieAt die passes) hd (popsOf_drawingForm usesC plain ha hb hc)
  have results : drawnResults s i m (floatFn result) (plainSrcs i (drawingForm usesC) m a b (bImm (intWidth m.ty) m)) =
      res := by
    simp only [drawnResults_floatFn s i sr, plainSrcs_drawingForm i usesC _ plain ha hb hc, value]
    rfl
  rw [same, laneReg, withIssuing_eq hm.1]
  refine congrArg _ (run.trans ?_)
  rw [results, drawCount_floatFn]
  rfl

end Sys2Proof.Machine
end

section
/-! SUPPORT. Short-latency lane words by their rows (05 R108 to R125): a word whose form accepts the modifiers and the
fields, and whose computation is that of a row, leaves what the row says. -/

namespace Sys2Proof.Machine

/-! ## Registers as numbers (02 R37) -/

theorem readWide_lt (g : Group) (f : Fibre) (l : Nat) : ∀ (n : Nat) (r : LReg), readWide g f r l n < 2 ^ (32 * n)
  | 0, _ => Nat.one_pos
  | n + 1, r => by
    have low := (readReg g f r l).isLt
    have high := readWide_lt g f l n (regPlus r 1)
    have split : 2 ^ (32 * (n + 1)) = 2 ^ 32 * 2 ^ (32 * n) := by rw [← pow_add]; congr 1; ring
    rw [readWide, split]
    have : 2 ^ 32 * (readWide g f (regPlus r 1) l n + 1) ≤ 2 ^ 32 * 2 ^ (32 * n) := Nat.mul_le_mul_left _ high
    omega

/-- A field that is no queue holds its registers' bits. -/
theorem fieldVal_eq_readWide {g : Group} {f : Fibre} {u : Use} {r : LReg} (single : isQueue r = false) (l : Nat) :
    fieldVal g f u r [] l = readWide g f r l u.count := by
  cases r with
  | q k => cases single
  | _ => rfl

/-! ## Rows (05 R108 to R125) -/

/-- With no value drawn, each lane's result is its own. -/
theorem laneResults_nil (fn : LaneFn) (m : Mods) (x : Srcs) (ls : List Nat) (pos : Nat) :
    laneResults fn m x [] ls pos = ls.map fun l => (l, fn.value m x l fun _ => 0) := by
  induction ls generalizing pos with
  | nil => rfl
  | cons l ls ih =>
    rw [laneResults, ih]
    rfl

/-- `fn` draws nothing, and computes `f` in every lane from sources A, B and C of `na`, `nb` and `nc` registers. -/
structure LaneFn.Computes (fn : LaneFn) (m : Mods) (na nb nc : Nat) (f : Nat → Nat → Nat → Nat) : Prop where
  draws : m.rnd = 5 → ∀ x l, fn.draws m x l = 0
  value : ∀ (x : Srcs) (l : Nat), x.a l < 2 ^ (32 * na) → x.b l < 2 ^ (32 * nb) → x.c l < 2 ^ (32 * nc) →
    fn.value m x l (fun _ => 0) = f (x.a l) (x.b l) (x.c l)

/-- The form `fm` takes the modifiers `m`, PFXI aside, and uses the fields D, A, B and C as given. -/
structure Form.Takes (fm : Form) (m : Mods) (du au bu cu : Use) : Prop where
  type : m.ty ∈ fm.types
  sat : m.sat = true → fm.sat = true
  ords : fm.ords = [0]
  counting : fm.counting = false
  d : fm.d m.ty = du
  a : fm.a m.ty = au
  b : fm.b m.ty = bu
  c : fm.c m.ty = cu

theorem takes_regs {types : List Nat} {sat : Bool} {m : Mods} (a b c : Use) (type : m.ty ∈ types)
    (clamps : m.sat = true → sat = true) : (Form.regs types sat a b c).Takes m .dst a b c :=
  ⟨type, clamps, rfl, rfl, rfl, rfl, rfl, rfl⟩

/-- Whether an instruction that a PFXI serves so admits the value `y`, its own field holding `low` (04 R94). -/
def ImmUse.admits (u : ImmUse) (low : Nat) (y : BitVec 24) : Bool :=
  match u with
  | .none => false
  | .b => low = 0
  | .li sh => low = 0 && (!sh || y.toNat < 32)
  | .lw => decide (y.toNat < 65536)
  | .lm => low = 0

/-- A form honours modifiers that it takes, where it admits the PFXI among them. -/
theorem modsOk_of_takes {fm : Form} {m : Mods} {du au bu cu : Use} (takes : fm.Takes m du au bu cu)
    (common : m.common = true) (cl : Option Clause) {low : Nat}
    (imm : ∀ y, m.imm = some y → fm.imm.admits low y = true) : modsOk fm cl m low = true := by
  obtain ⟨type, sat, ords, counting, -⟩ := takes
  simp only [Mods.common, Bool.and_eq_true, decide_eq_true_eq, Bool.not_eq_true'] at common
  obtain ⟨⟨rnd, ord⟩, flag⟩ := common
  have clamps : (fm.sat || !m.sat) = true := by
    cases h : m.sat with
    | false => exact Bool.or_true _
    | true => rw [sat h]; rfl
  unfold modsOk
  simp only [List.contains_iff_mem.2 type, clamps, rnd, ords, ord, flag, counting, Bool.true_and, List.contains_cons,
    BEq.rfl, Bool.true_or, Bool.not_false, Bool.and_true, decide_true]
  split
  · rfl
  · exact imm _ ‹_›

/-- The sources of a repetition whose fields name no queue are the bits of their registers. -/
theorem plainSrcs_eq_readWide (i : Iss) {fm : Form} {m : Mods} {a b : LReg} {au cu : Use} (n : Nat) (useA : fm.a m.ty = au)
    (useC : fm.c m.ty = cu) (ha : isQueue a = false) (hb : isQueue b = false) (hc : isQueue m.c = false) :
    plainSrcs i fm m a b n =
      { a := fun l => readWide i.g i.f a l au.count
        b := fun l => if fm.bUse m = .imm then n else readWide i.g i.f b l (fm.bUse m).count
        c := fun l => readWide i.g i.f m.c l cu.count } := by
  unfold plainSrcs
  congr 1 <;> funext l
  · rw [fieldVal_eq_readWide ha, useA]
  · split
    · rfl
    · exact fieldVal_eq_readWide hb l
  · rw [fieldVal_eq_readWide hc, useC]

/-- A PFXI in place of B is sign-extended (04 R94). -/
theorem bImm_eq_signExtend {m : Mods} {y : BitVec 24} (w : Nat) (prefixed : m.imm = some y) :
    bImm w m = (y.signExtend w).toNat := by
  simp [bImm, prefixed, wrapTo, BitVec.signExtend]

section
variable {s : State} {i : Iss} {m : Mods} {r : LaneRow} (hm : i.modified s m) (ready : r.ready i m)
include hm ready

/-- A WORD OF A ROW that nothing stops: its results come to stand as the row says. -/
theorem laneRun_row {fm : Form} {low : Nat} {imm : Mods → Nat} {fn : LaneFn} (mods : modsOk fm i.f.clause m low = true)
    (fields : fm.fields m r.d r.a r.b = [(r.du, r.d), (r.au, r.a), (r.bu, r.b), (r.cu, m.c)])
    (draws : m.rnd = 5 → ∀ x l, fn.draws m x l = 0)
    (value : ∀ (x : Srcs) (l : Nat), x.a l = readWide i.g i.f r.a l r.au.count →
      x.b l = (if r.bu = .imm then imm m else readWide i.g i.f r.b l r.bu.count) →
      x.c l = readWide i.g i.f m.c l r.cu.count →
      fn.value m x l (fun _ => 0) = r.val (x.a l) (readWide i.g i.f r.b l r.bu.count) (x.c l)) :
    laneRun s i fm r.d r.a r.b low imm fn .regs = r.after s i m := by
  obtain ⟨legal, free, settled⟩ := ready
  obtain ⟨du, au, bu, cu⟩ : fm.d m.ty = r.du ∧ fm.a m.ty = r.au ∧ fm.bUse m = r.bu ∧ fm.c m.ty = r.cu := by
    simpa [Form.fields] using fields
  have single : ∀ y ∈ [(r.du, r.d), (r.au, r.a), (r.bu, r.b), (r.cu, m.c)], isQueue y.2 = false :=
    fun y mem => (legal y mem).2
  simp only [List.forall_mem_cons] at single
  obtain ⟨hd, ha, hb, hc, -⟩ := single
  have pops : popsOf [r.a, if fm.bUse m = .imm then .zero else r.b, m.c] = [] := by
    refine popsOf_eq_nil (List.forall_mem_cons.2 ⟨ha, List.forall_mem_cons.2 ⟨?_, by simp [hc]⟩⟩)
    split
    · rfl
    · exact hb
  have results : plainResults i m fn (plainSrcs i fm m r.a r.b (imm m)) = r.results i m := by
    unfold plainResults LaneRow.results
    rw [laneResults_nil, plainSrcs_eq_readWide i _ au cu ha hb hc, bu]
    exact List.map_congr_left fun l _ => congrArg (Prod.mk l) (value _ l rfl rfl rfl)
  rw [laneRun_plain hm fm r.d r.a r.b low imm fn mods (fields ▸ fieldTrap_eq_none legal) (fields ▸ free) (fields ▸ settled)
    draws hd pops, results]
  unfold resultGroup
  rw [du]
  rfl

/-- A row over D, A and B, whose B a PFXI may supply. -/
theorem laneReg_rowB {fm : Form} {d a b : LReg} {du au bu cu : Use} {f : Nat → Nat → Nat → Nat} {fn : LaneFn}
    (common : m.common = true) {width : Nat} (word : intWidth m.ty = width) (row : m.rowB width d du a b au bu cu f = some r)
    (takes : fm.Takes m du au bu cu) (byPrefix : fm.imm = .b) (holds : 32 * bu.count = width)
    (computes : fn.Computes m au.count bu.count cu.count f) : laneReg s fm d a b fn = .next (r.after s i m) := by
  subst word
  unfold laneReg
  refine (withIssuing_eq hm.1 _).trans (congrArg _ ?_)
  unfold Mods.rowB at row
  split at row
  next plain =>
    obtain rfl := Option.some.inj row
    have register : bu ≠ .imm := by
      rintro rfl
      unfold intWidth at holds
      split at holds <;> cases holds
    refine laneRun_row hm ready (modsOk_of_takes takes common _ (by simp [plain])) ?_ computes.draws ?_
    · simp [Form.fields, Form.bUse, plain, takes.d, takes.a, takes.b, takes.c]
    · intro x l ha hb hc
      dsimp only at ha hb hc ⊢
      rw [if_neg register] at hb
      rw [← hb]
      exact computes.value x l (ha ▸ readWide_lt ..) (hb ▸ readWide_lt ..) (hc ▸ readWide_lt ..)
  next n prefixed =>
    split at row
    next zero =>
      obtain rfl := Option.some.inj row
      subst zero
      refine laneRun_row hm ready (modsOk_of_takes takes common _ ?_) ?_ computes.draws ?_
      · simp [byPrefix, ImmUse.admits, lowOf]
      · simp [Form.fields, Form.bUse, prefixed, byPrefix, takes.d, takes.a, takes.c]
      · intro x l ha hb hc
        dsimp only at ha hb hc ⊢
        rw [if_pos rfl, bImm_eq_signExtend _ prefixed] at hb
        rw [← hb]
        exact computes.value x l (ha ▸ readWide_lt ..) (by rw [hb, holds]; exact BitVec.isLt _) (hc ▸ readWide_lt ..)
    next => cases row

/-- A row over D and A, which takes no PFXI. -/
theorem laneReg_rowA {fm : Form} {d a : LReg} {du au : Use} {f : Nat → Nat} {fn : LaneFn} (common : m.common = true)
    (row : m.rowA d du a au f = some r) (takes : fm.Takes m du au .unused .unused)
    (computes : fn.Computes m au.count 1 1 fun x _ _ => f x) : laneReg s fm d a .zero fn = .next (r.after s i m) := by
  unfold laneReg
  refine (withIssuing_eq hm.1 _).trans (congrArg _ ?_)
  unfold Mods.rowA at row
  split at row
  next => cases row
  next plain =>
    obtain rfl := Option.some.inj row
    rw [Bool.not_eq_true, Option.isSome_eq_false_iff, Option.isNone_iff_eq_none] at plain
    refine laneRun_row hm ready (modsOk_of_takes takes common _ (by simp [plain])) ?_ computes.draws ?_
    · simp [Form.fields, Form.bUse, plain, takes.d, takes.a, takes.b, takes.c]
    · intro x l ha hb hc
      dsimp only at ha hb hc ⊢
      rw [if_neg (by decide)] at hb
      exact computes.value x l (ha ▸ readWide_lt ..) (hb ▸ readWide_lt ..) (hc ▸ readWide_lt ..)

/-- A row over D and A with the immediate `n` in place of B. -/
theorem laneImm_rowImm {fm : Form} {d a : LReg} {du au : Use} {low n : Nat} {imm : Mods → Nat} {f : Nat → Nat → Nat}
    {fn : LaneFn} (mods : modsOk fm i.f.clause m low = true) (row : rowImm d du a au n f = some r)
    (takes : fm.Takes m du au .imm .unused) (draws : m.rnd = 5 → ∀ x l, fn.draws m x l = 0)
    (value : ∀ (x : Srcs) (l : Nat), x.a l < 2 ^ (32 * au.count) → x.b l = imm m →
      fn.value m x l (fun _ => 0) = f (x.a l) n) : laneImm s fm d a low imm fn = .next (r.after s i m) := by
  unfold laneImm
  refine (withIssuing_eq hm.1 _).trans (congrArg _ ?_)
  obtain rfl := Option.some.inj row
  refine laneRun_row hm ready mods ?_ draws ?_
  · simp [Form.fields, Form.bUse, takes.d, takes.a, takes.b, takes.c]
  · intro x l ha hb _
    exact value x l (ha ▸ readWide_lt ..) (hb.trans (if_pos rfl))

end

end Sys2Proof.Machine
end

section
/-! SUPPORT. The numbers that the words of R111 to R115 compute, as operations on words. -/

namespace Sys2Proof.Machine

/-! ## Two's complement (00 R3; 05 R112) -/

theorem toSigned_eq_toInt (w v : Nat) : toSigned (w + 1) v = (BitVec.ofNat (w + 1) v).toInt := by
  have double : 2 ^ (w + 1) = 2 * 2 ^ w := by ring
  rw [BitVec.toInt_eq_toNat_cond, BitVec.toNat_ofNat, toSigned, Nat.add_sub_cancel, double]
  split <;> split <;> first | rfl | omega

theorem toSigned_toNat (x : Word) : toSigned 32 x.toNat = x.toInt := by
  rw [toSigned_eq_toInt, BitVec.ofNat_toNat, BitVec.setWidth_eq]

theorem wrapTo_eq_ofInt (w : Nat) (x : Int) : wrapTo w x = (BitVec.ofInt w x).toNat := (BitVec.toNat_ofInt x).symm

theorem wrapTo_lt (w : Nat) (x : Int) : wrapTo w x < 2 ^ w := wrapTo_eq_ofInt w x ▸ BitVec.isLt _

theorem wrapTo_toInt {w : Nat} (x : BitVec w) : wrapTo w x.toInt = x.toNat := by
  rw [wrapTo_eq_ofInt, BitVec.ofInt_toInt]

theorem toNat_mod (x : Word) : x.toNat % 2 ^ 32 = x.toNat := Nat.mod_eq_of_lt x.isLt

/-! ## Products and choices (05 R111, R114) -/

theorem mulHigh_signed (x y : Word) : wrapTo 32 (toSigned 32 x.toNat * toSigned 32 y.toNat / (2 ^ 32 : Nat)) % 2 ^ 32 =
    ((x.signExtend 64 * y.signExtend 64).extractLsb' 32 32).toNat := by
  have product : x.signExtend 64 * y.signExtend 64 = BitVec.ofInt 64 (x.toInt * y.toInt) := (BitVec.ofInt_mul ..).symm
  rw [Nat.mod_eq_of_lt (wrapTo_lt ..), toSigned_toNat, toSigned_toNat, product, BitVec.extractLsb'_toNat, BitVec.toNat_ofInt,
    Nat.shiftRight_eq_div_pow, wrapTo]
  omega

theorem mulHigh_unsigned (x y : Word) : x.toNat * y.toNat / 2 ^ 32 % 2 ^ 32 =
    ((x.zeroExtend 64 * y.zeroExtend 64).extractLsb' 32 32).toNat := by
  have fits : x.toNat * y.toNat < 2 ^ 32 * 2 ^ 32 := Nat.mul_lt_mul'' x.isLt y.isLt
  have wide (z : Word) : z.toNat % 2 ^ 64 = z.toNat := Nat.mod_eq_of_lt (z.isLt.trans (by decide))
  rw [BitVec.extractLsb'_toNat, BitVec.toNat_mul, BitVec.toNat_setWidth, BitVec.toNat_setWidth, Nat.shiftRight_eq_div_pow,
    wide, wide, Nat.mod_eq_of_lt (b := 2 ^ 64) fits]

/-- One of two words, chosen by two tests that agree. -/
theorem toNat_choice {p q : Prop} [Decidable p] [Decidable q] (agree : p ↔ q) (x y : Word) :
    (if p then x.toNat else y.toNat) % 2 ^ 32 = (if q then x else y).toNat := by
  by_cases h : p
  · rw [if_pos h, if_pos (agree.1 h), toNat_mod]
  · rw [if_neg h, if_neg (mt agree.2 h), toNat_mod]

theorem minSigned_toNat (x y : Word) :
    (if toSigned 32 y.toNat < toSigned 32 x.toNat then y.toNat else x.toNat) % 2 ^ 32 =
      (if x.sle y then x else y).toNat := by
  rw [toSigned_toNat, toSigned_toNat, ← ite_not]
  exact toNat_choice (by simp [BitVec.sle]) x y

theorem maxSigned_toNat (x y : Word) :
    (if toSigned 32 x.toNat < toSigned 32 y.toNat then y.toNat else x.toNat) % 2 ^ 32 =
      (if y.sle x then x else y).toNat := by
  rw [toSigned_toNat, toSigned_toNat, ← ite_not]
  exact toNat_choice (by simp [BitVec.sle]) x y

theorem minUnsigned_toNat (x y : Word) : min x.toNat y.toNat % 2 ^ 32 = (if x.ule y then x else y).toNat := by
  rw [Nat.min_def]
  exact toNat_choice (by simp [BitVec.ule]) x y

theorem maxUnsigned_toNat (x y : Word) : max x.toNat y.toNat % 2 ^ 32 = (if y.ule x then x else y).toNat := by
  rw [Nat.max_comm, Nat.max_def]
  exact toNat_choice (by simp [BitVec.ule]) x y

theorem select_toNat (x y z : Word) :
    (if z.toNat = 0 then y.toNat else x.toNat) % 2 ^ 32 = (if z = 0 then y else x).toNat :=
  toNat_choice (BitVec.toNat_inj (y := 0)) y x

/-! ## Bits (05 R114) -/

/-- Words with no bit in common make up their sum. -/
theorem toNat_or_of_disjoint {x y : Word} (disjoint : x &&& y = 0#32) : (x ||| y).toNat = x.toNat + y.toNat := by
  rw [← BitVec.add_eq_or_of_and_eq_zero x y disjoint, BitVec.toNat_add_of_and_eq_zero disjoint]

/-- A word without another's bits. -/
theorem toNat_and_not (x y : Word) : (x &&& ~~~y).toNat = x.toNat - (x &&& y).toNat := by
  have parts : (x &&& y) ||| (x &&& ~~~y) = x := by
    ext j
    simp only [BitVec.getElem_or, BitVec.getElem_and, BitVec.getElem_not]
    cases x[j] <;> cases y[j] <;> rfl
  have disjoint : (x &&& y) &&& (x &&& ~~~y) = 0#32 := by
    ext j
    simp only [BitVec.getElem_and, BitVec.getElem_not, BitVec.getElem_zero]
    cases x[j] <;> cases y[j] <;> rfl
  have sum := toNat_or_of_disjoint disjoint
  rw [parts] at sum
  omega

theorem andNot_toNat (x y : Word) : (x.toNat - (x.toNat &&& y.toNat)) % 2 ^ 32 = (x &&& ~~~y).toNat := by
  rw [← BitVec.toNat_and, ← toNat_and_not, toNat_mod]

theorem shlWord_toNat (x : Word) (n : Nat) : shlWord x.toNat n = (if 32 ≤ n then 0 else x <<< n).toNat := by
  unfold shlWord
  split
  · rfl
  · rw [BitVec.toNat_shiftLeft, Nat.shiftLeft_eq]

theorem shrWord_toNat (x : Word) (n : Nat) : shrWord x.toNat n = (if 32 ≤ n then 0 else x >>> n).toNat := by
  unfold shrWord
  split
  · rfl
  · rw [BitVec.toNat_ushiftRight, Nat.shiftRight_eq_div_pow]

/-- Past 31 places a shifted word holds its sign alone. -/
theorem sarWord_toNat (x : Word) (n : Nat) : sarWord x.toNat n = (x.sshiftRight (min n 32)).toNat := by
  rw [← wrapTo_toInt (x.sshiftRight _), BitVec.toInt_sshiftRight, Int.shiftRight_eq_div_pow, sarWord, toSigned_toNat]
  by_cases small : n ≤ 31
  · rw [min_eq_left small, min_eq_left (by omega)]
  · rw [min_eq_right (by omega), min_eq_right (by omega)]
    have low := BitVec.le_toInt x
    have high := BitVec.toInt_lt (x := x)
    congr 1
    omega

theorem rolWord_toNat (x y : Word) : rolWord x.toNat y.toNat % 2 ^ 32 = (x.rotateLeft (y.toNat % 32)).toNat := by
  obtain ⟨n, hn, small⟩ : ∃ n, y.toNat % 32 = n ∧ n < 32 := ⟨_, rfl, Nat.mod_lt _ (by decide)⟩
  have whole : 2 ^ 32 = 2 ^ n * 2 ^ (32 - n) := by rw [← pow_add]; congr 1; omega
  have low : x.toNat / 2 ^ (32 - n) < 2 ^ n := Nat.div_lt_of_lt_mul (by rw [mul_comm, ← whole]; exact x.isLt)
  have high : x.toNat * 2 ^ n % 2 ^ 32 = 2 ^ n * (x.toNat % 2 ^ (32 - n)) := by
    rw [whole, mul_comm, Nat.mul_mod_mul_left]
  have top : 2 ^ n * (x.toNat % 2 ^ (32 - n)) + 2 ^ n ≤ 2 ^ 32 := by
    rw [whole, ← Nat.mul_succ]
    exact Nat.mul_le_mul_left _ (Nat.mod_lt _ (Nat.two_pow_pos _))
  rw [BitVec.toNat_rotateLeft, rolWord, hn, Nat.mod_mod, Nat.mod_eq_of_lt small, Nat.shiftLeft_eq, Nat.shiftRight_eq_div_pow,
    Nat.add_mod, high, ← Nat.two_pow_add_eq_or_of_lt low]
  generalize x.toNat / 2 ^ (32 - n) = q at low ⊢
  omega

/-- Bit `j` of a word as a number. -/
theorem bits_one (x j : Nat) : bits x j j = (x.testBit j).toNat := by
  rw [Nat.toNat_testBit, bits, Nat.add_sub_cancel_left, pow_one]

theorem popcWord_toNat (x : Word) : popcWord x.toNat % 2 ^ 32 = (onesOf x).toNat := by
  unfold popcWord onesOf
  rw [BitVec.toNat_ofNat, ← List.countP_eq_length_filter]
  congr 1
  refine List.countP_congr fun j _ => ?_
  simp [bits_one, BitVec.testBit_toNat]

theorem countP_lt_range (k n : Nat) : (List.range n).countP (fun j => decide (k < j)) = n - 1 - k := by
  induction n with
  | zero => simp
  | succ n ih =>
    rw [List.range_succ, List.countP_append, ih, List.countP_singleton]
    by_cases h : k < n <;> simp [h] <;> omega

theorem clzWord_toNat (x : Word) : clzWord x.toNat % 2 ^ 32 = (leadingZeros x).toNat := by
  unfold clzWord leadingZeros
  rw [BitVec.toNat_ofNat, toNat_mod]
  congr 1
  by_cases zero : x.toNat = 0
  · rw [if_pos zero, zero]
    rfl
  · have below (j : Nat) : decide (x.toNat < 2 ^ j) = decide (Nat.log2 x.toNat < j) :=
      decide_eq_decide.2 (Nat.log2_lt zero).symm
    simp only [if_neg zero, below, countP_lt_range]

/-- A number's bits below `n` make up its residue. -/
theorem sum_bits (x n : Nat) : ((List.range n).map fun j => bits x j j * 2 ^ j).sum = x % 2 ^ n := by
  induction n with
  | zero => simp [Nat.mod_one]
  | succ n ih =>
    rw [List.range_succ, List.map_append, List.sum_append, ih, Nat.mod_pow_succ]
    simp [bits, mul_comm]

theorem brevWord_toNat (x : Word) : brevWord x.toNat % 2 ^ 32 = x.reverse.toNat := by
  have bit : ∀ j ∈ List.range 32, bits x.toNat (31 - j) (31 - j) * 2 ^ j = bits x.reverse.toNat j j * 2 ^ j := by
    intro j hj
    have small : j < 32 := List.mem_range.1 hj
    rw [bits_one, bits_one, ← BitVec.getLsbD, ← BitVec.getLsbD, BitVec.getLsbD_reverse, BitVec.getMsbD_eq_getLsbD]
    simp [small]
  rw [brevWord, List.map_congr_left bit, sum_bits, Nat.mod_mod, toNat_mod]

/-! ## Bit fields (05 R115) -/

theorem bits_eq_extract (y : Word) (hi lo : Nat) : bits y.toNat hi lo = (y.extractLsb' lo (hi + 1 - lo)).toNat := by
  rw [BitVec.extractLsb'_toNat, bits, Nat.shiftRight_eq_div_pow]

theorem lowOnes_toNat {n : Nat} (h : n ≤ 32) : (lowOnes n).toNat = 2 ^ n - 1 := by
  have := Nat.pow_le_pow_right (n := 2) (by decide) h
  have := Nat.one_le_two_pow (n := n)
  rw [lowOnes, BitVec.toNat_ofNat, Nat.mod_eq_of_lt (by omega)]

/-- The field of `n` bits at place `pos` of a word. -/
theorem toNat_shiftRight_and_lowOnes (x : Word) {n : Nat} (pos : Nat) (h : n ≤ 32) :
    ((x >>> pos) &&& lowOnes n).toNat = x.toNat / 2 ^ pos % 2 ^ n := by
  rw [BitVec.toNat_and, lowOnes_toNat h, Nat.and_two_pow_sub_one_eq_mod, BitVec.toNat_ushiftRight, Nat.shiftRight_eq_div_pow]

/-- The bits of a word in the field of `n` bits at place `pos`. -/
theorem toNat_and_field (x : Word) {n pos : Nat} (h : n + pos ≤ 32) :
    (x &&& lowOnes n <<< pos).toNat = x.toNat / 2 ^ pos % 2 ^ n * 2 ^ pos := by
  have moved : x &&& lowOnes n <<< pos = ((x >>> pos) &&& lowOnes n) <<< pos := by
    ext j hj
    simp only [BitVec.getElem_and, BitVec.getElem_shiftLeft]
    by_cases below : j < pos
    · simp [below]
    · have back : pos + (j - pos) = j := by omega
      simp [below, back, BitVec.getLsbD_eq_getElem hj]
  have small : x.toNat / 2 ^ pos % 2 ^ n * 2 ^ pos < 2 ^ 32 := by
    have field : x.toNat / 2 ^ pos % 2 ^ n < 2 ^ n := Nat.mod_lt _ (Nat.two_pow_pos _)
    calc x.toNat / 2 ^ pos % 2 ^ n * 2 ^ pos < 2 ^ n * 2 ^ pos := Nat.mul_lt_mul_of_pos_right field (Nat.two_pow_pos _)
      _ = 2 ^ (n + pos) := (pow_add ..).symm
      _ ≤ 2 ^ 32 := Nat.pow_le_pow_right (by decide) h
  rw [moved, BitVec.toNat_shiftLeft, toNat_shiftRight_and_lowOnes x pos (by omega), Nat.shiftLeft_eq, Nat.mod_eq_of_lt small]

/-- The place and the length of the field that B of BFX and BFI names. -/
def fieldLength (y : Word) : Nat := min (y.extractLsb' 8 6).toNat (32 - (y.extractLsb' 0 5).toNat)

theorem fieldLength_fits (y : Word) : fieldLength y + (y.extractLsb' 0 5).toNat ≤ 32 := by
  have := (y.extractLsb' 0 5).isLt
  unfold fieldLength
  omega

/-- A field shifted to the top of a word and back down stands there sign-extended. -/
theorem toInt_signedField {n : Nat} {f : Word} (pos : 0 < n) (fits : n ≤ 32) (small : f.toNat < 2 ^ n) :
    ((f <<< (32 - n)).sshiftRight (32 - n)).toInt = toSigned n f.toNat := by
  have double : 2 ^ n = 2 * 2 ^ (n - 1) := by rw [← pow_succ']; congr 1; omega
  have whole : 2 ^ 32 = 2 ^ n * 2 ^ (32 - n) := by rw [← pow_add]; congr 1; omega
  have scale := Nat.two_pow_pos (32 - n)
  have top : (f <<< (32 - n)).toNat = f.toNat * 2 ^ (32 - n) := by
    rw [BitVec.toNat_shiftLeft, Nat.shiftLeft_eq, whole, Nat.mod_eq_of_lt (Nat.mul_lt_mul_of_pos_right small scale)]
  rw [BitVec.toInt_sshiftRight, Int.shiftRight_eq_div_pow, BitVec.toInt_eq_toNat_cond, top, toSigned, Nat.mod_eq_of_lt small]
  generalize 2 ^ (32 - n) = p at *
  generalize 2 ^ (n - 1) = h at *
  rw [whole, double]
  have sign : 2 * (f.toNat * p) < 2 * h * p ↔ f.toNat < h := by
    rw [← mul_assoc, Nat.mul_lt_mul_right scale]
    omega
  by_cases low : f.toNat < h
  · rw [if_pos (sign.2 low), if_pos low]
    exact_mod_cast Nat.mul_div_cancel _ scale
  · rw [if_neg (mt sign.1 low), if_neg low]
    push_cast
    rw [← sub_mul]
    exact Int.mul_ediv_cancel _ (by exact_mod_cast scale.ne')

theorem bfxWord_toNat (p : Prop) [Decidable p] (x y : Word) : bfxWord p x.toNat y.toNat =
    (let f := (x >>> (y.extractLsb' 0 5).toNat) &&& lowOnes (fieldLength y)
     if fieldLength y = 0 then 0
     else if p then (f <<< (32 - fieldLength y)).sshiftRight (32 - fieldLength y) else f).toNat := by
  have fits := fieldLength_fits y
  have field := toNat_shiftRight_and_lowOnes x (y.extractLsb' 0 5).toNat (n := fieldLength y) (by omega)
  unfold bfxWord
  rw [bits_eq_extract, bits_eq_extract]
  change (if fieldLength y = 0 then 0 else
    if decide p = true then
      wrapTo 32 (toSigned (fieldLength y) (x.toNat / 2 ^ (y.extractLsb' 0 5).toNat % 2 ^ fieldLength y))
    else x.toNat / 2 ^ (y.extractLsb' 0 5).toNat % 2 ^ fieldLength y) = _
  simp only [← field, decide_eq_true_eq]
  split
  · rfl
  · split
    · rw [← toInt_signedField (by omega) (by omega) (field ▸ Nat.mod_lt _ (Nat.two_pow_pos _)), wrapTo_toInt]
    · rfl

theorem bfiWord_toNat (x y z : Word) : bfiWord x.toNat y.toNat z.toNat % 2 ^ 32 =
    ((z &&& ~~~(lowOnes (fieldLength y) <<< (y.extractLsb' 0 5).toNat)) |||
      ((x <<< (y.extractLsb' 0 5).toNat) &&& (lowOnes (fieldLength y) <<< (y.extractLsb' 0 5).toNat))).toNat := by
  have fits := fieldLength_fits y
  unfold bfiWord
  rw [bits_eq_extract, bits_eq_extract]
  change (z.toNat - bits z.toNat ((y.extractLsb' 0 5).toNat + fieldLength y - 1) (y.extractLsb' 0 5).toNat %
    2 ^ fieldLength y * 2 ^ (y.extractLsb' 0 5).toNat +
      x.toNat % 2 ^ fieldLength y * 2 ^ (y.extractLsb' 0 5).toNat) % 2 ^ 32 = _
  generalize (y.extractLsb' 0 5).toNat = pos at *
  generalize fieldLength y = n at *
  have taken : bits z.toNat (pos + n - 1) pos % 2 ^ n = z.toNat / 2 ^ pos % 2 ^ n := by
    obtain rfl | some := Nat.eq_zero_or_pos n
    · rw [pow_zero, Nat.mod_one, Nat.mod_one]
    · have length : pos + n - 1 + 1 - pos = n := by omega
      rw [bits, length, Nat.mod_mod]
  have given : (x <<< pos).toNat / 2 ^ pos % 2 ^ n = x.toNat % 2 ^ n := by
    have whole : 2 ^ 32 = 2 ^ (32 - pos) * 2 ^ pos := by rw [← pow_add]; congr 1; omega
    rw [BitVec.toNat_shiftLeft, Nat.shiftLeft_eq, whole, Nat.mul_mod_mul_right, Nat.mul_div_cancel _ (Nat.two_pow_pos _),
      Nat.mod_mod_of_dvd _ (Nat.pow_dvd_pow 2 (by omega))]
  have disjoint : (z &&& ~~~(lowOnes n <<< pos)) &&& (x <<< pos &&& lowOnes n <<< pos) = 0#32 := by
    ext j hj
    simp only [BitVec.getElem_and, BitVec.getElem_not, BitVec.getElem_zero]
    cases (lowOnes n <<< pos)[j] <;> simp
  rw [taken, ← given, ← toNat_and_field z fits, ← toNat_and_field (x <<< pos) fits, ← toNat_and_not,
    ← toNat_or_of_disjoint disjoint, toNat_mod]

end Sys2Proof.Machine
end

section
/-! SUPPORT. Integer, logic and move lane words (05 R111 to R115, R118): reading and storing by TYPE, immediates, the
words of each kind. -/

namespace Sys2Proof.Machine

/-! ## Integer arithmetic (05 R111 to R113) -/

/-- The TYPE codes that read or store otherwise than as signed words (05 R112). -/
theorem type_cases (ty : Nat) : ty = 7 ∨ ty = 12 ∨ ty = 13 ∨ (ty ≠ 7 ∧ ty ≠ 12 ∧ ty ≠ 13) := by omega

theorem typeInt_word {ty : Nat} (h : ty ≠ 7 ∧ ty ≠ 12 ∧ ty ≠ 13) (v : Nat) : typeInt ty v = typeInt 6 v := by
  simp [typeInt, h]

theorem typeStore_word {ty : Nat} (h : ty ≠ 7 ∧ ty ≠ 12 ∧ ty ≠ 13) (sat : Bool) (x : Int) :
    typeStore ty sat x = typeStore 6 sat x := by
  simp [typeStore, h]

theorem intSigned_word {ty : Nat} (h : ty ≠ 7 ∧ ty ≠ 12 ∧ ty ≠ 13) : intSigned ty = true := by simp [intSigned, h]

theorem intWidth_word {ty : Nat} (h : ty ≠ 7 ∧ ty ≠ 12 ∧ ty ≠ 13) : intWidth ty = 32 := by simp [intWidth, h]

/-- An operand reads under a TYPE as the rules say (05 R112). -/
theorem intRead_eq_typeInt (ty v : Nat) : intRead ty v = typeInt ty v := by
  obtain rfl | rfl | rfl | word := type_cases ty
  · exact congrArg Int.ofNat (BitVec.toNat_ofNat v 32).symm
  · exact toSigned_eq_toInt 63 v
  · exact congrArg Int.ofNat (BitVec.toNat_ofNat v 64).symm
  · rw [typeInt_word word, intRead, intSigned_word word, intWidth_word word]
    exact toSigned_eq_toInt 31 v

theorem clamp_eq_max_min {lo hi : Int} (h : lo ≤ hi) (x : Int) : clamp lo hi x = max lo (min x hi) := by
  unfold clamp
  split
  · omega
  · split <;> omega

/-- A result is stored under a TYPE as the rules say (05 R112). -/
theorem intStore_eq_typeStore (ty : Nat) (sat : Bool) (x : Int) : intStore ty sat x = typeStore ty sat x := by
  obtain rfl | rfl | rfl | word := type_cases ty
  case inr.inr.inr =>
    rw [typeStore_word word, intStore, intSigned_word word, intWidth_word word]
    simp [typeStore, wrapTo_eq_ofInt, clamp_eq_max_min]
  all_goals simp [intStore, typeStore, intSigned, intWidth, wrapTo_eq_ofInt, clamp_eq_max_min]

/-- An immediate reads as signed at the width of the TYPE (05 R112). -/
theorem toSigned_intWidth (ty v : Nat) : toSigned (intWidth ty) v =
    if ty = 12 ∨ ty = 13 then (BitVec.ofNat 64 v).toInt else (BitVec.ofNat 32 v).toInt := by
  unfold intWidth
  split
  · exact toSigned_eq_toInt 63 v
  · exact toSigned_eq_toInt 31 v

/-- The exact result of a row of R111, stored. -/
def arithResult (m : Mods) (immB : Bool) (op : Int → Int → Int → Int) (x y z : Nat) : Nat :=
  typeStore m.ty m.sat (op (typeInt m.ty x)
    (if immB then (if m.ty = 12 ∨ m.ty = 13 then (BitVec.ofNat 64 y).toInt else (BitVec.ofNat 32 y).toInt)
      else typeInt m.ty y)
    (typeInt m.ty z))

theorem arith_value (op : Int → Int → Int → Int) (immB : Mods → Bool) (m : Mods) (x : Srcs) (l : Nat) (u : Nat → Nat) :
    (arith op immB).value m x l u = arithResult m (immB m) op (x.a l) (x.b l) (x.c l) := by
  simp only [arith, LaneFn.pure, arithResult, intStore_eq_typeStore, intRead_eq_typeInt, toSigned_intWidth]

theorem arith_computes (op : Int → Int → Int → Int) (immB : Mods → Bool) (m : Mods) (na nb nc : Nat) :
    (arith op immB).Computes m na nb nc (arithResult m (immB m) op) :=
  ⟨fun _ _ _ => rfl, fun x l _ _ _ => arith_value op immB m x l _⟩

/-- What one register holds, as a word. -/
theorem toNat_ofRegister {v : Nat} (h : v < 2 ^ (32 * 1)) : (BitVec.ofNat 32 v).toNat = v := Nat.mod_eq_of_lt h

/-- A 32-bit result is that of the operation on words. -/
theorem bitsFn_computes {m : Mods} {f : Nat → Nat → Nat → Nat} {F : Word → Word → Word → Word}
    (word : ∀ x y z : Word, f x.toNat y.toNat z.toNat % 2 ^ 32 = (F x y z).toNat) :
    (bitsFn f).Computes m 1 1 1 (onWords F) where
  draws _ _ _ := rfl
  value x l ha hb hc := by
    refine Eq.trans ?_ (word (BitVec.ofNat 32 (x.a l)) (BitVec.ofNat 32 (x.b l)) (BitVec.ofNat 32 (x.c l)))
    rw [toNat_ofRegister ha, toNat_ofRegister hb, toNat_ofRegister hc]
    rfl

/-! ## Immediates (04 R87, R94; 05 R113) -/

section
variable {m : Mods}

/-- A PFXI replaces an immediate that is 0. -/
theorem immediate_low {signed : Bool} {x : BitVec 8} {n : Word} (h : m.immediate signed x = some n) {y : BitVec 24}
    (prefixed : m.imm = some y) : x.toNat = 0 := by
  unfold Mods.immediate at h
  simp only [prefixed, Option.ite_none_right_eq_some] at h
  rw [h.1]
  rfl

theorem liZero_eq {x : BitVec 8} {n : Word} (h : m.immediate false x = some n) : liZero x m = n.toNat := by
  unfold Mods.immediate at h
  unfold liZero
  cases prefixed : m.imm with
  | none =>
    simp only [prefixed, Option.some.injEq] at h
    rw [← h]
    exact (BitVec.toNat_setWidth_of_le (by decide)).symm
  | some y =>
    simp only [prefixed, Option.ite_none_right_eq_some, Option.some.injEq] at h
    rw [← h.2]
    exact (BitVec.toNat_setWidth_of_le (by decide)).symm

/-- A shorter number sign-extended reads as itself. -/
theorem toSigned_wrapTo_toInt {k : Nat} (w : Nat) (h : k ≤ w + 1) (x : BitVec k) :
    toSigned (w + 1) (wrapTo (w + 1) x.toInt) = x.toInt := by
  rw [toSigned_eq_toInt, wrapTo_eq_ofInt, BitVec.ofNat_toNat, BitVec.setWidth_eq]
  exact BitVec.toInt_signExtend_of_le h

/-- A signed immediate is the same number at the width of any TYPE. -/
theorem toSigned_liSigned {x : BitVec 8} {n : Word} (h : m.immediate true x = some n) :
    toSigned (intWidth m.ty) (liSigned x m) = n.toInt := by
  have same {k : Nat} (h : k ≤ 32) (z : BitVec k) : toSigned (intWidth m.ty) (wrapTo (intWidth m.ty) z.toInt) = z.toInt := by
    unfold intWidth
    split
    · exact toSigned_wrapTo_toInt 63 (by omega) z
    · exact toSigned_wrapTo_toInt 31 h z
  unfold Mods.immediate at h
  unfold liSigned
  cases prefixed : m.imm with
  | none =>
    simp only [prefixed, Option.some.injEq] at h
    rw [← h]
    exact (same (by decide) x).trans (BitVec.toInt_signExtend_of_le (by decide)).symm
  | some y =>
    simp only [prefixed, Option.ite_none_right_eq_some, Option.some.injEq] at h
    rw [← h.2]
    exact (same (by decide) y).trans (BitVec.toInt_signExtend_of_le (by decide)).symm

theorem shiftCount_spec {x : BitVec 5} {n : Nat} (h : m.shiftCount x = some n) :
    liShift x m = n ∧ n < 32 ∧ ∀ y, m.imm = some y → x.toNat = 0 ∧ y.toNat < 32 := by
  unfold Mods.shiftCount at h
  unfold liShift
  cases prefixed : m.imm with
  | none =>
    simp only [prefixed, Option.some.injEq] at h
    subst h
    exact ⟨rfl, x.isLt, fun _ c => by cases c⟩
  | some y =>
    simp only [prefixed, Option.ite_none_right_eq_some, Option.some.injEq] at h
    obtain ⟨⟨zero, small⟩, rfl⟩ := h
    refine ⟨rfl, small, fun z c => ?_⟩
    obtain rfl := Option.some.inj c
    exact ⟨zero ▸ rfl, small⟩

end

section
variable {s : State} {i : Iss} {m : Mods} {r : LaneRow} (hm : i.modified s m) (ready : r.ready i m)
  (common : m.common = true)
include hm ready common

/-- An arithmetic word over registers (05 R111 to R113). -/
theorem laneReg_arithRow {wide : Bool} {fm : Form} {d a b : LReg} {cu : Use} {op : Int → Int → Int → Int}
    (row : m.arithRow wide d a b cu op = some r) (byPrefix : fm.imm = .b)
    (takes : (m.ty = 0 ∨ m.ty = 6 ∨ m.ty = 7 ∨ (wide = true ∧ (m.ty = 12 ∨ m.ty = 13))) →
      fm.Takes m (if m.ty = 12 ∨ m.ty = 13 then .dstPair else .dst) (if m.ty = 12 ∨ m.ty = 13 then .srcPair else .src)
        (if m.ty = 12 ∨ m.ty = 13 then .srcPair else .src) cu) :
    laneReg s fm d a b (arith op fun m => m.imm.isSome) = .next (r.after s i m) := by
  unfold Mods.arithRow at row
  simp only [decide_eq_true_eq] at row
  split at row
  next type =>
    exact laneReg_rowB hm ready common (f := arithResult m m.imm.isSome op) rfl row (takes type) byPrefix
      (by unfold intWidth; split <;> rfl) (arith_computes ..)
  next => cases row

/-- An arithmetic word with an immediate (05 R111, R113). -/
theorem laneImm_arithRow {d a : LReg} {x : BitVec 8} {n : Word} (given : m.immediate true x = some n)
    (type : m.ty = 0 ∨ m.ty = 6 ∨ m.ty = 7 ∨ m.ty = 12 ∨ m.ty = 13)
    (row : rowImm d (if m.ty = 12 ∨ m.ty = 13 then .dstPair else .dst) a (if m.ty = 12 ∨ m.ty = 13 then .srcPair else .src) 0
      (fun v _ => typeStore m.ty m.sat (typeInt m.ty v + n.toInt)) = some r) :
    laneImm s (.arith64 .imm (.li false)) d a x.toNat (liSigned x) (arith (fun a b _ => a + b) fun _ => true) =
      .next (r.after s i m) := by
  have takes : (Form.arith64 .imm (.li false)).Takes m (if m.ty = 12 ∨ m.ty = 13 then .dstPair else .dst)
      (if m.ty = 12 ∨ m.ty = 13 then .srcPair else .src) .imm .unused :=
    ⟨by simpa [Form.arith64] using type, fun _ => rfl, rfl, rfl, rfl, rfl, rfl, rfl⟩
  refine laneImm_rowImm hm ready (modsOk_of_takes takes common _ fun y prefixed => ?_) row takes (fun _ _ _ => rfl) ?_
  · simp [Form.arith64, ImmUse.admits, immediate_low given prefixed]
  · intro z l _ hb
    rw [arith_value, arithResult, if_pos rfl, hb, ← toSigned_intWidth, toSigned_liSigned given]

/-- A word of R114 or R118 over registers. -/
theorem laneReg_wordRow {d a b : LReg} {cu : Use} {f : Nat → Nat → Nat → Nat} {F : Word → Word → Word → Word}
    (one : cu.count = 1) (word : ∀ x y z : Word, f x.toNat y.toNat z.toNat % 2 ^ 32 = (F x y z).toNat)
    (row : m.wordRow d a b cu F = some r) :
    laneReg s (.regs [0] false .src .src cu) d a b (bitsFn f) = .next (r.after s i m) := by
  unfold Mods.wordRow at row
  obtain ⟨⟨type, plain⟩, row⟩ := Option.ite_none_right_eq_some.1 row
  exact laneReg_rowB hm ready common (by rw [type]; rfl) row (takes_regs _ _ _ (by simp [type]) (by simpa using plain)) rfl
    rfl (by rw [one]; exact bitsFn_computes word)

/-- A word of R114 over one register. -/
theorem laneReg_wordRow1 {d a : LReg} {f : Nat → Nat} {F : Word → Word}
    (word : ∀ x : Word, f x.toNat % 2 ^ 32 = (F x).toNat) (row : m.wordRow1 d a F = some r) :
    laneReg s .plain1 d a .zero (bitsFn fun x _ _ => f x) = .next (r.after s i m) := by
  unfold Mods.wordRow1 at row
  obtain ⟨⟨type, plain⟩, row⟩ := Option.ite_none_right_eq_some.1 row
  exact laneReg_rowA hm ready common row (takes_regs _ _ _ (by simp [type]) (by simpa using plain))
    (bitsFn_computes (F := fun x _ _ => F x) fun x _ _ => word x)

/-- A word of 32 bits with an immediate (04 R86). -/
theorem laneImm_word {d a : LReg} {shift : Bool} {low n : Nat} {imm : Mods → Nat} {f : Nat → Nat → Nat}
    {F : Word → Nat → Word} (type : m.ty = 0) (plain : m.sat = false)
    (replaced : ∀ y, m.imm = some y → low = 0 ∧ (shift = true → y.toNat < 32)) (given : imm m = n)
    (word : ∀ x : Word, f x.toNat n % 2 ^ 32 = (F x n).toNat)
    (row : rowImm d .dst a .src n (fun v k => (F (BitVec.ofNat 32 v) k).toNat) = some r) :
    laneImm s (.li shift) d a low imm (bitsFn fun x y _ => f x y) = .next (r.after s i m) := by
  have takes : (Form.li shift).Takes m .dst .src .imm .unused :=
    ⟨by simp [Form.li, Form.regs, type], by simp [plain], rfl, rfl, rfl, rfl, rfl, rfl⟩
  refine laneImm_rowImm hm ready (modsOk_of_takes takes common _ fun y prefixed => ?_) row takes (fun _ _ _ => rfl) ?_
  · obtain ⟨zero, small⟩ := replaced y prefixed
    cases shift with
    | false => simp [Form.li, ImmUse.admits, zero]
    | true => simp [Form.li, ImmUse.admits, zero, small]
  · intro z l ha hb
    refine Eq.trans ?_ (word (BitVec.ofNat 32 (z.a l)))
    rw [toNat_ofRegister ha, ← given, ← hb]
    rfl

/-- AND, OR and XOR with an immediate. -/
theorem laneImm_logicRow {d a : LReg} {x : BitVec 8} {f : Nat → Nat → Nat} {F : Word → Word → Word}
    (word : ∀ x y : Word, f x.toNat y.toNat % 2 ^ 32 = (F x y).toNat)
    (row : (if m.ty = 0 ∧ !m.sat then (m.immediate false x).bind fun n => rowImm d .dst a .src n.toNat fun v k =>
      (F (BitVec.ofNat 32 v) (BitVec.ofNat 32 k)).toNat else none) = some r) :
    laneImm s (.li false) d a x.toNat (liZero x) (bitsFn fun x y _ => f x y) = .next (r.after s i m) := by
  obtain ⟨⟨type, plain⟩, row⟩ := Option.ite_none_right_eq_some.1 row
  obtain ⟨n, given, row⟩ := Option.bind_eq_some_iff.1 row
  refine laneImm_word hm ready common (F := fun x k => F x (BitVec.ofNat 32 k)) type (by simpa using plain)
    (fun y prefixed => ⟨immediate_low given prefixed, nofun⟩) (liZero_eq given) (fun x => ?_) row
  rw [word, BitVec.ofNat_toNat, BitVec.setWidth_eq]

/-- A shift by an immediate count. -/
theorem laneImm_shiftRow {d a : LReg} {x : BitVec 5} {f : Nat → Nat → Nat} {F : Word → Nat → Word}
    (word : ∀ (x : Word) (n : Nat), n < 32 → f x.toNat n % 2 ^ 32 = (F x n).toNat)
    (row : (if m.ty = 0 ∧ !m.sat then (m.shiftCount x).bind fun n => rowImm d .dst a .src n fun v k =>
      (F (BitVec.ofNat 32 v) k).toNat else none) = some r) :
    laneImm s (.li true) d a x.toNat (liShift x) (bitsFn fun x y _ => f x y) = .next (r.after s i m) := by
  obtain ⟨⟨type, plain⟩, row⟩ := Option.ite_none_right_eq_some.1 row
  obtain ⟨n, given, row⟩ := Option.bind_eq_some_iff.1 row
  obtain ⟨count, small, replaced⟩ := shiftCount_spec given
  exact laneImm_word hm ready common type (by simpa using plain)
    (fun y prefixed => ⟨(replaced y prefixed).1, fun _ => (replaced y prefixed).2⟩) count (fun x => word x n small) row

/-- BFX under each of its TYPEs (05 R115). -/
theorem laneReg_bfxRow {d a b : LReg}
    (row : (if (m.ty = 0 ∨ m.ty = 6 ∨ m.ty = 7) ∧ !m.sat then
      m.rowB 32 d .dst a b .src .src .unused (onWords fun x y _ =>
        let n := min (y.extractLsb' 8 6).toNat (32 - (y.extractLsb' 0 5).toNat)
        let f := (x >>> (y.extractLsb' 0 5).toNat) &&& lowOnes n
        if n = 0 then 0 else if m.ty = 6 then (f <<< (32 - n)).sshiftRight (32 - n) else f)
      else none) = some r) :
    laneReg s (.regs [0, 6, 7] false .src .src .unused) d a b
      (LaneFn.pure fun m x l => bfxWord (m.ty = 6) (x.a l) (x.b l)) = .next (r.after s i m) := by
  obtain ⟨⟨type, plain⟩, row⟩ := Option.ite_none_right_eq_some.1 row
  refine laneReg_rowB hm ready common (if_neg (by omega)) row (takes_regs _ _ _ (by simpa using type) (by simpa using plain))
    rfl rfl ⟨fun _ _ _ => rfl, fun x l ha hb _ => ?_⟩
  refine Eq.trans ?_ (bfxWord_toNat (m.ty = 6) (BitVec.ofNat 32 (x.a l)) (BitVec.ofNat 32 (x.b l)))
  rw [toNat_ofRegister ha, toNat_ofRegister hb]
  rfl

/-- MOV of a register or of a pair (05 R118). -/
theorem laneReg_movRow {d a : LReg}
    (row : (if (m.ty = 0 ∨ m.ty = 12) ∧ !m.sat then
      m.rowA d (if m.ty = 12 then .dstPair else .dst) a (if m.ty = 12 then .srcPair else .src) fun x => x
      else none) = some r) : execMov d a s = .next (r.after s i m) := by
  obtain ⟨⟨type, plain⟩, row⟩ := Option.ite_none_right_eq_some.1 row
  exact laneReg_rowA hm ready common row
    ⟨by simpa [Form.regs] using type, by simp_all, rfl, rfl, rfl, rfl, rfl, rfl⟩ ⟨fun _ _ _ => rfl, fun _ _ _ _ _ => rfl⟩

end

/-- MOVI's immediate, to which a PFXI gives the high half (04 R87, R94). -/
theorem prefixed_append (y : BitVec 24) (x : BitVec 16) (h : y.toNat < 65536) :
    y.toNat * 65536 + x.toNat = (y.extractLsb' 0 16 ++ x : Word).toNat := by
  rw [BitVec.toNat_append, BitVec.extractLsb'_toNat, Nat.shiftRight_zero, Nat.mod_eq_of_lt h,
    ← Nat.shiftLeft_add_eq_or_of_lt x.isLt, Nat.shiftLeft_eq]

/-- An immediate to a register. -/
theorem execMovi_row {s : State} {i : Iss} {m : Mods} {r : LaneRow} (hm : i.modified s m) (ready : r.ready i m)
    (common : m.common = true) {d : LReg} {x : BitVec 16} (row : integerRow m (.movi d x) = some r) :
    execMovi d x s = .next (r.after s i m) := by
  simp only [integerRow, common, Bool.not_true, Bool.false_eq_true, if_false] at row
  obtain ⟨⟨type, plain⟩, row⟩ := Option.ite_none_right_eq_some.1 row
  have takes : ({ Form.regs [0] false .imm .imm .unused with imm := .lw } : Form).Takes m .dst .imm .imm .unused :=
    ⟨by simp [Form.regs, type], by simp_all, rfl, rfl, rfl, rfl, rfl, rfl⟩
  unfold execMovi
  cases prefixed : m.imm with
  | none =>
    simp only [prefixed] at row
    refine laneImm_rowImm hm ready (n := (x.signExtend 32 : Word).toNat) (f := fun _ n => n)
      (modsOk_of_takes takes common _ (by simp [prefixed])) row takes (fun _ _ _ => rfl) ?_
    intro z l _ hb
    rw [prefixed] at hb
    exact (congrArg (· % 2 ^ 32) hb).trans ((Nat.mod_eq_of_lt (wrapTo_lt ..)).trans (wrapTo_eq_ofInt ..))
  | some y =>
    simp only [prefixed] at row
    obtain ⟨half, row⟩ := Option.ite_none_right_eq_some.1 row
    refine laneImm_rowImm hm ready (n := (y.extractLsb' 0 16 ++ x : Word).toNat) (f := fun _ n => n)
      (modsOk_of_takes takes common _ (by simp [prefixed, ImmUse.admits, half])) row takes (fun _ _ _ => rfl) ?_
    intro z l _ hb
    rw [prefixed] at hb
    exact (congrArg (· % 2 ^ 32) (hb.trans (prefixed_append y x half))).trans (toNat_mod _)

/-! ## The words -/

/-- Every word with a row of R111 to R115 or R118 does what its row says. -/
theorem exec_integerRow {s : State} {i : Iss} {m : Mods} {w : Instr} {r : LaneRow} (hm : i.modified s m)
    (ready : r.ready i m) (row : integerRow m w = some r) : exec w s = .next (r.after s i m) := by
  have whole := row
  unfold integerRow at row
  obtain ⟨common, row⟩ : _ ∧ _ := Option.ite_none_left_eq_some.1 row
  rw [Bool.not_eq_true, Bool.not_eq_false'] at common
  cases w with
  | iadd d a b | isub d a b =>
    refine laneReg_arithRow hm ready common row rfl fun type => ?_
    exact ⟨by simpa [Form.arith64] using type, fun _ => rfl, rfl, rfl, rfl, rfl, rfl, rfl⟩
  | imul d a b | imad d a b =>
    refine laneReg_arithRow hm ready common row rfl fun type => ?_
    have short : ¬(m.ty = 12 ∨ m.ty = 13) := by simp at type; omega
    simp only [if_neg short]
    exact takes_regs _ _ _ (by simpa using type) fun _ => rfl
  | iaddi d a x =>
    simp only [decide_eq_true_eq] at row
    obtain ⟨type, row⟩ := Option.ite_none_right_eq_some.1 row
    obtain ⟨n, given, row⟩ := Option.bind_eq_some_iff.1 row
    exact laneImm_arithRow hm ready common given type row
  | imulh d a b => exact laneReg_wordRow hm ready common rfl (fun x y _ => mulHigh_signed x y) row
  | umulh d a b => exact laneReg_wordRow hm ready common rfl (fun x y _ => mulHigh_unsigned x y) row
  | imin d a b => exact laneReg_wordRow hm ready common rfl (fun x y _ => minSigned_toNat x y) row
  | imax d a b => exact laneReg_wordRow hm ready common rfl (fun x y _ => maxSigned_toNat x y) row
  | umin d a b => exact laneReg_wordRow hm ready common rfl (fun x y _ => minUnsigned_toNat x y) row
  | umax d a b => exact laneReg_wordRow hm ready common rfl (fun x y _ => maxUnsigned_toNat x y) row
  | and d a b => exact laneReg_wordRow hm ready common rfl (fun x y _ => toNat_mod (x &&& y)) row
  | or d a b => exact laneReg_wordRow hm ready common rfl (fun x y _ => toNat_mod (x ||| y)) row
  | xor d a b => exact laneReg_wordRow hm ready common rfl (fun x y _ => toNat_mod (x ^^^ y)) row
  | andn d a b => exact laneReg_wordRow hm ready common rfl (fun x y _ => andNot_toNat x y) row
  | shl d a b => exact laneReg_wordRow hm ready common rfl (fun x y _ => by rw [shlWord_toNat, toNat_mod]) row
  | shr d a b => exact laneReg_wordRow hm ready common rfl (fun x y _ => by rw [shrWord_toNat, toNat_mod]) row
  | sar d a b => exact laneReg_wordRow hm ready common rfl (fun x y _ => by rw [sarWord_toNat, toNat_mod]) row
  | rol d a b => exact laneReg_wordRow hm ready common rfl (fun x y _ => rolWord_toNat x y) row
  | popc d a => exact laneReg_wordRow1 hm ready common popcWord_toNat row
  | clz d a => exact laneReg_wordRow1 hm ready common clzWord_toNat row
  | brev d a => exact laneReg_wordRow1 hm ready common brevWord_toNat row
  | bfx d a b => exact laneReg_bfxRow hm ready common row
  | bfi d a b => exact laneReg_wordRow hm ready common rfl bfiWord_toNat row
  | sel d a b => exact laneReg_wordRow hm ready common rfl select_toNat row
  | mov d a => exact laneReg_movRow hm ready common row
  | andi d a x => exact laneImm_logicRow hm ready common (fun x y => toNat_mod (x &&& y)) row
  | ori d a x => exact laneImm_logicRow hm ready common (fun x y => toNat_mod (x ||| y)) row
  | xori d a x => exact laneImm_logicRow hm ready common (fun x y => toNat_mod (x ^^^ y)) row
  | shli d a x =>
    refine laneImm_shiftRow hm ready common (F := fun x n => x <<< n) (fun x n small => ?_) row
    rw [shlWord_toNat, if_neg (by omega), toNat_mod]
  | shri d a x =>
    refine laneImm_shiftRow hm ready common (F := fun x n => x >>> n) (fun x n small => ?_) row
    rw [shrWord_toNat, if_neg (by omega), toNat_mod]
  | sari d a x =>
    refine laneImm_shiftRow hm ready common (F := fun x n => x.sshiftRight n) (fun x n small => ?_) row
    rw [sarWord_toNat, min_eq_left (by omega), toNat_mod]
  | movi d x => exact execMovi_row hm ready common whole
  | _ => cases row

/-- Settles O3, word by word: each runs under the form of its row and computes the row's result. -/
theorem integerLaneWordWritesItsResult : Obligations.IntegerLaneWordWritesItsResult := by
  unfold Obligations.IntegerLaneWordWritesItsResult
  exact fun _ _ _ _ _ hm row ready => exec_integerRow hm ready row

end Sys2Proof.Machine
end

section
/-! SUPPORT. FP32 lane words (05 R119 to R122): what rounding and choosing yield, the words of each kind. -/

namespace Sys2Proof.Machine

/-! ## What rounding yields (03 R54, R60, R62) -/

theorem omegaBits_lt (f : Fmt) : f.omegaBits < 2 ^ (f.expo + f.frac) := by cases f <;> decide

theorem canon_lt (f : Fmt) : f.canon < 2 ^ f.width := by cases f <;> decide

/-- The sign bit of an encoding. -/
def Fmt.signBit (f : Fmt) (neg : Bool) : Nat := if neg then 2 ^ (f.expo + f.frac) else 0

/-- What a magnitude past the largest finite one becomes (03 R62). -/
def Fmt.overflow (f : Fmt) (sat neg : Bool) : Nat :=
  if sat then f.signBit neg + (f.omegaBits - 1) else if f = .e4m3 then f.canon else f.signBit neg + f.omegaBits

/-- A sign with a magnitude up to Ω is an encoding of the format. -/
theorem signed_lt (f : Fmt) (neg : Bool) {k : Nat} (h : k ≤ f.omegaBits) :
    f.signBit neg + k < 2 ^ f.width := by
  have omega := omegaBits_lt f
  have width : 2 ^ f.width = 2 * 2 ^ (f.expo + f.frac) := by rw [Fmt.width, add_assoc, pow_add, pow_one]
  rw [width, Fmt.signBit]
  split <;> omega

theorem overflow_lt (f : Fmt) (sat neg : Bool) : f.overflow sat neg < 2 ^ f.width := by
  unfold Fmt.overflow
  split
  · exact signed_lt f neg (Nat.sub_le _ _)
  · split
    · exact canon_lt f
    · exact signed_lt f neg le_rfl

theorem roundTo_lt (f : Fmt) (mode : Nat) (sat : Bool) (u : Nat) (x : Ext) : roundTo f mode sat u x < 2 ^ f.width := by
  have last (neg : Bool) {b : Nat} (h : b ≤ f.omegaBits) :
      (if b = f.omegaBits then f.overflow sat neg else f.signBit neg + b) < 2 ^ f.width := by
    split
    · exact overflow_lt f sat neg
    · exact signed_lt f neg h
  have rounded {exact up : Prop} [Decidable exact] [Decidable up] {b : Nat} (h : ¬f.omegaBits ≤ b) :
      (if exact then b else if up then b + 1 else b) ≤ f.omegaBits := by
    split
    · omega
    · split <;> omega
  unfold roundTo
  cases x with
  | nan => exact canon_lt f
  | inf neg => exact overflow_lt f sat neg
  | fin neg m d e =>
    dsimp only
    split
    · exact signed_lt f neg (Nat.zero_le _)
    · split
      · split
        · exact signed_lt f neg (Nat.sub_le _ _)
        · exact overflow_lt f sat neg
      · rename_i small
        exact last neg (rounded small)

theorem minMax_mem (f : Fmt) (wantMax : Bool) (a b : Nat) :
    minMax f wantMax a b = a ∨ minMax f wantMax a b = b ∨ minMax f wantMax a b = f.canon := by
  unfold minMax
  dsimp only
  split
  · exact .inr (.inr rfl)
  · split
    · exact .inr (.inl rfl)
    · split
      · exact .inl rfl
      · split
        · exact .inl rfl
        · cases wantMax
          · exact .inl rfl
          · exact .inr (.inl rfl)
        · cases wantMax
          · exact .inr (.inl rfl)
          · exact .inl rfl

theorem minMax_lt (wantMax : Bool) {a b : Nat} (ha : a < 2 ^ 32) (hb : b < 2 ^ 32) : minMax .fp32 wantMax a b < 2 ^ 32 := by
  obtain same | same | same := minMax_mem .fp32 wantMax a b <;> rw [same]
  · exact ha
  · exact hb
  · exact canon_lt .fp32

theorem classMask_lt (a : Nat) : classMask a < 2 ^ 32 := by
  unfold classMask
  split
  · decide
  · split <;> decide
  · split
    · split <;> decide
    · split
      · split <;> decide
      · split <;> decide

/-! ## FP32 words (05 R119 to R122) -/

section
variable {s : State} {i : Iss} {m : Mods} {r : LaneRow} (hm : i.modified s m) (ready : r.ready i m)
  (common : m.common = true) (mode : m.rnd ≠ 5)
include hm ready common mode

/-- A word that rounds its exact result once (05 R119). -/
theorem laneReg_floatRow {d a b : LReg} {cu : Use} {f : Nat → Nat → Nat → Nat → Ext} {F : Ext → Ext → Ext → Ext}
    (result : ∀ x y z, f m.rnd x y z = F (fv x) (fv y) (fv z)) (row : m.floatRow d a b cu F = some r) :
    laneReg s (.float true .src .src cu) d a b (floatFn f) = .next (r.after s i m) := by
  unfold Mods.floatRow at row
  obtain ⟨type, row⟩ := Option.ite_none_right_eq_some.1 row
  refine laneReg_rowB hm ready common (if_neg (by omega)) row (takes_regs _ _ _ (by simp; omega) fun _ => rfl) rfl rfl
    ⟨fun sr => absurd sr mode, fun x l _ _ _ => ?_⟩
  exact (congrArg _ (result ..)).trans (Nat.mod_eq_of_lt (roundTo_lt .fp32 ..)).symm

/-- FMIN and FMAX (05 R120). -/
theorem laneReg_minMaxRow {d a b : LReg} {wantMax : Bool} (row : (if m.ty ≤ 1 ∧ !m.sat then
      m.rowB 32 d .dst a b .src .src .unused fun x y _ => minMax .fp32 wantMax x y else none) = some r) :
    laneReg s (.float false .src .src .unused) d a b (bitsFn fun a b _ => minMax .fp32 wantMax a b) =
      .next (r.after s i m) := by
  obtain ⟨⟨type, plain⟩, row⟩ := Option.ite_none_right_eq_some.1 row
  exact laneReg_rowB hm ready common (if_neg (by omega)) row (takes_regs _ _ _ (by simp; omega) (by simpa using plain)) rfl
    rfl ⟨fun sr => absurd sr mode, fun x l ha hb _ => Nat.mod_eq_of_lt (minMax_lt wantMax ha hb)⟩

/-- A word over A alone (05 R119, R121, R122). -/
theorem laneReg_floatRow1 {d a : LReg} {sat : Bool} {f : Nat → Nat} {fn : LaneFn}
    (value : ∀ (x : Srcs) (l : Nat), fn.value m x l (fun _ => 0) = f (x.a l)) (type : m.ty ≤ 1)
    (clamps : m.sat = true → sat = true) (row : m.rowA d .dst a .src f = some r) :
    laneReg s (.float sat .src .unused .unused) d a .zero fn = .next (r.after s i m) :=
  laneReg_rowA hm ready common row (takes_regs _ _ _ (by simp; omega) clamps)
    ⟨fun sr => absurd sr mode, fun x l _ _ _ => value x l⟩

/-- A special function (05 R122). -/
theorem laneSpecial_row {d a : LReg} {fn : SpecialFn} (row : m.specialRow d a fn = some r) :
    laneSpecial fn d a s = .next (r.after s i m) := by
  unfold Mods.specialRow at row
  obtain ⟨type, row⟩ := Option.ite_none_right_eq_some.1 row
  exact laneReg_floatRow1 hm ready common mode (fun _ _ => rfl) type (fun _ => rfl) row

end

/-- Every word with a row of R119 to R122 does what its row says. -/
theorem exec_floatRow {s : State} {i : Iss} {m : Mods} {w : Instr} {r : LaneRow} (hm : i.modified s m)
    (ready : r.ready i m) (row : floatRowOf m w = some r) : exec w s = .next (r.after s i m) := by
  unfold floatRowOf at row
  obtain ⟨accepted, row⟩ : _ ∧ _ := Option.ite_none_left_eq_some.1 row
  obtain ⟨common, mode⟩ : m.common = true ∧ m.rnd ≠ 5 := by simpa using accepted
  cases w with
  | fadd d a b | fsub d a b | fmul d a b | ffma d a b =>
    exact laneReg_floatRow hm ready common mode (fun _ _ _ => rfl) row
  | fmin d a b | fmax d a b => exact laneReg_minMaxRow hm ready common mode row
  | fclass d a =>
    obtain ⟨⟨type, plain⟩, row⟩ := Option.ite_none_right_eq_some.1 row
    exact laneReg_floatRow1 hm ready common mode (fun _ _ => Nat.mod_eq_of_lt (classMask_lt _)) type
      (by simpa using plain) row
  | frnd d a =>
    obtain ⟨type, row⟩ := Option.ite_none_right_eq_some.1 row
    exact laneReg_floatRow1 hm ready common mode (fun _ _ => rfl) type (fun _ => rfl) row
  | frcp d a | frsq d a | fsqrt d a | fexp2 d a | flog2 d a | fsin d a | fcos d a | ftanh d a =>
    exact laneSpecial_row hm ready common mode row
  | _ => cases row

end Sys2Proof.Machine
end

section
/-! SUPPORT. Packed, dot-product and conversion lane words (05 R123 to R125): the parts of a packed register, the words of
each kind. -/

namespace Sys2Proof.Machine

/-! ## Parts of registers (03 R57) -/

theorem half_eq (x j : Nat) : half x j = x / 65536 ^ j % 65536 := by
  rw [half, pow_mul]
  rfl

theorem byteOf_eq_div (x j : Nat) : byteOf x j = x / 256 ^ j % 256 := by
  rw [byteOf, pow_mul]
  rfl

theorem byteOf_eq (x j : Nat) : byteOf x j = (BitVec.ofNat 8 (x / 256 ^ j)).toNat := byteOf_eq_div x j

theorem toSigned_byteOf (x j : Nat) : toSigned 8 (byteOf x j) = (BitVec.ofNat 8 (x / 256 ^ j)).toInt := by
  rw [byteOf_eq, toSigned_eq_toInt 7, BitVec.ofNat_toNat, BitVec.setWidth_eq]

theorem sum_four {α : Type} [AddMonoid α] (f : Nat → α) : ((List.range 4).map f).sum = f 0 + f 1 + f 2 + f 3 := by
  change f 0 + (f 1 + (f 2 + (f 3 + 0))) = _
  rw [add_zero, ← add_assoc, ← add_assoc]

/-! ## Integers by TYPE (05 R112, R124, R125) -/

theorem wrapTo_signed (sat : Bool) (y : Int) :
    wrapTo 32 (if sat then clamp (-(2 ^ 31)) (2 ^ 31 - 1) y else y) = typeStore 6 sat y := by
  simp [typeStore, wrapTo_eq_ofInt, clamp_eq_max_min]

theorem wrapTo_unsigned (sat : Bool) (y : Int) :
    wrapTo 32 (if sat then clamp 0 (2 ^ 32 - 1) y else y) = typeStore 7 sat y := by
  simp [typeStore, wrapTo_eq_ofInt, clamp_eq_max_min]

theorem toSigned_word (v : Nat) : toSigned 32 v = typeInt 6 v := toSigned_eq_toInt 31 v

theorem toSigned_byte (v : Nat) : toSigned 8 v = (BitVec.ofNat 8 v).toInt := toSigned_eq_toInt 7 v

/-- A word packed into a byte, clamped under SAT (05 R125). -/
theorem packByte_eq {lo hi : Int} (h : lo ≤ hi) (sat : Bool) (v : Nat) :
    (if sat then wrapTo 8 (clamp lo hi (toSigned 32 v)) else v % 256) =
      (BitVec.ofInt 8 (if sat then max lo (min (BitVec.ofNat 32 v).toInt hi) else v)).toNat := by
  rw [clamp_eq_max_min h, toSigned_eq_toInt 31, wrapTo_eq_ofInt]
  cases sat with
  | true => rfl
  | false => exact (BitVec.toNat_ofNat v 8).symm

/-- A byte unpacked, sign-extended (05 R125). -/
theorem wrapTo_signedByte (v : Nat) : wrapTo 32 (toSigned 8 v) = ((BitVec.ofNat 8 v).signExtend 32 : Word).toNat := by
  rw [toSigned_eq_toInt 7, wrapTo_eq_ofInt]
  rfl

/-- What one register holds, read as unsigned. -/
theorem typeInt_unsigned {v : Nat} (h : v < 2 ^ (32 * 1)) : typeInt 7 v = v := congrArg Nat.cast (toNat_ofRegister h)

section
variable {s : State} {i : Iss} {m : Mods} {r : LaneRow} (hm : i.modified s m) (ready : r.ready i m)
  (common : m.common = true) (mode : m.rnd ≠ 5)
include hm ready common mode

/-! ## Packed halves (05 R123) -/

/-- A word over packed halves, rounded element by element. -/
theorem laneReg_halfRow {d a b : LReg} {cu : Use} {f : Nat → Ext → Ext → Ext → Ext} {F : Ext → Ext → Ext → Ext}
    (result : f m.rnd = F) (row : m.halfRow d a b cu F = some r) :
    laneReg s (.half true cu) d a b (halfFn f) = .next (r.after s i m) := by
  unfold Mods.halfRow at row
  obtain ⟨type, row⟩ := Option.ite_none_right_eq_some.1 row
  refine laneReg_rowB hm ready common (if_neg (by omega)) row (takes_regs _ _ _ (by simpa using type) fun _ => rfl) rfl rfl
    ⟨fun sr => absurd sr mode, fun x l _ _ _ => ?_⟩
  simp only [halfFn, half_eq, result, halfFmt]
  rw [Nat.mul_comm 65536]

/-- HMIN2 and HMAX2. -/
theorem laneReg_halfPick {d a b : LReg} {wantMax : Bool} (row : m.halfPick d a b wantMax = some r) :
    laneReg s (.half false .unused) d a b (halfMinMax wantMax) = .next (r.after s i m) := by
  unfold Mods.halfPick at row
  obtain ⟨⟨type, plain⟩, row⟩ := Option.ite_none_right_eq_some.1 row
  refine laneReg_rowB hm ready common (if_neg (by omega)) row (takes_regs _ _ _ (by simpa using type) (by simpa using plain))
    rfl rfl ⟨fun sr => absurd sr mode, fun x l _ _ _ => ?_⟩
  simp only [halfMinMax, LaneFn.pure, half_eq, halfFmt]
  rw [Nat.mul_comm 65536]

/-! ## Dot products and conversions (05 R124, R125) -/

/-- Signed or unsigned bytes (05 R124). -/
theorem execDot4_row {d a b : LReg} (row : packedRow m (.dot4 d a b) = some r) :
    execDot4 d a b s = .next (r.after s i m) := by
  simp only [packedRow, common, mode, Bool.not_true, Bool.false_eq_true, or_self, if_false, decide_eq_true_eq] at row
  obtain ⟨type, row⟩ := Option.ite_none_right_eq_some.1 row
  refine laneReg_rowB hm ready common (if_neg (by omega)) row (takes_regs _ _ _ (by simpa using type) fun _ => rfl) rfl rfl
    ⟨fun sr => absurd sr mode, fun x l _ _ hc => ?_⟩
  by_cases unsigned : m.ty = 9
  · simp only [LaneFn.pure, unsigned, ne_eq, not_true_eq_false, if_true, if_false, byteOf_eq,
      wrapTo_unsigned, sum_four, typeInt_unsigned hc]
  · simp only [LaneFn.pure, unsigned, ne_eq, not_false_eq_true, if_true, if_false, toSigned_byteOf,
      wrapTo_signed, sum_four, toSigned_word]

/-- Integers of each TYPE to FP32 (05 R125). -/
theorem execCvtif_row {d a : LReg} (row : packedRow m (.cvtif d a) = some r) :
    execCvtif d a s = .next (r.after s i m) := by
  simp only [packedRow, common, mode, Bool.not_true, Bool.false_eq_true, or_self, if_false, decide_eq_true_eq] at row
  obtain ⟨⟨type, plain⟩, row⟩ := Option.ite_none_right_eq_some.1 row
  refine laneReg_rowA hm ready common row (takes_regs _ _ _ (by simpa using type) (by simpa using plain))
    ⟨fun sr => absurd sr mode, fun x l ha _ _ => ?_⟩
  obtain type | type | type | type | type := type <;> simp only [type]
  · rw [toSigned_eq_toInt 31]
  · rw [toSigned_eq_toInt 31]
  · rw [toNat_ofRegister ha]
  · rw [toSigned_byte]
  · rw [BitVec.toNat_ofNat]

/-- FP32 to integers of each TYPE (05 R125). -/
theorem execCvtfi_row {d a : LReg} (row : packedRow m (.cvtfi d a) = some r) :
    execCvtfi d a s = .next (r.after s i m) := by
  simp only [packedRow, common, mode, Bool.not_true, Bool.false_eq_true, or_self, if_false, decide_eq_true_eq] at row
  obtain ⟨type, row⟩ := Option.ite_none_right_eq_some.1 row
  refine laneReg_rowA hm ready common row (takes_regs _ _ _ (by simpa using type) fun _ => rfl)
    ⟨fun sr => absurd sr mode, fun x l _ _ _ => ?_⟩
  obtain type | type | type | type | type := type <;> simp only [type] <;> exact wrapTo_eq_ofInt 32 _

/-- Four words packed into bytes (05 R125). -/
theorem execCvt8p_row {d a : LReg} (row : packedRow m (.cvt8p d a) = some r) :
    execCvt8p d a s = .next (r.after s i m) := by
  simp only [packedRow, common, mode, Bool.not_true, Bool.false_eq_true, or_self, if_false, decide_eq_true_eq] at row
  obtain ⟨type, row⟩ := Option.ite_none_right_eq_some.1 row
  refine laneReg_rowA hm ready common row ⟨by simpa [Form.regs] using type, fun _ => rfl, rfl, rfl, rfl, rfl, rfl, rfl⟩
    ⟨fun sr => absurd sr mode, fun x l _ _ _ => ?_⟩
  obtain type | type | type | type | type := type <;> simp only [type, sum_four, wordOf, fp8Fmt, fv]
  · ring
  · ring
  · ring
  · simp only [packByte_eq (show (-128 : Int) ≤ 127 by decide)]
    ring
  · simp only [packByte_eq (show (0 : Int) ≤ 255 by decide)]
    ring

/-- Four bytes unpacked into words (05 R125). -/
theorem execCvt8u_row {d a : LReg} (row : packedRow m (.cvt8u d a) = some r) :
    execCvt8u d a s = .next (r.after s i m) := by
  simp only [packedRow, common, mode, Bool.not_true, Bool.false_eq_true, or_self, if_false, decide_eq_true_eq] at row
  obtain ⟨⟨type, plain⟩, row⟩ := Option.ite_none_right_eq_some.1 row
  refine laneReg_rowA hm ready common row ⟨by simpa [Form.regs] using type, by simp_all, rfl, rfl, rfl, rfl, rfl, rfl⟩
    ⟨fun sr => absurd sr mode, fun x l _ _ _ => ?_⟩
  obtain type | type | type | type | type := type <;>
    simp only [LaneFn.pure, type, sum_four, wrapTo_signedByte, byteOf_eq_div, convert, fp8Fmt] <;> ring

end

/-- Every word with a row of R123 to R125 does what its row says. -/
theorem exec_packedRow {s : State} {i : Iss} {m : Mods} {w : Instr} {r : LaneRow} (hm : i.modified s m)
    (ready : r.ready i m) (row : packedRow m w = some r) : exec w s = .next (r.after s i m) := by
  have whole := row
  unfold packedRow at row
  obtain ⟨accepted, row⟩ : _ ∧ _ := Option.ite_none_left_eq_some.1 row
  obtain ⟨common, mode⟩ : m.common = true ∧ m.rnd ≠ 5 := by simpa using accepted
  simp only [decide_eq_true_eq] at row
  cases w with
  | hadd2 d a b | hmul2 d a b | hfma2 d a b => exact laneReg_halfRow hm ready common mode rfl row
  | hmin2 d a b | hmax2 d a b => exact laneReg_halfPick hm ready common mode row
  | dot4 d a b => exact execDot4_row hm ready common mode whole
  | cvtif d a => exact execCvtif_row hm ready common mode whole
  | cvtfi d a => exact execCvtfi_row hm ready common mode whole
  | cvt8p d a => exact execCvt8p_row hm ready common mode whole
  | cvt8u d a => exact execCvt8u_row hm ready common mode whole
  | fdot2 d a b =>
    obtain ⟨type, row⟩ := Option.ite_none_right_eq_some.1 row
    refine laneReg_rowB hm ready common (if_neg (by omega)) row (takes_regs _ _ _ (by simpa using type) fun _ => rfl) rfl rfl
      ⟨fun sr => absurd sr mode, fun x l _ _ _ => ?_⟩
    simp only [half_eq]
    rfl
  | cvtfh d a b =>
    obtain ⟨type, row⟩ := Option.ite_none_right_eq_some.1 row
    refine laneReg_rowB hm ready common (if_neg (by omega)) row (takes_regs _ _ _ (by simpa using type) fun _ => rfl) rfl rfl
      ⟨fun sr => absurd sr mode, fun x l _ _ _ => ?_⟩
    rw [Nat.mul_comm 65536]
    rfl
  | cvthf d a =>
    obtain ⟨⟨type, plain⟩, row⟩ := Option.ite_none_right_eq_some.1 row
    refine laneReg_rowA hm ready common row ⟨by simpa [Form.regs] using type, by simp_all, rfl, rfl, rfl, rfl, rfl, rfl⟩
      ⟨fun sr => absurd sr mode, fun x l _ _ _ => ?_⟩
    simp only [LaneFn.pure, half_eq]
    rw [Nat.mul_comm (2 ^ 32)]
    rfl
  | _ => cases row

/-- Settles O4, word by word: each runs under the form of its row and computes the row's result. -/
theorem floatLaneWordsWriteTheirResults : Obligations.FloatLaneWordsWriteTheirResults := by
  unfold Obligations.FloatLaneWordsWriteTheirResults
  exact ⟨fun _ _ _ _ _ hm row ready => exec_floatRow hm ready row, fun _ _ _ _ _ hm row ready => exec_packedRow hm ready row⟩

end Sys2Proof.Machine
end

section
/-! SUPPORT. Compares (05 R116, R117): the conditions over words, what one repetition leaves of a predicate, the word. -/

namespace Sys2Proof.Machine

/-! ## Conditions (05 R116) -/

theorem condSigned_eq {c : Nat} (h : c ≤ 5) (x y : Word) : condSigned c x.toNat y.toNat = scalarCondition false c x y := by
  unfold condSigned scalarCondition
  rw [toSigned_toNat, toSigned_toNat]
  interval_cases c <;> simp [BitVec.slt, BitVec.sle, BitVec.toInt_inj]

theorem condUnsigned_eq {c : Nat} (h : c ≤ 5) (x y : Word) :
    condUnsigned c x.toNat y.toNat = scalarCondition true c x y := by
  unfold condUnsigned scalarCondition
  interval_cases c <;> simp [BitVec.ult, BitVec.ule, BitVec.toNat_inj]

/-! ## Masks (00 R10; 02 R41) -/

theorem mem_lanes {m : Mask} {l : Nat} : l ∈ Mask.lanes m ↔ l < 64 ∧ m.getLsbD l = true := by
  simp [Mask.lanes]

theorem getLsbD_ofLanes_aux (ls : List Nat) (m : Mask) (l : Nat) (h : l < 64) :
    (ls.foldl (fun m l => m ||| BitVec.ofNat 64 (2 ^ l)) m).getLsbD l = (m.getLsbD l || decide (l ∈ ls)) := by
  induction ls generalizing m with
  | nil => simp
  | cons k ks ih =>
    have bit : (BitVec.ofNat 64 (2 ^ k)).getLsbD l = decide (l = k) := by
      rw [BitVec.getLsbD_ofNat, Nat.testBit_two_pow]
      simp [h, eq_comm]
    rw [List.foldl_cons, ih, BitVec.getLsbD_or, bit, Bool.or_assoc, ← Bool.decide_or]
    simp only [List.mem_cons]

theorem getLsbD_ofLanes (ls : List Nat) {l : Nat} (h : l < 64) : (Mask.ofLanes ls).getLsbD l = decide (l ∈ ls) := by
  rw [Mask.ofLanes, getLsbD_ofLanes_aux ls 0 l h]
  simp

/-! ## The word (05 R117) -/

/-- The lanes in which a repetition's result is not 0. -/
def trueLanes (i : Iss) (m : Mods) (fn : LaneFn) (x : Srcs) : Mask :=
  Mask.ofLanes (((plainResults i m fn x).filter fun r => r.2 ≠ 0).map (·.1))

/-- One repetition into a predicate, with no queue field and no draw. -/
theorem runOnce_pred (s : State) (i : Iss) (fm : Form) (m : Mods) (d a b : LReg) (imm n : Nat) (f : Mods → Srcs → Nat → Nat)
    (pops : popsOf [a, if fm.bUse m = .imm then .zero else b, m.c] = []) :
    runOnce s i fm m d a b imm (LaneFn.pure f) (.pred n) = .ok (updGroup s i.gid fun g =>
      g.writeP n (activeLanes i m ||| zeroLanes i m) (trueLanes i m (LaneFn.pure f) (plainSrcs i fm m a b imm))) := by
  have total (x : Srcs) :
      (if m.rnd = 5 then ((Mask.lanes (activeLanes i m)).map ((LaneFn.pure f).draws m x)).sum else 0) = 0 := by
    simp [LaneFn.pure]
  have empty : drawValues s i.k i.g 0 = some [] := by simp [drawValues, drawAny]
  have unopened : openReplay s i.k i.g 0 = s := by
    unfold openReplay
    split <;> simp
  unfold runOnce
  simp only [pops, popAll, queuesReady, total, unopened, empty, List.all_nil, Bool.true_and, commitDraws_zero, if_true,
    dealElems_nil _ pops]
  rfl

/-- The lanes of a repetition that yields 1 where a condition holds. -/
theorem getLsbD_trueLanes (i : Iss) (m : Mods) (x : Srcs) (p : Nat → Nat → Bool) {l : Nat} (h : l < 64) :
    (trueLanes i m (LaneFn.pure fun _ x l => if p (x.a l) (x.b l) then 1 else 0) x).getLsbD l =
      ((activeLanes i m).getLsbD l && p (x.a l) (x.b l)) := by
  rw [trueLanes, getLsbD_ofLanes _ h, plainResults, laneResults_nil, Bool.eq_iff_iff]
  simp [LaneFn.pure, mem_lanes, h]

/-- What bit `l` of a predicate reads as once its bits within some lanes are written. -/
theorem getLsbD_written (old within on : Mask) {l : Nat} (h : l < 64) :
    ((old &&& ~~~within) ||| (on &&& within)).getLsbD l = if within.getLsbD l then on.getLsbD l else old.getLsbD l := by
  rw [BitVec.getLsbD_or, BitVec.getLsbD_and, BitVec.getLsbD_and, BitVec.getLsbD_not]
  cases within.getLsbD l <;> simp [h]

/-- What a compare word runs as: the TYPEs it takes, its greatest condition code and its condition over words. -/
theorem exec_compare {w : Instr} {c : BitVec 5} {p : BitVec 3} {a b : LReg} {f : Word → Word → Bool} (s : State)
    (hw : compares w = some (c, p, a, b, f)) : ∃ (types : List Nat) (top : Nat) (cond : Nat → Nat → Nat → Bool),
      exec w s = laneCompare s types top c p a b cond ∧ c.toNat ≤ top ∧
        (∀ x y : Word, cond c.toNat x.toNat y.toNat = f x y) ∧
        0 ∈ types ∧ ((∃ c p a b, w = .fcmp c p a b) → 1 ∈ types) := by
  cases w with
  | icmp c p a b =>
    obtain ⟨small, same⟩ := Option.ite_none_right_eq_some.1 hw
    cases same
    exact ⟨[0], 5, condSigned, rfl, small, condSigned_eq small, by simp, by simp⟩
  | ucmp c p a b =>
    obtain ⟨small, same⟩ := Option.ite_none_right_eq_some.1 hw
    cases same
    exact ⟨[0], 5, condUnsigned, rfl, small, condUnsigned_eq small, by simp, by simp⟩
  | fcmp c p a b =>
    obtain ⟨small, same⟩ := Option.ite_none_right_eq_some.1 hw
    cases same
    refine ⟨[0, 1], 7, condFloat, rfl, small, fun x y => ?_, by simp, by simp⟩
    unfold condFloat
    generalize c.toNat = n at small ⊢
    interval_cases n <;> simp
  | _ => cases hw

section
variable {s : State} {i : Iss} {m : Mods} (hm : i.modified s m) (common : m.common = true)
include hm common

/-- A compare that nothing stops writes its condition to the active lanes of its predicate. -/
theorem laneCompare_eq {types : List Nat} {top : Nat} {c : BitVec 5} {p : BitVec 3} {a b : LReg}
    {cond : Nat → Nat → Nat → Bool} (small : c.toNat ≤ top) (hp : p ≠ 0) (type : m.ty ∈ types) (plain : m.sat = false)
    (unused : m.c = .zero) (zero : m.imm ≠ none → b = .v 0)
    (legal : ∀ x ∈ [(Use.src, a), (if m.imm = none then Use.src else Use.imm, b)],
      useOk i.g.window x.1 x.2 = true ∧ isQueue x.2 = false)
    (free : onBoard i.g [(Use.src, a), (if m.imm = none then Use.src else Use.imm, b)] = false)
    (settled : pendingS i.g (sCodes [(Use.src, a), (if m.imm = none then Use.src else Use.imm, b)]) = none) :
    laneCompare s types top c p a b cond = .next (i.past s (i.g.writeP p.toNat (activeLanes i m ||| zeroLanes i m)
      (trueLanes i m (LaneFn.pure fun _ x l => if cond c.toNat (x.a l) (x.b l) then 1 else 0)
        (plainSrcs i (.compare types) m a b (bImm 32 m))))) := by
  have takes : (Form.compare types).Takes m .imm .src .src .unused :=
    ⟨type, by simp [plain], rfl, rfl, rfl, rfl, rfl, rfl⟩
  have bUse : (Form.compare types).bUse m = if m.imm = none then Use.src else Use.imm := by
    cases h : m.imm <;> simp [Form.bUse, Form.compare, Form.regs, h]
  have fields : (Form.compare types).fields m .zero a b =
      [(.imm, .zero), (.src, a), (if m.imm = none then Use.src else Use.imm, b), (.unused, .zero)] := by
    rw [Form.fields, takes.d, takes.a, takes.c, bUse, unused]
  have mods : modsOk (.compare types) i.f.clause m (lowOf b) = true :=
    modsOk_of_takes takes common _ fun y prefixed => by
      simp [Form.compare, Form.regs, ImmUse.admits, zero (by simp [prefixed]), lowOf]
  obtain ⟨legalA, legalB, -⟩ := (List.forall_mem_cons.1 legal).imp_right List.forall_mem_cons.1
  have pops : popsOf [a, if (Form.compare types).bUse m = .imm then .zero else b, m.c] = [] := by
    refine popsOf_eq_nil (List.forall_mem_cons.2 ⟨legalA.2, List.forall_mem_cons.2 ⟨?_, by simp [unused, isQueue]⟩⟩)
    split
    · rfl
    · exact legalB.2
  have allowed : fieldTrap i.k i.g.window false ((Form.compare types).fields m .zero a b) = none := by
    refine fieldTrap_eq_none fun y mem => ?_
    rw [fields] at mem
    simp only [List.mem_cons, List.not_mem_nil, or_false] at mem
    obtain rfl | rfl | rfl | rfl := mem
    · exact ⟨rfl, rfl⟩
    · exact legalA
    · exact legalB
    · exact ⟨rfl, rfl⟩
  have held : boardHold i.g.board s i ((Form.compare types).fields m .zero a b) = none := by
    rw [fields]
    exact boardHold_eq_none (by simpa [onBoard, boardCodes] using free) (by simpa [sCodes] using settled)
  unfold laneCompare
  rw [withIssuing_eq hm.1, if_neg (not_or.2 ⟨Nat.not_lt.2 small, hp⟩),
    laneRun_of_runOnce hm mods allowed held (runOnce_pred s i _ m _ _ _ _ _ _ pops), updGroup_issuing hm.1]
  exact congrArg _ (finish_put _ (issuing_parts hm.1).2.2.1 hm.2.1)

end

/-- What stands for a register B that holds `x`: a PFXI, sign-extended, where there is one (04 R94). -/
def Mods.inPlaceOf (m : Mods) (x : Word) : Word := match m.imm with | none => x | some y => y.signExtend 32

/-- What a compare's sources hold, as words. -/
theorem plainSrcs_compare (i : Iss) (m : Mods) (types : List Nat) {a b : LReg} (ha : isQueue a = false)
    (hb : isQueue b = false) (l : Nat) :
    (plainSrcs i (.compare types) m a b (bImm 32 m)).a l = (readReg i.g i.f a l).toNat ∧
      (plainSrcs i (.compare types) m a b (bImm 32 m)).b l = (m.inPlaceOf (readReg i.g i.f b l)).toNat := by
  refine ⟨fieldVal_eq_readReg rfl ha l, ?_⟩
  unfold Mods.inPlaceOf
  cases prefixed : m.imm with
  | none =>
    have register : (Form.compare types).bUse m = .src := by simp [Form.bUse, Form.compare, Form.regs, prefixed]
    simp only [plainSrcs, register, reduceCtorEq, if_false]
    exact fieldVal_eq_readReg rfl hb l
  | some y =>
    have immediate : (Form.compare types).bUse m = .imm := by simp [Form.bUse, Form.compare, Form.regs, prefixed]
    simp only [plainSrcs, immediate, if_true]
    exact bImm_eq_signExtend 32 prefixed

/-- Settles O5, by the one repetition that a compare is. -/
theorem compareWordWritesItsPredicate : Obligations.CompareWordWritesItsPredicate := by
  unfold Obligations.CompareWordWritesItsPredicate
  intro s i m w c p a b f hm hw hp common plain unused type zero fs legal free settled
  obtain ⟨types, top, cond, same, small, holds, word, float⟩ := exec_compare s hw
  have accepted : m.ty ∈ types := by
    obtain type | ⟨type, is⟩ := type
    · exact type ▸ word
    · exact type ▸ float is
  refine ⟨_, same.trans (laneCompare_eq hm common small hp accepted plain unused zero legal free settled), fun l h => ?_⟩
  obtain ⟨va, vb⟩ := plainSrcs_compare i m types (legal (.src, a) (by simp [fs])).2
    (legal (if m.imm = none then Use.src else Use.imm, b) (by simp [fs])).2 l
  rw [getLsbD_written _ _ _ h, getLsbD_trueLanes i m _ (cond c.toNat) h, va, vb, holds, BitVec.getLsbD_or]
  change _ = if (activeLanes i m).getLsbD l = true then _ else _
  cases on : (activeLanes i m).getLsbD l with
  | true => rfl
  | false =>
    have zeroed : (zeroLanes i m).getLsbD l = true ↔ m.mz = true ∧ i.f.p0.getLsbD l = true := by
      rw [zeroLanes]
      cases m.mz with
      | false => simp
      | true => rw [if_pos rfl, BitVec.getLsbD_and, BitVec.getLsbD_not, on]; simp [h]
    simp only [Bool.false_and, Bool.false_or, zeroed, Bool.false_eq_true, if_false]

end Sys2Proof.Machine
end

section
/-! SUPPORT. A state in which REORDER leaves a register of its range as it was (05 R128, R130; 02 R36): a window of more
than 192 registers. -/

namespace Sys2Proof.Machine

/-- A group whose window is one register past the last V register that a field can name. Past it stands 5 in lane 0, and
KEY (O0) names lane 1 in lane 0. -/
def wideGroup : Group := { placedGroup 0 with window := 193, v := [(192 * 64, 5)], o := [(0, 1)] }

/-- That group, its fibre of 64 lanes issuing. -/
def wideState : State := { placeWord State.reset 0 with cur := some (0, 0), groups := [(0, wideGroup)] }

/-- Its issuing fibre. -/
def wideIss : Iss := { gid := 0, fid := 0, g := wideGroup, f := placedFibre 0, k := placedKernel, b := placedBlock }

theorem wideIss_modified : wideIss.modified wideState Mods.plain := by
  unfold Iss.modified Iss.quiet
  decide +kernel

/-- Register 192 of lane 1 after a meaning, in group 0. -/
def pastLast (o : Out) : Option Word :=
  match o with
  | .next t => (groupAt t 0).map fun g => g.readV 192 1
  | _ => none

theorem pastLast_put (g : Group) (f : Fibre) :
    pastLast (.next (wideIss.put wideState (wideIss.withFibre g f))) = some (g.readV 192 1) :=
  congrArg (Option.map fun h : Group => h.readV 192 1) (groupAt_put wideState wideIss (wideIss.withFibre g f))

/-- The inverse REORDER of V191 and the register past it writes nothing there. -/
theorem reorder_past_window : pastLast (exec (.reorder (.v 191) (.o 0) 1 1) wideState) = some 0 := by decide +kernel

/-- Refutes O6: no hypothesis bounds the window, and of a range that passes V191 the registers past it are not moved. In the
state above lane 1 should take the 5 that lane 0 holds there, and keeps 0. -/
theorem not_movementWordsMoveLanes : ¬ Obligations.MovementWordsMoveLanes := by
  unfold Obligations.MovementWordsMoveLanes
  rintro ⟨-, reorder, -⟩
  obtain ⟨g, ran, -, -, -, inverse⟩ := reorder wideState wideIss Mods.plain 191 (.o 0) 1 1 wideIss_modified
    (by decide) (by decide) (by decide) rfl rfl rfl rfl rfl (by decide) trivial (by decide +kernel)
  have moved : g.readV 192 1 = 5 := (inverse rfl 1 (by decide +kernel) 1 (by decide)).trans (by decide +kernel)
  have kept : g.readV 192 1 = 0 :=
    Option.some.inj ((pastLast_put ..).symm.trans ((congrArg pastLast ran).symm.trans reorder_past_window))
  exact absurd (moved.symm.trans kept) (by decide)

end Sys2Proof.Machine
end

section
/-! SUPPORT. Scalar, pair, predicate and lane-moving uniform words (06 R131 to R135, R145): a word whose check accepts its
fields and whose registers wait for nothing runs its action; the value that each row computes. -/

namespace Sys2Proof.Machine

/-! ## Words that nothing stops (06 R131) -/

theorem settled_of_subset {i : Iss} {ks ls : List Nat} (ready : i.settled ls) (sub : ks ⊆ ls) : i.settled ks :=
  fun k mem => ready k (sub mem)

section
variable {s : State} {i : Iss} (h : i.plain s)
include h

/-- A uniform word that nothing stops. -/
theorem uniform_runs {ok : Iss → Bool} {regs : List Nat} (act : Iss → State) (accepts : ok i = true) (ready : i.settled regs) :
    uniform s ok regs act = .next (act i) := uniform_eq h.1 act h.2.1 accepts ready

/-- A uniform word that names no S register. -/
theorem uniform_runs_free {ok : Iss → Bool} (act : Iss → State) (accepts : ok i = true) :
    uniform s ok [] act = .next (act i) := uniform_runs h act accepts (List.forall_mem_nil _)

/-- A scalar row over two S registers (06 R132). -/
theorem scalar2_row {d a b e : BitVec 6} {rs : List (BitVec 6)} {x : Word} {f : Nat → Nat → Nat} {F : Word → Word → Word}
    (computes : ∀ y z : Word, f y.toNat z.toNat % 2 ^ 32 = (F y z).toNat)
    (row : some ([d, a, b], d, F (i.g.readS a.toNat) (i.g.readS b.toNat)) = some (rs, e, x)) (ready : i.settled (fieldNums rs)) :
    scalar2 s d a b f = .next (i.past s (i.g.writeS e.toNat x)) := by
  cases row
  refine (uniform_runs h _ rfl ready).trans (congrArg _ ?_)
  rw [putS_eq h.1 h.2.2, BitVec.eq_of_toNat_eq ((BitVec.toNat_ofNat ..).trans (computes ..))]

/-- A scalar row over one S register (06 R132). -/
theorem scalar1_row {d a e : BitVec 6} {rs : List (BitVec 6)} {x : Word} {f : Nat → Nat} {F : Word → Word}
    (computes : ∀ y : Word, f y.toNat % 2 ^ 32 = (F y).toNat)
    (row : some ([d, a], d, F (i.g.readS a.toNat)) = some (rs, e, x)) (ready : i.settled (fieldNums rs)) :
    scalar1 s d a f = .next (i.past s (i.g.writeS e.toNat x)) := by
  cases row
  refine (uniform_runs h _ rfl ready).trans (congrArg _ ?_)
  rw [putS_eq h.1 h.2.2, BitVec.eq_of_toNat_eq ((BitVec.toNat_ofNat ..).trans (computes ..))]

/-- A uniform word that writes an S register, as its row says (06 R132, R133). -/
theorem uniform_putS {ok : Iss → Bool} {ns rs : List (BitVec 6)} {d e : BitVec 6} {v : Iss → Word} {x y : Word}
    (accepts : ok i = true) (value : v i = y) (row : some (ns, d, y) = some (rs, e, x)) (ready : i.settled (fieldNums rs)) :
    uniform s ok (fieldNums ns) (fun i => putS s i d (v i)) = .next (i.past s (i.g.writeS e.toNat x)) := by
  cases row
  rw [uniform_runs h _ accepts ready, value, putS_eq h.1 h.2.2]

end

/-! ## Scalar rows (06 R132, R133) -/

theorem difference_toNat (x y : Word) : (x.toNat + 2 ^ 32 - y.toNat) % 2 ^ 32 = (x - y).toNat := by
  rw [BitVec.toNat_sub]
  have := y.isLt
  congr 1
  omega

theorem mulHigh_toNat (u : BitVec 1) (x y : Word) :
    (if u = 1 then x.toNat * y.toNat / 2 ^ 32 else wrapTo 32 (toSigned 32 x.toNat * toSigned 32 y.toNat / (2 ^ 32 : Nat))) %
        2 ^ 32 =
      (if u = 1 then (x.zeroExtend 64 * y.zeroExtend 64).extractLsb' 32 32
        else (x.signExtend 64 * y.signExtend 64).extractLsb' 32 32).toNat := by
  split
  · exact mulHigh_unsigned x y
  · exact mulHigh_signed x y

theorem min_toNat (u : BitVec 1) (x y : Word) :
    (if u = 1 then min x.toNat y.toNat else if toSigned 32 y.toNat < toSigned 32 x.toNat then y.toNat else x.toNat) % 2 ^ 32 =
      (if scalarCondition (u = 1) 3 x y then x else y).toNat := by
  by_cases unsigned : u = 1
  · rw [if_pos unsigned, minUnsigned_toNat]
    simp only [scalarCondition, decide_eq_true unsigned, if_true]
  · rw [if_neg unsigned, minSigned_toNat]
    simp only [scalarCondition, decide_eq_false unsigned, Bool.false_eq_true, if_false]

theorem max_toNat (u : BitVec 1) (x y : Word) :
    (if u = 1 then max x.toNat y.toNat else if toSigned 32 x.toNat < toSigned 32 y.toNat then y.toNat else x.toNat) % 2 ^ 32 =
      (if scalarCondition (u = 1) 5 x y then x else y).toNat := by
  by_cases unsigned : u = 1
  · rw [if_pos unsigned, maxUnsigned_toNat]
    simp only [scalarCondition, decide_eq_true unsigned, if_true]
  · rw [if_neg unsigned, maxSigned_toNat]
    simp only [scalarCondition, decide_eq_false unsigned, Bool.false_eq_true, if_false]

/-- SCMP's condition, signed or unsigned (05 R116; 06 R132). -/
theorem scalarCondition_eq (u : BitVec 1) {c : Nat} (legal : c ≤ 5) (x y : Word) :
    (if u = 1 then condUnsigned c x.toNat y.toNat else condSigned c x.toNat y.toNat) = scalarCondition (u = 1) c x y := by
  split
  · rename_i unsigned
    rw [condUnsigned_eq legal, decide_eq_true unsigned]
  · rename_i signed
    rw [condSigned_eq legal, decide_eq_false signed]

/-- Counts of 32 and more shift every bit out (05 R114; 06 R132). -/
theorem shl_toNat (y : Word) (n : Nat) : shlWord y.toNat n % 2 ^ 32 = (if 32 ≤ n then 0 else y <<< n).toNat := by
  rw [shlWord_toNat, toNat_mod]

theorem shr_toNat (y : Word) (n : Nat) : shrWord y.toNat n % 2 ^ 32 = (if 32 ≤ n then 0 else y >>> n).toNat := by
  rw [shrWord_toNat, toNat_mod]

theorem sar_toNat (y : Word) (n : Nat) : sarWord y.toNat n % 2 ^ 32 = (y.sshiftRight (min n 32)).toNat := by
  rw [sarWord_toNat, toNat_mod]

/-- An FN count stays below 32. -/
theorem shlImm_toNat (n : BitVec 5) (y : Word) : shlWord y.toNat n.toNat % 2 ^ 32 = (y <<< n.toNat).toNat := by
  rw [shl_toNat, if_neg (Nat.not_le.2 n.isLt)]

theorem shrImm_toNat (n : BitVec 5) (y : Word) : shrWord y.toNat n.toNat % 2 ^ 32 = (y >>> n.toNat).toNat := by
  rw [shr_toNat, if_neg (Nat.not_le.2 n.isLt)]

theorem sarImm_toNat (n : BitVec 5) (y : Word) : sarWord y.toNat n.toNat % 2 ^ 32 = (y.sshiftRight n.toNat).toNat := by
  rw [sar_toNat, min_eq_left n.isLt.le]

/-- A scalar word writes its row's value (06 R132, R133). -/
theorem exec_scalarValue {s : State} {i : Iss} {w : Instr} {rs : List (BitVec 6)} {d : BitVec 6} {x : Word} (h : i.plain s)
    (row : scalarValue i w = some (rs, d, x)) (ready : i.settled (fieldNums rs)) :
    exec w s = .next (i.past s (i.g.writeS d.toNat x)) := by
  cases w with
  | sadd d a b => exact scalar2_row h (fun y z => (BitVec.toNat_add y z).symm) row ready
  | ssub d a b =>
    dsimp only [exec, execSsub]
    exact scalar2_row h difference_toNat row ready
  | smul d a b => exact scalar2_row h (fun y z => (BitVec.toNat_mul y z).symm) row ready
  | smulh d a b u =>
    dsimp only [exec, execSmulh]
    exact scalar2_row h (mulHigh_toNat u) row ready
  | sand d a b => exact scalar2_row h (fun y z => toNat_mod (y &&& z)) row ready
  | sor d a b => exact scalar2_row h (fun y z => toNat_mod (y ||| z)) row ready
  | sxor d a b => exact scalar2_row h (fun y z => toNat_mod (y ^^^ z)) row ready
  | sshl d a b => exact scalar2_row h (fun y z => shl_toNat y z.toNat) row ready
  | sshlImm d a n =>
    dsimp only [exec, execSshlImm]
    exact scalar1_row h (shlImm_toNat n) row ready
  | sshr d a b => exact scalar2_row h (fun y z => shr_toNat y z.toNat) row ready
  | sshrImm d a n =>
    dsimp only [exec, execSshrImm]
    exact scalar1_row h (shrImm_toNat n) row ready
  | ssar d a b => exact scalar2_row h (fun y z => sar_toNat y z.toNat) row ready
  | ssarImm d a n =>
    dsimp only [exec, execSsarImm]
    exact scalar1_row h (sarImm_toNat n) row ready
  | smin d a b u =>
    dsimp only [exec, execSmin]
    exact scalar2_row h (min_toNat u) row ready
  | smax d a b u =>
    dsimp only [exec, execSmax]
    exact scalar2_row h (max_toNat u) row ready
  | scmp d a b u c =>
    obtain ⟨legal, row⟩ := Option.ite_none_right_eq_some.1 row
    exact uniform_putS h (decide_eq_true legal) (by rw [scalarCondition_eq u legal]) row ready
  | ssel d a b c => exact uniform_putS h rfl (ite_not ..) row ready
  | spopc d a => exact scalar1_row h (f := popcWord) popcWord_toNat row ready
  | sclz d a => exact scalar1_row h (f := clzWord) clzWord_toNat row ready
  | smov d a => exact scalar1_row h (f := id) toNat_mod row ready
  | smovi | smovh | saddi =>
    cases row
    exact (uniform_runs h _ rfl ready).trans (congrArg _ (putS_eq h.1 h.2.2 ..))
  | _ => cases row

/-! ## Pairs and predicates (06 R132, R134, R145) -/

/-- The registers of a pair are among those that a row's fields and their successors name. -/
theorem pairRegs_subset {ks : List (BitVec 6)} {k : BitVec 6} (mem : k ∈ ks) :
    pairRegs k ⊆ fieldNums ks ++ (fieldNums ks).map (· + 1) := by
  have named : k.toNat ∈ fieldNums ks := List.mem_map_of_mem mem
  simp [pairRegs, named]

section
variable {s : State} {i : Iss} (h : i.plain s)
include h

/-- A uniform word that writes a pair of S registers. -/
theorem uniform_putPair {ok : Iss → Bool} {regs : List Nat} {d : BitVec 6} {v : Iss → DWord} (accepts : ok i = true)
    (ready : i.settled regs) :
    uniform s ok regs (fun i => putPair s i d (v i)) = .next (i.past s (i.g.writePair d.toNat (v i))) := by
  rw [uniform_runs h _ accepts ready, putPair_eq h.1 h.2.2]

/-- A 64-bit word writes its row's value (06 R132, R134, R145). -/
theorem exec_pairValue {w : Instr} {rs : List (BitVec 6)} {d : BitVec 6} {x : DWord} (row : pairValue s i w = some (rs, d, x))
    (even : ∀ k ∈ rs, k.toNat % 2 = 0) (ready : i.settled (fieldNums rs ++ (fieldNums rs).map (· + 1))) :
    exec w s = .next (i.past s (i.g.writePair d.toNat x)) := by
  have evenReg_of (k : BitVec 6) (mem : k ∈ rs) : evenReg k = true := decide_eq_true (even k mem)
  cases w with
  | sadd64 d a b =>
    cases row
    refine uniform_putPair h ?_ (settled_of_subset ready ?_)
    · simp [evenReg_of]
    · exact List.append_subset.2 ⟨List.append_subset.2 ⟨pairRegs_subset (by simp), pairRegs_subset (by simp)⟩,
        pairRegs_subset (by simp)⟩
  | sballotToS d p | rdtime d =>
    cases row
    exact uniform_putPair h (evenReg_of _ (by simp)) (settled_of_subset ready (pairRegs_subset (by simp)))
  | _ => cases row

/-- A predicate word's result, in the lanes of the fibre's P0 alone (02 R31, R41). -/
theorem predicate_runs {d : BitVec 3} {regs : List Nat} {ok : Bool} {f : Iss → Mask} (other : d ≠ 0) (accepts : ok = true)
    (ready : i.settled regs) :
    predicate s d regs ok f = .next (i.past s (i.g.writeP d.toNat i.f.p0 (f i))) := by
  rw [predicate, uniform_runs h _ (by rw [decide_eq_true other, accepts]; rfl) ready, updGroup_issuing h.1]
  exact congrArg _ (finish_put _ (issuing_parts h.1).2.2.1 h.2.2)

/-- A predicate word writes its row's value (06 R134). -/
theorem exec_predicateValue {w : Instr} {rs : List (BitVec 6)} {d : BitVec 3} {x : Mask}
    (row : predicateValue i w = some (rs, d, x)) (other : d ≠ 0) (even : ∀ k ∈ rs, k.toNat % 2 = 0)
    (ready : i.settled (fieldNums rs ++ (fieldNums rs).map (· + 1))) :
    exec w s = .next (i.past s (i.g.writeP d.toNat i.f.p0 x)) := by
  cases w with
  | sballot d a =>
    cases row
    exact predicate_runs h other (decide_eq_true (even a (by simp))) (settled_of_subset ready (pairRegs_subset (by simp)))
  | pand | por | pxor | pnot =>
    cases row
    exact predicate_runs h other rfl (List.forall_mem_nil _)
  | _ => cases row

end

/-! ## Lanes (06 R135) -/

theorem vregOk_of_ready {g : Group} {v : LReg} (free : laneRegReady g v) : vregOk g.window v = true := by
  cases v with
  | v k => exact decide_eq_true free.1
  | o k => rfl
  | _ => exact free.elim

/-- A register with no write to it in flight holds nothing up, read or written alone. -/
theorem onBoard_of_ready {g : Group} {v : LReg} (u : Use) (one : u.count = 1) (free : laneRegReady g v) :
    onBoard g [(u, v)] = false := by
  cases v with
  | v k => simpa [onBoard, boardCodes, one] using free.2
  | o k => simpa [onBoard, boardCodes, one, laneRegReady] using free
  | _ => exact free.elim

section
variable {s : State} {i : Iss} (h : i.plain s)
include h

/-- RDLANE reads a lane of a held quad, and 0 elsewhere. -/
theorem exec_rdlane {d a : BitVec 6} {v : LReg} (free : laneRegReady i.g v) (ready : i.settled (fieldNums [d, a])) :
    exec (.rdlane d a v) s = .next (i.past s (i.g.writeS d.toNat
      (if (i.g.readS a.toNat).toNat < i.g.width ∧ (i.g.held i.f.p0).getLsbD (i.g.readS a.toNat).toNat = true
        then readReg i.g i.f v (i.g.readS a.toNat).toNat else 0))) := by
  refine (uniform_runs h _ (vregOk_of_ready free) ready).trans (congrArg _ ?_)
  rw [onBoard_of_ready .src rfl free, if_neg Bool.false_ne_true]
  exact putS_eq h.1 h.2.2 ..

/-- WRLANE writes a lane of the fibre's P0, and nothing elsewhere. -/
theorem exec_wrlane {d a : BitVec 6} {v : LReg} (free : laneRegReady i.g v) (ready : i.settled (fieldNums [d, a])) :
    exec (.wrlane d a v) s = .next (i.past s
      (if (i.g.readS a.toNat).toNat < i.g.width ∧ i.f.p0.getLsbD (i.g.readS a.toNat).toNat = true
        then writeReg i.g v (i.g.readS a.toNat).toNat (i.g.readS d.toNat) else i.g)) := by
  refine (uniform_runs h _ (vregOk_of_ready free) ready).trans (congrArg _ ?_)
  rw [onBoard_of_ready .dst rfl free, if_neg Bool.false_ne_true]
  by_cases within : (i.g.readS a.toNat).toNat < i.g.width ∧ i.f.p0.getLsbD (i.g.readS a.toNat).toNat = true
  · have kept : Table.look (writeReg i.g v (i.g.readS a.toNat).toNat (i.g.readS d.toNat)).fibres i.fid = some i.f := by
      rw [sameButLanes_writeReg i.g v]
      exact (issuing_parts h.1).2.2.1
    rw [if_pos within]
    refine (if_pos within).trans ?_
    rw [updGroup_issuing h.1]
    exact finish_put _ kept h.2.2
  · rw [if_neg within]
    exact (if_neg within).trans (finish_issuing h.1 h.2.2)

end

/-- Settles O1, row by row: each word runs its action, and the action computes the row's value. -/
theorem uniformWordsWriteTheirResults : Obligations.UniformWordsWriteTheirResults := by
  unfold Obligations.UniformWordsWriteTheirResults
  exact ⟨fun _ _ _ _ _ _ h row ready => exec_scalarValue h row ready,
    fun _ _ _ _ _ _ h row even ready => exec_pairValue h row even ready,
    fun _ _ _ _ _ _ h row other even ready => exec_predicateValue h row other even ready,
    fun _ _ _ _ _ h free ready => exec_rdlane h free ready, fun _ _ _ _ _ h free ready => exec_wrlane h free ready⟩

end Sys2Proof.Machine
end

section
/-! SUPPORT. Branches, calls and returns (04 R82, R88; 06 R136 to R138): the fibre at another clause start, and which words
take it there. -/

namespace Sys2Proof.Machine

/-! ## Moving to a target (04 R82) -/

/-- The issuing fibre's record replaced twice is replaced once. -/
@[simp] theorem withFibre_withFibre (i : Iss) (g : Group) (x y : Fibre) :
    i.withFibre (i.withFibre g x) y = i.withFibre g y := by simp [Iss.withFibre]

@[simp] theorem look_withFibre (i : Iss) (g : Group) (x : Fibre) : Table.look (i.withFibre g x).fibres i.fid = some x :=
  Table.look_ins_same ..

/-- Where a branch takes the issuing fibre: a target with the return stack there, or past the word. -/
def Iss.branched (s : State) (i : Iss) (t : Option (DWord × List DWord)) : State :=
  t.elim (i.past s i.g) fun x => i.moved s x.1 x.2

section
variable {s : State} {i : Iss} (h : i.plain s)
include h

theorem goTo_eq (target : DWord) : goTo s i target = i.moved s target i.f.stack := by
  unfold goTo
  rw [updFibre_issuing h.1]
  exact stepTrap_quiet rfl rfl h.2.2

/-- The fibre moved with another return stack (06 R138). -/
theorem goTo_restacked (stack : Fibre → List DWord) (target : DWord) :
    goTo (updFibre s i.gid i.fid fun f => { f with stack := stack f }) i target = i.moved s target (stack i.f) := by
  unfold goTo
  rw [updFibre_issuing h.1, updFibre_put s i _ _ (look_withFibre ..), withFibre_withFibre]
  exact stepTrap_quiet rfl rfl h.2.2

/-- A choice between a target and the next word. -/
theorem goTo_or_finish (c : Prop) [Decidable c] (target : DWord) :
    (if c then goTo s i target else finish s i) = i.branched s (if c then some (target, i.f.stack) else none) := by
  split
  · exact goTo_eq h target
  · exact finish_issuing h.1 h.2.2

/-! ## The words (06 R136 to R138) -/

/-- A branch on a condition that the fields select. -/
theorem uniform_branches {ok : Iss → Bool} {regs : List Nat} {act : Iss → State} {c : Prop} [Decidable c] {target : DWord}
    (accepts : ok i = true) (ready : i.settled regs) (acts : act i = if c then goTo s i target else finish s i) :
    uniform s ok regs act = .next (i.branched s (if c then some (target, i.f.stack) else none)) := by
  rw [uniform_runs h act accepts ready, acts, goTo_or_finish h]

theorem execBra_branches {o : BitVec 24} {t : Option (DWord × List DWord)} (row : branchTo i (.bra o) = some t) :
    execBra o s = .next (i.branched s t) := by
  cases row
  exact (uniform_runs_free h _ rfl).trans (congrArg _ (goTo_eq h _))

theorem execBrc_branches {r : BitVec 6} {n : BitVec 2} {o : BitVec 16} {t : Option (DWord × List DWord)}
    (row : branchTo i (.brc r n o) = some t) (ready : i.settled [r.toNat]) :
    execBrc r n o s = .next (i.branched s t) := by
  cases row
  refine (uniform_branches h rfl ready rfl).trans ?_
  have sign : (i.g.readS r.toNat).slt 0 = (i.g.readS r.toNat).msb := BitVec.slt_zero_eq_msb
  rw [sign]
  generalize n.toNat = k
  match k with
  | 0 | 1 | 2 | _ + 3 => rfl

theorem execBrp_branches {p : BitVec 3} {n : BitVec 2} {o : BitVec 16} {t : Option (DWord × List DWord)}
    (row : branchTo i (.brp p n o) = some t) : execBrp p n o s = .next (i.branched s t) := by
  unfold execBrp
  refine (uniform_runs_free h _ rfl).trans (congrArg _ ?_)
  unfold branchTo at row
  dsimp only at row ⊢
  generalize n.toNat = k at row ⊢
  match k with
  | 0 =>
    by_cases whole : i.f.p0 &&& ~~~i.g.readP i.f.p0 p.toNat = 0
    · cases (if_pos whole).symm.trans row
      exact (if_pos whole).trans (goTo_eq h _)
    · obtain ⟨untaken, row⟩ := Option.ite_none_right_eq_some.1 ((if_neg whole).symm.trans row)
      cases row
      rw [if_neg whole, if_pos untaken]
      exact finish_issuing h.1 h.2.2
  | 1 | 2 | _ + 3 =>
    cases row
    simp only [decide_eq_true_eq]
    exact goTo_or_finish h ..

/-- CALL keeps the next word's address on a stack that has room (06 R138). -/
theorem execCall_branches {o : BitVec 24} {t : Option (DWord × List DWord)} (row : branchTo i (.call o) = some t) :
    execCall o s = .next (i.branched s t) := by
  obtain ⟨room, row⟩ := Option.ite_none_right_eq_some.1 row
  cases row
  exact (uniform_runs_free h _ (decide_eq_true room)).trans
    (congrArg _ (goTo_restacked h (fun f => (f.pc + 4) :: f.stack) _))

/-- RET takes the stack's top, where it does not return from a handler (06 R138). -/
theorem execRet_branches {t : Option (DWord × List DWord)} (row : branchTo i .ret = some t) :
    execRet s = .next (i.branched s t) := by
  unfold branchTo at row
  dsimp only at row
  obtain ⟨level, row⟩ := Option.ite_none_left_eq_some.1 row
  split at row
  · rename_i a rest top
    cases row
    refine (uniform_runs_free h _ (by simp [top])).trans (congrArg _ ?_)
    rw [if_neg level, top]
    exact goTo_restacked h (fun _ => rest) a
  · cases row

/-- Every branch word that does not divide its fibre (04 R88; 06 R136 to R138). -/
theorem exec_branchTo {w : Instr} {t : Option (DWord × List DWord)} (row : branchTo i w = some t)
    (ready : ∀ r n o, w = .brc r n o → i.settled [r.toNat]) : exec w s = .next (i.branched s t) := by
  cases w with
  | bra o => exact execBra_branches h row
  | brc r n o => exact execBrc_branches h row (ready r n o rfl)
  | brp p n o => exact execBrp_branches h row
  | call o => exact execCall_branches h row
  | ret => exact execRet_branches h row
  | _ => cases row

end

/-- Settles O2, word by word. -/
theorem branchMovesTheWholeFibre : Obligations.BranchMovesTheWholeFibre := by
  unfold Obligations.BranchMovesTheWholeFibre
  intro s i w t h row ready
  have ran := exec_branchTo h row ready
  cases t with
  | none => exact ran
  | some x => exact ran

end Sys2Proof.Machine
end

section
/-! SUPPORT. Commits of an empty region, and the division of a fibre (06 R137; 07 R155; 11 R240). -/

namespace Sys2Proof.Machine

/-! ## Commits with nothing buffered (11 R240) -/

theorem bufferConflict_empty (s : State) (ck ctx block : Nat) {f : Fibre} (empty : f.buffer = []) :
    bufferConflict s ck ctx block f = none := by
  unfold bufferConflict
  rw [empty]
  rfl

/-- The issuing fibre with its empty region committed, the rest of its group as it was. -/
def Iss.emptied (i : Iss) : Group := i.withFibre i.g i.f.recommitted

section
variable {s : State} {i : Iss} (h : issuing s = some i) (empty : i.f.buffer = [])
include h empty

/-- A commit of an empty region sends nothing. -/
theorem commitNow_empty : commitNow s i.gid i.fid = i.put s i.emptied := by
  obtain ⟨-, group, fibre, kernel, -⟩ := issuing_parts h
  simp only [commitNow, groupAt, kernelAt, group, fibre, kernel, empty, List.foldl_nil]
  exact updFibre_issuing h Fibre.recommitted

/-- A commit point with nothing buffered goes on. -/
theorem committing_empty (act : State → State) : committing s i act = act (i.put s i.emptied) := by
  simp only [committing, bufferConflict_empty _ _ _ _ empty, commitNow_empty h empty]

/-- An EXIT or FDONE to which no status is owed goes on (06 R140; 07 R156). -/
theorem lastWord_unowed (group : i.g.owed = []) (fibre : i.f.owed = []) (act : State → State) :
    lastWord s i act = act (i.put s i.emptied) := by
  have owes (m : BitVec 12) : takeOwed i.g i.f m = none := by simp [takeOwed, group, fibre]
  simp only [lastWord, owedTrap, owes, bufferConflict_empty _ _ _ _ empty, committing_empty h empty, ite_self]

end

/-- Passing a word in a state whose group is `g`, in which the word has changed the fibre's record (04 R82). -/
theorem finish_put_fibre {s : State} {i : Iss} (quiet : i.quiet s) {g : Group} {x : Fibre}
    (here : Table.look g.fibres i.fid = some x) (traps : x.traps = i.f.traps) :
    finish (i.put s g) i = i.put s (i.withFibre g (moveOn x (x.pc + 4))) := by
  unfold finish
  rw [updFibre_put s i g x here, raisePending_quiet (s := s) ?_ quiet]
  · exact stepTrap_quiet rfl rfl quiet
  · intro f moved
    rw [fibreAt_put] at moved
    cases moved
    exact traps

/-! ## Division (06 R137; 07 R155) -/

/-- The state with the writes on their way of the issuing fibre charged to its offspring too. -/
def Iss.charged (s : State) (i : Iss) : State :=
  { s with
      writes := s.writes.map fun e =>
        if e.2.gid = i.gid ∧ e.2.fibs.contains i.fid = true then (e.1, { e.2 with fibs := e.2.fibs ++ [i.g.nextFibre] })
        else e }

/-- The group with the offspring of a division, the issuing fibre keeping `rest`, and the O registers of both zero. -/
def Iss.parted (s : State) (i : Iss) (target : DWord) (taken rest : Mask) : Group :=
  (i.withFibre
    { i.emptied with
        fibres := Table.ins i.emptied.fibres i.g.nextFibre (i.offspring s target taken), nextFibre := i.g.nextFibre + 1 }
    { i.f.recommitted with p0 := rest }).clearO (taken ||| rest)

section
variable {s : State} {i : Iss} (h : issuing s = some i) (free : Table.look i.g.fibres i.g.nextFibre = none)
include h free

/-- A number that names no fibre of the group is not the issuing fibre's. -/
theorem nextFibre_ne : i.g.nextFibre ≠ i.fid := by
  intro same
  rw [same, (issuing_parts h).2.2.1] at free
  cases free

/-- What a division makes of the state in which the region is committed. -/
theorem divide_emptied (target : DWord) (taken rest : Mask) :
    divide (i.put s i.emptied) i target taken rest = i.put (i.charged s) (i.parted s target taken rest) := by
  have spawned : spawnFibre (i.put s i.emptied) i.gid i.fid i.f.recommitted (gtOf s i.g.die) target i.f.pc taken =
      i.put (i.charged s) { i.emptied with
        fibres := Table.ins i.emptied.fibres i.g.nextFibre (i.offspring s target taken), nextFibre := i.g.nextFibre + 1 } := by
    simp only [spawnFibre, groupAt_put, updGroup_put]
    rfl
  have kept : Table.look (Table.ins i.emptied.fibres i.g.nextFibre (i.offspring s target taken)) i.fid =
      some i.f.recommitted := by
    rw [Table.look_ins_other _ _ (nextFibre_ne h free)]
    exact look_withFibre ..
  unfold divide
  rw [show fibreAt (i.put s i.emptied) i.gid i.fid = some i.f.recommitted from fibreAt_put ..]
  dsimp only
  rw [show gtOf (i.put s i.emptied) i.g.die = gtOf s i.g.die from rfl, spawned, updFibre_put _ i _ _ kept, updGroup_put]
  rfl

/-- A division whose parts make up the fibre's lanes, the issuing fibre being `x` afterwards. -/
theorem divided_parted (target : DWord) {taken rest : Mask} (whole : taken ||| rest = i.f.p0) (x : Fibre) :
    i.divided s target taken x (i.put (i.charged s) (i.withFibre (i.parted s target taken rest) x)) := by
  refine ⟨_, rfl, ?_, ?_, look_withFibre .., ?_⟩
  · simp only [Iss.withFibre, Iss.parted, Group.clearO, Iss.emptied, whole]
    rfl
  · simp [Iss.withFibre, Iss.parted, Group.clearO, Iss.emptied, Table.look_ins, (nextFibre_ne h free).symm]
  · intro y next own
    simp [Iss.withFibre, Iss.parted, Group.clearO, Iss.emptied, Table.look_ins, next.symm, own.symm]

end

/-- The two sides of a split make up the fibre's lanes. -/
theorem split_union (i : Iss) (p : BitVec 3) : (i.split p).1 ||| (i.split p).2 = i.f.p0 := by
  ext j
  simp only [Iss.split, BitVec.getElem_or, BitVec.getElem_and, BitVec.getElem_not]
  cases (i.g.readP i.f.p0 p.toNat)[j] <;> simp

section
variable {s : State} {i : Iss} (h : i.plain s) (empty : i.f.buffer = [])
  (free : Table.look i.g.fibres i.g.nextFibre = none)
include h empty free

/-- The issuing fibre keeps the rest and falls through. -/
theorem dividing_finish (target : DWord) (p : BitVec 3) :
    i.divided s target (i.split p).1 (Fibre.recommitted { i.passed with p0 := (i.split p).2 })
      (committing s i fun s => finish (divide s i target (i.split p).1 (i.split p).2) i) := by
  have kept : Table.look (i.parted s target (i.split p).1 (i.split p).2).fibres i.fid =
      some { i.f.recommitted with p0 := (i.split p).2 } := look_withFibre ..
  rw [committing_empty h.1 empty, divide_emptied h.1 free, finish_put_fibre (s := i.charged s) h.2.2 kept rfl]
  have moved : moveOn { i.f.recommitted with p0 := (i.split p).2 } (i.f.pc + 4) =
      Fibre.recommitted { i.passed with p0 := (i.split p).2 } := by
    rw [← moveOn_passed]
    rfl
  exact moved ▸ divided_parted h.1 free target (split_union i p) _

/-- The issuing fibre ends where a fork leaves it no lane (07 R155). -/
theorem dividing_end (target : DWord) (p : BitVec 3) :
    i.divided s target (i.split p).1 (Fibre.gone { i.f.recommitted with p0 := (i.split p).2 })
      (committing s i fun s => endFibre (divide s i target (i.split p).1 (i.split p).2) i.gid i.fid) := by
  have kept : Table.look (i.parted s target (i.split p).1 (i.split p).2).fibres i.fid =
      some { i.f.recommitted with p0 := (i.split p).2 } := look_withFibre ..
  rw [committing_empty h.1 empty, divide_emptied h.1 free, endFibre, updFibre_put _ i _ _ kept]
  exact divided_parted h.1 free target (split_union i p) _

end

section
variable {s : State} {i : Iss} (h : i.plain s)
include h

/-- BRP SPLIT with lanes on both sides (06 R137). -/
theorem exec_brp_split {p : BitVec 3} {o : BitVec 16} (taken : (i.split p).1 ≠ 0) (rest : (i.split p).2 ≠ 0) :
    exec (.brp p 0 o) s = .next (committing s i fun s =>
      finish (divide s i (i.f.pc + 4 * o.signExtend 64) (i.split p).1 (i.split p).2) i) := by
  refine (uniform_runs_free h _ rfl).trans (congrArg _ ?_)
  exact (if_neg rest).trans (if_neg taken)

/-- FORK with a lane taken and a lane left (07 R155). -/
theorem exec_fork_divides {p : BitVec 3} {o : BitVec 16} (taken : (i.split p).1 ≠ 0) (rest : (i.split p).2 ≠ 0) :
    exec (.fork p o) s = .next (committing s i fun s =>
      finish (divide s i (i.f.pc + 4 * o.signExtend 64) (i.split p).1 (i.split p).2) i) := by
  refine (uniform_runs_free h _ rfl).trans (congrArg _ ((if_neg taken).trans ?_))
  exact congrArg _ (funext fun _ => if_neg rest)

/-- FORK with every lane taken (07 R155). -/
theorem exec_fork_ends {p : BitVec 3} {o : BitVec 16} (taken : (i.split p).1 ≠ 0) (rest : (i.split p).2 = 0) :
    exec (.fork p o) s = .next (committing s i fun s =>
      endFibre (divide s i (i.f.pc + 4 * o.signExtend 64) (i.split p).1 (i.split p).2) i.gid i.fid) := by
  refine (uniform_runs_free h _ rfl).trans (congrArg _ ((if_neg taken).trans ?_))
  exact congrArg _ (funext fun _ => if_pos rest)

/-- FORK with no lane taken (07 R155). -/
theorem exec_fork_untaken {p : BitVec 3} {o : BitVec 16} (untaken : (i.split p).1 = 0) :
    exec (.fork p o) s = .next (i.past s i.g) :=
  (uniform_runs_free h _ rfl).trans (congrArg _ ((if_pos untaken).trans (finish_issuing h.1 h.2.2)))

end

/-- Settles O8: each word commits, divides, and passes its word or ends. -/
theorem divisionAndForkDivideTheFibre : Obligations.DivisionAndForkDivideTheFibre := by
  unfold Obligations.DivisionAndForkDivideTheFibre
  refine ⟨fun s i p o h empty free taken => ⟨fun rest => ?_, fun rest => ?_, fun rest => ?_⟩,
    fun s i p o h untaken => exec_fork_untaken h untaken⟩
  · exact ⟨_, exec_brp_split h taken rest, dividing_finish h empty free ..⟩
  · exact ⟨_, exec_fork_divides h taken rest, dividing_finish h empty free ..⟩
  · exact ⟨_, _, exec_fork_ends h taken rest, dividing_end h empty free .., rfl, rfl⟩

end Sys2Proof.Machine
end

section
/-! SUPPORT. Ends, parkings and joins of fibres (06 R140; 07 R156, R157). -/

namespace Sys2Proof.Machine

/-! ## Ending and parking (06 R140; 07 R156, R157) -/

theorem recommitted_of_empty {f : Fibre} (empty : f.buffer = []) : f.recommitted = { f with fresh := true } := by
  unfold Fibre.recommitted
  rw [← empty]

section
variable {s : State} {i : Iss} (h : issuing s = some i) (alone : i.f.chain = none) (empty : i.f.buffer = [])
include h alone empty

/-- EXIT ends the fibre where no status is owed. -/
theorem exec_exit (group : i.g.owed = []) (fibre : i.f.owed = []) :
    exec .exit s = .next (resettle (i.put s (i.withFibre i.g i.gone)) i.gid) := by
  refine (uniform_eq h _ alone rfl (List.forall_mem_nil _)).trans (congrArg _ ?_)
  rw [lastWord_unowed h empty group fibre, exitFibre, endFibre, Iss.emptied, updFibre_put s i _ _ (look_withFibre ..),
    withFibre_withFibre]
  rfl

/-- FDONE parks the fibre past its word, its lanes live, where no status is owed. -/
theorem exec_fdone (group : i.g.owed = []) (fibre : i.f.owed = []) :
    exec .fdone s = .next (resettle (i.put s (i.withFibre i.g
      { i.f with state := .doneParked, pc := i.f.pc + 4, clause := none, fresh := true, readySince := none, due := false }))
      i.gid) := by
  refine (uniform_eq h _ alone rfl (List.forall_mem_nil _)).trans (congrArg _ ?_)
  rw [lastWord_unowed h empty group fibre, Iss.emptied, updFibre_put s i _ _ (look_withFibre ..), withFibre_withFibre,
    recommitted_of_empty empty]

/-- JOIN parks the fibre with the live lanes of Pn. -/
theorem exec_join (p : BitVec 3) :
    exec (.join p) s = .next (resettle (i.put s (i.withFibre i.g
      { i.f with
          state := .joinParked (i.g.readP i.f.p0 p.toNat &&& liveLanes i.g), fresh := true, readySince := none, due := false }))
      i.gid) := by
  refine (uniform_eq h _ alone rfl (List.forall_mem_nil _)).trans (congrArg _ ?_)
  rw [committing_empty h empty, Iss.emptied]
  dsimp only
  rw [updFibre_put s i _ _ (look_withFibre ..), withFibre_withFibre, recommitted_of_empty empty]
  rfl

end

/-! ## A join that needs no other fibre (07 R157) -/

/-- Nothing is handed over where no fibre gives way. -/
theorem rebindFibre_nil (s : State) (gid new : Nat) : rebindFibre s gid [] new = s := by
  simp [rebindFibre]

/-- A fibre that a join at its address lets go on by itself. -/
def Fibre.joined (f : Fibre) (gt : Nat) : Fibre :=
  readyFibre gt
    { f with pc := f.pc + 4, clause := none, chain := none, branch := none, fresh := true, wct := mergeWct [f] }

/-- A group whose one fibre goes on past its join, the O registers of its lanes zero. -/
def Group.joined (g : Group) (fid : Nat) (f : Fibre) (gt : Nat) : Group :=
  { g with fibres := [(fid, f.joined gt)] }.clearO f.p0

/-- The join of a group's one fibre completes, and the STEP trap of the fibre that goes on is considered. -/
theorem settleJoin_alone {t u : State} {gid fid : Nat} {g : Group} {f : Fibre} {need : Mask} {j : Iss}
    (here : groupAt t gid = some g) (parked : f.state = .joinParked need) (alone : g.fibres = [(fid, f)])
    (after : setGroup t gid (g.joined fid f (gtOf t g.die)) = u) (resumed : issuing { u with cur := some (gid, fid) } = some j) :
    settleJoin t gid f.pc = stepTrap u j := by
  subst after
  have covered : need &&& f.p0 &&& ~~~f.p0 = 0#64 := by
    rw [BitVec.and_assoc, BitVec.and_not_self]
    exact BitVec.and_zero
  unfold settleJoin
  simp only [here, alone, parked, sortBy, insertBy, rebindFibre_nil, Group.live, covered, decide_true, Bool.and_self,
    List.filter_cons_of_pos, List.filter_nil, List.foldr_cons, List.foldr_nil, List.foldl_cons, List.foldl_nil,
    BitVec.ofNat_eq_ofNat, BitVec.zero_or, BitVec.or_zero, BitVec.and_zero, reduceCtorEq, ↓reduceIte, decide_false,
    Bool.false_eq_true, not_false_eq_true, List.filter_cons_of_neg, ne_eq, not_true_eq_false, List.append_nil, List.map_cons,
    List.map_nil, List.flatMap_nil, List.any_nil, and_false]
  split
  · rename_i k issued
    cases resumed.symm.trans issued
    rfl
  · rename_i issued
    cases resumed.symm.trans issued

/-- The O registers of lanes that are cleared read zero (02 R38). -/
theorem readO_clearO (g : Group) {m : Mask} {l : Nat} (k : Nat) (small : l < 64) (lane : m.getLsbD l = true) :
    (g.clearO m).readO k l = 0 := by
  have absent : ∀ t : Table Word, Table.look (t.filter fun e => !Mask.has m (e.1 % 64)) (k * 64 + l) = none := by
    intro t
    induction t with
    | nil => rfl
    | cons e t ih =>
      rw [List.filter_cons]
      split
      · rename_i kept
        rw [Table.look_cons, if_neg, ih]
        intro same
        simp [same, Mask.has, Nat.mod_eq_of_lt small, lane] at kept
      · exact ih
  simp [Group.readO, Group.clearO, Table.rd, Table.sel, absent]

/-- Where the join of a group's one fibre completes, the kernel has no barrier and no trap follows, nothing else is evaluated. -/
theorem resettle_alone {t u : State} {gid fid : Nat} {g : Group} {f : Fibre} {need : Mask} {j : Iss}
    (here : groupAt t gid = some g) (parked : f.state = .joinParked need) (alone : g.fibres = [(fid, f)])
    (after : setGroup t gid (g.joined fid f (gtOf t g.die)) = u) (resumed : issuing { u with cur := some (gid, fid) } = some j)
    (untrapped : stepTrap u j = u) (unbarred : u.barriers = []) : resettle t gid = u := by
  have settled : settleJoin t gid f.pc = u := (settleJoin_alone here parked alone after resumed).trans untrapped
  unfold resettle
  simp only [here, alone, parked, List.filterMap_cons, List.filterMap_nil, dedup, List.filter_nil, List.foldl_cons,
    List.foldl_nil, settled, settleBarriers, unbarred]

/-- The record of a fibre alone in its group that its JOIN parks. -/
def Iss.parked (i : Iss) (p : BitVec 3) : Fibre :=
  { i.f with
      state := .joinParked (i.g.readP i.f.p0 p.toNat &&& liveLanes i.g), fresh := true, readySince := none, due := false }

/-- Its group once its JOIN has let it go on. -/
def Iss.rejoined (s : State) (i : Iss) (p : BitVec 3) : Group :=
  (i.withFibre i.g (i.parked p)).joined i.fid (i.parked p) (gtOf s i.g.die)

/-- A fibre alone in its group goes on from its JOIN at once. -/
theorem exec_join_alone {s : State} {i : Iss} (p : BitVec 3) (h : issuing s = some i) (chain : i.f.chain = none)
    (empty : i.f.buffer = []) (lone : i.g.fibres = [(i.fid, i.f)]) (unbarred : s.barriers = []) (quiet : i.quiet s) :
    exec (.join p) s = .next (i.put s (i.rejoined s p)) := by
  have alone : (i.withFibre i.g (i.parked p)).fibres = [(i.fid, i.parked p)] := by simp [Iss.withFibre, lone, Table.ins]
  have named : { i.put s (i.rejoined s p) with cur := some (i.gid, i.fid) } = i.put s (i.rejoined s p) := by
    rw [← (issuing_parts h).1]
    rfl
  have resumed := issuing_put h (i.rejoined s p) ((i.parked p).joined (gtOf s i.g.die)) rfl rfl (if_pos rfl)
  rw [exec_join h chain empty p]
  refine congrArg _ (resettle_alone (groupAt_put ..) rfl alone (put_put ..) ((congrArg _ named).trans resumed) ?_ unbarred)
  exact stepTrap_quiet (s := s) rfl rfl ⟨quiet.1, fun amid => absurd amid Bool.false_ne_true⟩

/-- Settles O11: the words park or end the fibre with its region committed, and a lone join goes on. -/
theorem fibreEndsParksOrJoins : Obligations.FibreEndsParksOrJoins := by
  unfold Obligations.FibreEndsParksOrJoins
  refine ⟨fun s i h chain empty => ⟨fun group fibre => exec_exit h chain empty group fibre,
    fun group fibre => exec_fdone h chain empty group fibre, fun p => exec_join h chain empty p⟩, ?_⟩
  intro s i p h chain empty lone _ _ unbarred quiet
  refine ⟨_, _, _, exec_join_alone p h chain empty lone unbarred quiet, Table.look_ins_same .., rfl, rfl, rfl, rfl, rfl, rfl,
    rfl, rfl, rfl, rfl, fun k l small lane => readO_clearO _ k small lane⟩

end Sys2Proof.Machine
end

section
/-! SUPPORT. RNG (06 R147). -/

namespace Sys2Proof.Machine

/-- A source whose health test has failed delivers nothing. -/
theorem sourceHealthy_of_fail {s : State} {d c : Nat} {x : Die} (here : dieAt s d = some x)
    (fails : ∃ e ∈ x.healthFail, e.1 = c) : sourceHealthy s d c = false := by
  simpa [sourceHealthy, here] using fails

/-- A live group draws nothing from a source that delivers nothing. -/
theorem drawValues_unhealthy {s : State} {k : Kernel} {g : Group} (live : noiseMode k = 0)
    (unhealthy : sourceHealthy s g.die g.core = false) (n : Nat) : drawValues s k g (n + 1) = none := by
  simp [drawValues, drawAny, live, unhealthy]

/-- Two draws make one word, the first in its high half. -/
theorem ofNat_halves (x y : BitVec 16) : BitVec.ofNat 32 (x.toNat * 65536 + y.toNat) = x ++ y := by
  refine BitVec.eq_of_toNat_eq ?_
  rw [BitVec.toNat_ofNat, BitVec.toNat_append, ← Nat.shiftLeft_add_eq_or_of_lt y.isLt, Nat.shiftLeft_eq]
  have := x.isLt
  have := y.isLt
  omega

section
variable {s : State} {i : Iss} {x : Die} (h : i.plain s) (live : noiseMode i.k = 0) (here : dieAt s i.g.die = some x)
  {d : BitVec 6} (ready : i.settled [d.toNat])
include h live here ready

/-- RNG with a source that delivers. -/
theorem exec_rng (owed : drawsOwed i.g = false) (passes : ∀ e ∈ x.healthFail, e.1 ≠ i.g.core) :
    exec (.rng d) s = .next (i.past { s with draws := s.draws + 2 }
      (i.g.writeS d.toNat (Config.noise s.draws ++ Config.noise (s.draws + 1)))) := by
  have drawn := drawValues_live live owed (sourceHealthy_of_dieAt here passes) 2
  refine (uniform_runs h _ rfl ready).trans (congrArg _ ?_)
  dsimp only
  rw [openReplay_live live, drawn, commitDraws_live h.1 live]
  dsimp only
  rw [getD_sourceDraws s (by decide), getD_sourceDraws s (by decide), ofNat_halves]
  exact putS_eq (s := s.afterDraws 2) h.1 h.2.2 ..

/-- RNG held by a failed health test. -/
theorem exec_rng_held (fails : ∃ e ∈ x.healthFail, e.1 = i.g.core) :
    exec (.rng d) s = .next (i.put s (i.withFibre i.g
      { i.f with state := .waiting (.noise 2), readySince := none, due := false })) := by
  refine (uniform_runs h _ rfl ready).trans (congrArg _ ?_)
  dsimp only
  rw [openReplay_live live, drawValues_unhealthy live (sourceHealthy_of_fail here fails)]
  exact updFibre_issuing h.1 _

end

/-- Settles O15, by what a live source delivers. -/
theorem rngMakesTwoDraws : Obligations.RngMakesTwoDraws := by
  unfold Obligations.RngMakesTwoDraws
  exact fun s i x d h ready live owed here => ⟨exec_rng h live here ready owed, exec_rng_held h live here ready⟩

end Sys2Proof.Machine
end

section
/-! SUPPORT. CSTART, CARM, CQUERY and LAUNCH (06 R148; 20 R415 to R417). -/

namespace Sys2Proof.Machine

/-! ## Words that release first (09 R197) -/

theorem releasePending_emptied {s : State} {i : Iss} (h : issuing s = some i) (sc : Nat) :
    releasePending (i.put s i.emptied) i.gid i.fid sc = releasePending s i.gid i.fid sc := by
  obtain ⟨-, group, fibre, -, -⟩ := issuing_parts h
  have before : groupAt s i.gid = some i.g := group
  simp only [releasePending, groupAt_put, before, fibre, Iss.emptied, look_withFibre]
  rfl

/-- A release with nothing buffered and nothing outstanding goes on. -/
theorem releasing_met {s : State} {i : Iss} {sc : Nat} (h : issuing s = some i) (empty : i.f.buffer = [])
    (met : releasePending s i.gid i.fid sc = false) (act : State → State) :
    releasing s i sc act = act (i.put s i.emptied) := by
  rw [releasing, committing_empty h empty]
  exact if_neg (by simp [releasePending_emptied h, met])

/-- The word passed, its region's commit before it, whatever else it has changed of the group. -/
theorem finish_emptied {t : State} {i : Iss} (quiet : i.quiet t) (empty : i.f.buffer = []) (g : Group) :
    finish (i.put t (i.withFibre g i.f.recommitted)) i = i.put t (i.withFibre g i.passedFresh) := by
  have passed : moveOn i.f.recommitted (i.f.pc + 4) = i.passedFresh := by
    rw [recommitted_of_empty empty, Iss.passedFresh, ← moveOn_passed]
    rfl
  rw [finish_put_fibre quiet (look_withFibre i g i.f.recommitted) rfl, withFibre_withFibre]
  exact congrArg (fun f => i.put t (i.withFibre g f)) passed

/-! ## Words that hand a command over with a token and a flag (11 R254; 02 R44) -/

/-- The group with register `d` waiting for command `n`, and the flag raised that the command names. -/
def Iss.commanded (i : Iss) (f : BitVec 4) (d : BitVec 6) (n : Nat) : Group :=
  { (if f = 0 then i.g else i.counted f.toNat) with tokens := Table.ins i.g.tokens d.toNat n }

theorem flagUp_put (t : State) (i : Iss) (g : Group) (f : BitVec 4) : flagUp (i.put t g) i.gid f.toNat =
    i.put t (if f = 0 then g else { g with flags := Table.wr g.flags 0 f.toNat (g.flag f.toNat + 1) }) := by
  have zero : f.toNat = 0 ↔ f = 0 := BitVec.toNat_inj (y := 0)
  unfold flagUp
  by_cases none_ : f = 0
  · rw [if_pos (zero.2 none_), if_pos none_]
  · rw [if_neg (mt zero.1 none_), if_neg none_, updGroup_put]

/-- The token and the flag of a command, and the word passed. -/
theorem finish_commanded {t : State} {i : Iss} (quiet : i.quiet t) (empty : i.f.buffer = []) (f : BitVec 4) (d : BitVec 6)
    (n : Nat) :
    finish (flagUp (updGroup (i.put t i.emptied) i.gid fun g => { g with tokens := Table.ins g.tokens d.toNat n }) i.gid
      f.toNat) i = i.put t (i.withFibre (i.commanded f d n) i.passedFresh) := by
  have raised : flagUp (updGroup (i.put t i.emptied) i.gid fun g => { g with tokens := Table.ins g.tokens d.toNat n }) i.gid
      f.toNat = i.put t (i.withFibre (i.commanded f d n) i.f.recommitted) := by
    rw [updGroup_put, flagUp_put]
    unfold Iss.commanded
    split <;> rfl
  rw [raised, finish_emptied quiet empty]

/-! ## The words (06 R148; 20 R415 to R417) -/

/-- The state with CSTART's command at the end of its die's queue (20 R415). -/
def Iss.cstarted (s : State) (i : Iss) (d a : BitVec 6) (f : BitVec 4) : State :=
  { s with
      cqueue := Table.ins s.cqueue s.nextId
        { die := i.g.die, ctx := i.k.ctx, va := (i.g.readPair a.toNat).toNat, gid := i.gid, fib := i.fid, flag := f.toNat
          token := d.toNat, dens := i.k.sample 0x022, held := false, desc := none, prog := none }
      nextId := s.nextId + 1 }

/-- The state with LAUNCH's packet at the command processor (06 R148). -/
def Iss.launched (s : State) (i : Iss) (d a b : BitVec 6) (f : BitVec 4) : State :=
  { s with
      launches := Table.ins s.launches s.nextId
        { ident := groupIdent i.g, gid := i.gid, fib := i.fid, ctx := i.k.ctx, va := (i.g.readPair a.toNat).toNat
          queue := (i.g.readS b.toNat).toNat, reg := d.toNat, flag := f.toNat }
      nextId := s.nextId + 1 }

section
variable {s : State} {i : Iss} (h : i.plain s) {d a b : BitVec 6}
include h

/-- CQUERY waits for its answer (20 R417). -/
theorem queryWait_waits (nc : Option Nat) (ready : i.settled [a.toNat, d.toNat]) :
    queryWait d a nc s = .next (i.waits s (.cquery ((i.g.readS a.toNat).toNat % 16) nc d.toNat)) :=
  (uniform_runs h _ rfl ready).trans (congrArg _ (updFibre_issuing h.1 _))

variable (empty : i.f.buffer = []) (met : releasePending s i.gid i.fid 4 = false)
include empty met

/-- CSTART queues its command where its die's queue has room (20 R415). -/
theorem exec_cstart {f : BitVec 4} (ready : i.settled (pairRegs a ++ [d.toNat])) (even : a.toNat % 2 = 0) (room : i.flagRoom f)
    (unheld : ∀ e ∈ s.cqueue, e.2.gid = i.gid → e.2.fib = i.fid → e.2.held = false)
    (short : (s.cqueue.filter fun e => e.2.die = i.g.die && decide (e.1 < s.nextId)).length < 64) :
    exec (.cstart d a f) s = .next (i.put (i.cstarted s d a f) (i.withFibre (i.commanded f d s.nextId) i.passedFresh)) := by
  have first : (issuing s).bind (fun i => (s.cqueue.find? fun e =>
      e.2.gid = i.gid && e.2.fib = i.fid && e.2.held).map fun e => (i, e.1, e.2)) = none := by
    have absent : s.cqueue.find? (fun e => e.2.gid = i.gid && e.2.fib = i.fid && e.2.held) = none :=
      List.find?_eq_none.2 fun e mem => by simpa using unheld e mem
    rw [h.1, Option.bind_some, absent, Option.map_none]
  obtain ⟨low, high, space⟩ := room
  have accepts : (evenReg a && flagField f) = true := by simp [evenReg, flagField, even, low, high]
  dsimp only [exec, execCstart]
  rw [first]
  refine (uniform_runs h _ accepts ready).trans (congrArg _ ?_)
  have below : ¬127 ≤ i.g.flag f.toNat := Nat.not_le.2 space
  rw [countedOn, if_neg below, releasing_met h.1 empty met]
  have notFull : decide (64 ≤ queuePlace (freshId (i.put s i.emptied)).2 i.g.die (freshId (i.put s i.emptied)).1) = false :=
    decide_eq_false (Nat.not_le.2 short)
  rw [notFull]
  exact finish_commanded (t := i.cstarted s d a f) h.2.2 empty f d s.nextId

/-- CARM raises its counter where its slot runs on the die (20 R416). -/
theorem exec_carm {n : BitVec 4} (ready : i.settled [a.toNat, b.toNat]) {x : CInst}
    (running : runningOn s (i.k.ctx * 16 + (i.g.readS a.toNat).toNat % 16) i.g.die = some x) :
    exec (.carm a b n) s = .next (i.put
      (updInst s (i.k.ctx * 16 + (i.g.readS a.toNat).toNat % 16) x.rank fun x =>
        raiseCounter x n.toNat (i.g.readS b.toNat).toNat)
      (i.withFibre i.g i.passedFresh)) := by
  have here : runningOn (i.put s i.emptied) (i.k.ctx * 16 + (i.g.readS a.toNat).toNat % 16) i.g.die = some x := running
  refine (uniform_runs h _ rfl ready).trans (congrArg _ ?_)
  rw [releasing_met h.1 empty met]
  dsimp only
  rw [here]
  exact finish_emptied (t := updInst s _ _ _) h.2.2 empty i.g

/-- CARM passes where no slot runs (20 R416). -/
theorem exec_carm_idle {n : BitVec 4} (ready : i.settled [a.toNat, b.toNat])
    (idle : runningOn s (i.k.ctx * 16 + (i.g.readS a.toNat).toNat % 16) i.g.die = none) :
    exec (.carm a b n) s = .next (i.put s (i.withFibre i.g i.passedFresh)) := by
  have here : runningOn (i.put s i.emptied) (i.k.ctx * 16 + (i.g.readS a.toNat).toNat % 16) i.g.die = none := idle
  refine (uniform_runs h _ rfl ready).trans (congrArg _ ?_)
  rw [releasing_met h.1 empty met]
  dsimp only
  rw [here]
  exact finish_emptied h.2.2 empty i.g

/-- LAUNCH hands its packet to the command processor (06 R148). -/
theorem exec_launch {f : BitVec 4} (ready : i.settled (pairRegs a ++ [b.toNat, d.toNat])) (even : a.toNat % 2 = 0)
    (small : f.toNat ≤ 12) (space : f ≠ 0 → Table.rd i.g.flags 0 f.toNat < 127)
    (aligned : (i.g.readPair a.toNat).toNat % 64 = 0) :
    exec (.launch d a b f) s = .next
      (i.put (i.launched s d a b f) (i.withFibre (i.commanded f d s.nextId) i.passedFresh)) := by
  have accepts : (decide (f.toNat ≤ 12) && evenReg a) = true := by simp [evenReg, even, small]
  have uncounted : ¬(f ≠ 0 ∧ 127 ≤ i.g.flag f.toNat) := fun full => Nat.not_le.2 (space full.1) full.2
  refine (uniform_runs h _ accepts ready).trans (congrArg _ ?_)
  dsimp only
  rw [if_neg (not_not.2 aligned), if_neg uncounted, releasing_met h.1 empty met]
  exact finish_commanded (t := i.launched s d a b f) h.2.2 empty f d s.nextId

end

/-- Settles O28, word by word: each releases, enters its command with its token and flag, and passes its word. -/
theorem commandWordsAreHandedOver : Obligations.CommandWordsAreHandedOver := by
  unfold Obligations.CommandWordsAreHandedOver
  intro s i d a b f n h empty ready
  have given (ks : List Nat) (sub : ks ⊆ [a.toNat, a.toNat + 1, b.toNat, d.toNat]) : i.settled ks := settled_of_subset ready sub
  refine ⟨fun met => ⟨?_, ⟨?_, ?_⟩, ?_⟩, ?_, ?_⟩
  · intro even room unheld short
    have numbered : f ≠ 0 := fun zero => absurd room.1 (by simp [zero])
    have ran := exec_cstart h empty met (d := d) (given _ (by simp [pairRegs])) even room unheld short
    rwa [Iss.commanded, if_neg numbered] at ran
  · exact fun x running => exec_carm h empty met (given _ (by simp)) running
  · exact fun idle => exec_carm_idle h empty met (given _ (by simp)) idle
  · exact fun even small space aligned => exec_launch h empty met (given _ (by simp [pairRegs])) even small space aligned
  · exact queryWait_waits h (some n.toNat) (given _ (by simp))
  · exact queryWait_waits h none (given _ (by simp))

end Sys2Proof.Machine
end

section
/-! SUPPORT. The directory of system registers (06 R142, R143; 18 R386): what it grants at each level, and which debug and
profiling numbers work. -/

namespace Sys2Proof.Machine

/-! ## What a number grants -/

/-- What a code of the directory's rows grants (06 R142). -/
def Access.ofCode (a : Nat) : Access := if a = 0 then .none else if a = 1 then .ro else .rw

/-- A row's code at a level, of its codes at program and at handler level. -/
def levelCode (handler : Bool) (p h : Nat) : Nat := if handler then h else p

theorem directory_row (s : State) (ctx : Nat) (handler : Bool) : ∀ r ∈ directoryRows,
    directory s ctx r.1 handler = some (.ofCode (levelCode handler r.2.1 r.2.2)) := by
  intro r row
  fin_cases row <;> cases handler <;> rfl

/-- A listed debug number grants what its row says while it works (18 R386). -/
theorem directory_debugRow (s : State) (ctx : Nat) (handler : Bool) : ∀ r ∈ debugRows,
    directory s ctx r.1 handler =
      if debugWorks s ctx r.1 then some (.ofCode (levelCode handler r.2.1 r.2.2.1)) else some .rw := by
  intro r row
  fin_cases row <;> cases handler <;> rfl

theorem directory_unlisted {n : Nat} (s : State) (ctx : Nat) (handler : Bool) (absent : ∀ p h, (n, p, h) ∉ directoryRows)
    (outside : n < 0x100 ∨ 0x1FF < n) : directory s ctx n handler = none := by
  have others : n ∉ directoryRows.map (·.1) := by
    rw [List.mem_map]
    rintro ⟨⟨m, p, h⟩, row, rfl⟩
    exact absent p h row
  simp only [directoryRows, List.map_cons, List.map_nil, List.mem_cons, List.not_mem_nil, or_false, not_or] at others
  unfold directory
  dsimp only
  iterate 4 rw [if_neg (by omega)]
  exact if_pos outside

/-! ## Features (18 R385, R386) -/

theorem debugOn_iff_feature (s : State) (i : Iss) {k : Nat} (named : k ≠ 3) :
    debugOn s i.k.ctx k = true ↔ i.feature s k := by
  unfold debugOn Iss.feature Iss.passport ctxAt partAt
  generalize ((Table.look s.contexts i.k.ctx).bind fun c => Table.look s.partitions c.part) = q
  cases q with
  | none => simp
  | some p => simp [Option.any_eq_true, named]

theorem passport_iff_feature (s : State) (i : Iss) {n : Nat} (low : n ≤ 0x102) :
    debugWorks s i.k.ctx n = true ↔ i.feature s 3 := by
  unfold debugWorks Iss.feature Iss.passport ctxAt partAt
  rw [if_pos low]
  generalize ((Table.look s.contexts i.k.ctx).bind fun c => Table.look s.partitions c.part) = q
  cases q with
  | none => simp
  | some p => simp [Option.isSome_iff_exists]

/-- A listed debug number works where the passport grants its feature. -/
theorem debugWorks_row (s : State) (i : Iss) : ∀ r ∈ debugRows, (debugWorks s i.k.ctx r.1 = true ↔ i.feature s r.2.2.2) := by
  intro r row
  have on (k : Nat) (named : k ≠ 3) := debugOn_iff_feature s i named
  fin_cases row
  iterate 3 exact passport_iff_feature s i (by decide)
  all_goals exact on _ (by decide)

/-- No other debug number ever works. -/
theorem debug_unlisted {n : Nat} (s : State) (ctx : Nat) (handler : Bool) (debug : 0x100 ≤ n ∧ n ≤ 0x1FF)
    (absent : ∀ p h k, (n, p, h, k) ∉ debugRows) :
    directory s ctx n handler = some .rw ∧ debugWorks s ctx n = false := by
  have others : n ∉ debugRows.map (·.1) := by
    rw [List.mem_map]
    rintro ⟨⟨m, p, h, k⟩, row, rfl⟩
    exact absent p h k row
  simp only [debugRows, List.map_cons, List.map_nil, List.mem_cons, List.not_mem_nil, or_false, not_or] at others
  constructor
  · unfold directory
    dsimp only
    iterate 11 rw [if_neg (by omega)]
  · unfold debugWorks
    iterate 4 rw [if_neg (by omega)]

theorem idle_spec {s : State} {i : Iss} {n : Nat} (idle : i.idle s n) (handler : Bool) :
    directory s i.k.ctx n handler = some .rw ∧ debugWorks s i.k.ctx n = false := by
  obtain ⟨low, high, none_⟩ := idle
  by_cases listed : ∃ p h k, (n, p, h, k) ∈ debugRows
  · obtain ⟨p, h, k, row⟩ := listed
    have off : debugWorks s i.k.ctx n = false := Bool.eq_false_iff.2 (mt (debugWorks_row s i _ row).1 (none_ p h k row))
    exact ⟨(directory_debugRow s _ handler _ row).trans (if_neg (by simp [off])), off⟩
  · exact debug_unlisted s _ handler ⟨low, high⟩ fun p h k row => listed ⟨p, h, k, row⟩

theorem directory_of_grants {s : State} {i : Iss} {n a : Nat} (granted : i.grants s n a) :
    directory s i.k.ctx n i.f.handler.isSome = some (.ofCode a) := by
  have level (p h : Nat) : (if i.f.handler = none then p else h) = levelCode i.f.handler.isSome p h := by
    cases i.f.handler <;> rfl
  obtain ⟨p, h, row, rfl⟩ | ⟨p, h, k, row, on, rfl⟩ := granted
  · rw [directory_row s _ _ _ row, ← level]
  · rw [directory_debugRow s _ _ _ row, if_pos ((debugWorks_row s i _ row).2 on), ← level]

/-- A debug number that is granted works. -/
theorem debugWorks_of_grants {s : State} {i : Iss} {n a : Nat} (granted : i.grants s n a) (debug : 0x100 ≤ n) :
    debugWorks s i.k.ctx n = true := by
  have plain : ∀ r ∈ directoryRows, r.1 < 0x100 := by decide
  obtain ⟨p, h, row, -⟩ | ⟨p, h, k, row, on, -⟩ := granted
  · exact absurd (plain _ row) (Nat.not_lt.2 debug)
  · exact (debugWorks_row s i _ row).2 on

end Sys2Proof.Machine
end

section
/-! SUPPORT. RDSR and WRSR (00 R6, R7; 06 R142 to R146; 18 R386): what each register reads as and takes, and the traps. -/

namespace Sys2Proof.Machine

/-! ## What each register reads as (06 R143; 18 R386) -/

theorem ofNat_low (v : Nat) : BitVec.ofNat 32 v = (BitVec.ofNat 64 v).extractLsb' 0 32 := by
  refine BitVec.eq_of_toNat_eq ?_
  rw [BitVec.extractLsb'_toNat, BitVec.toNat_ofNat, BitVec.toNat_ofNat, Nat.shiftRight_zero, Nat.mod_mod_of_dvd _ (by decide)]

theorem ofNat_high (v : Nat) : BitVec.ofNat 32 (v / 2 ^ 32) = (BitVec.ofNat 64 v).extractLsb' 32 32 := by
  refine BitVec.eq_of_toNat_eq ?_
  rw [BitVec.extractLsb'_toNat, BitVec.toNat_ofNat, BitVec.toNat_ofNat, Nat.shiftRight_eq_div_pow]
  omega

section
variable {s : State} {i : Iss} {c : Context} (here : ctxAt s i.k.ctx = some c)
include here

/-- Row by row, a register reads as its value and changes nothing, a debug register while it works. -/
theorem readSys_value : ∀ e ∈ systemValues i c, (0x100 ≤ e.1 → debugWorks s i.k.ctx e.1 = true) →
    readSys s i e.1 = (e.2, s) := by
  intro e mem works
  fin_cases mem <;> simp [readSys, here, works, ← ofNat_low, ← ofNat_high]

/-- The passport's registers. -/
theorem readSys_passport {p : Passport} (held : i.passport s = some p) :
    ∀ e ∈ (0x100, 0x80000000 ||| p.feat.setWidth 32) :: halves 0x101 (BitVec.ofNat 64 p.expiry),
      readSys s i e.1 = (e.2, s) := by
  intro e mem
  have works (n : Nat) (low : n ≤ 0x102) : debugWorks s i.k.ctx n = true :=
    (passport_iff_feature s i low).2 ⟨p, held, .inl rfl⟩
  have owned : (partAt s c.part).bind (·.passport) = some p := by
    have found : Table.look s.contexts i.k.ctx = some c := here
    simpa [Iss.passport, partAt, found] using held
  have valid (x : BitVec 3) : 0x80000000#32 + x.setWidth 32 = 0x80000000#32 ||| x.setWidth 32 := by
    revert x
    decide
  fin_cases mem <;> simp [readSys, here, works, owned, valid, ← ofNat_low, ← ofNat_high]

/-- GTIMEL latches the GT of the group's die. -/
theorem readSys_gtimel : readSys s i 0x010 =
    (BitVec.ofNat 32 (gtOf s i.g.die), updGroup s i.gid fun g => { g with gtime := BitVec.ofNat 64 (gtOf s i.g.die) }) := by
  simp [readSys, here]

end

/-! ## What each register takes (00 R6, R7; 06 R143, R144, R146; 18 R386) -/

/-- FAIRT is held to its range (06 R143). -/
theorem fairt_clamped (v : Word) : BitVec.ofNat 32 (max 100 (min 65535 v.toNat)) =
    if v.toNat < 100 then 100#32 else if 65535 < v.toNat then 65535#32 else v := by
  split
  · rw [max_eq_left (by omega)]
  · split
    · rw [min_eq_left (by omega)]
      rfl
    · rw [min_eq_right (by omega), max_eq_right (by omega), BitVec.ofNat_toNat, BitVec.setWidth_eq]

/-- Row by row, a context register takes what its fields accept, and the context stays in its partition. -/
theorem writeSys_context {s : State} {i : Iss} {c : Context} (here : ctxAt s i.k.ctx = some c) (v : Word) :
    ∀ e ∈ contextWrites c v, (0x100 ≤ e.1 → debugWorks s i.k.ctx e.1 = true) →
      writeSys s i e.1 v = { s with contexts := Table.ins s.contexts i.k.ctx e.2 } ∧ e.2.part = c.part := by
  intro e mem works
  have found : Table.look s.contexts i.k.ctx = some c := here
  fin_cases mem <;> simp [writeSys, updCtx, Table.upd_eq _ _ found, works, setHalf, writeRngctl, fairt_clamped]

/-- Row by row, a group register takes what is written to it. -/
theorem writeSys_group {s : State} {i : Iss} (h : issuing s = some i) (v : Word) :
    ∀ e ∈ groupWrites i.g v, (0x100 ≤ e.1 → debugWorks s i.k.ctx e.1 = true) →
      writeSys s i e.1 v = i.put s e.2 ∧ e.2.fibres = i.g.fibres := by
  intro e mem works
  fin_cases mem <;> simp [writeSys, updGroup_issuing h, works, setHalf]

/-- A debug number that does not work reads zero and ignores writes (18 R386). -/
theorem readSys_idle {s : State} {i : Iss} {n : Nat} (debug : 0x100 ≤ n) (off : debugWorks s i.k.ctx n = false) :
    readSys s i n = (0, s) := by
  unfold readSys
  dsimp only
  split
  · rfl
  · rw [if_pos debug, off]
    rfl

theorem writeSys_idle {s : State} {i : Iss} {n : Nat} (v : Word) (debug : 0x100 ≤ n) (off : debugWorks s i.k.ctx n = false) :
    writeSys s i n v = s := by
  unfold writeSys
  dsimp only
  rw [if_pos debug, off]
  rfl

/-! ## The words (06 R142) -/

/-- A context written in its partition leaves every passport in force. -/
theorem quiet_withContext {s : State} {i : Iss} {c x : Context} (here : ctxAt s i.k.ctx = some c) (part : x.part = c.part)
    (quiet : i.quiet s) : i.quiet { s with contexts := Table.ins s.contexts i.k.ctx x } := by
  have found : Table.look s.contexts i.k.ctx = some c := here
  have same : debugOn { s with contexts := Table.ins s.contexts i.k.ctx x } i.k.ctx 2 = debugOn s i.k.ctx 2 := by
    simp [debugOn, ctxAt, partAt, found, part]
  unfold Iss.quiet at quiet ⊢
  rwa [same]

/-- A trap that a word outside a chain raises has its own address. -/
theorem trapHere_of_plain {s : State} {i : Iss} (h : i.plain s) {cause : Nat} (uncounted : cause ≠ 4) (addr : DWord)
    (mask : Mask) : trapHere s i cause addr mask = takeTrap s i.gid i.fid cause i.f.pc addr mask i.f.clause := by
  have start : i.f.epc = i.f.pc := by simp [Fibre.epc, h.2.1]
  unfold trapHere
  rw [if_neg uncounted, start]

section
variable {s : State} {i : Iss} (h : i.plain s) {d : BitVec 6} (ready : i.settled [d.toNat]) {n : BitVec 18}
include h ready

section
variable {a : Access} (grants : directory s i.k.ctx n.toNat i.f.handler.isSome = some a)
include grants

/-- RDSR of a register that its level may read. -/
theorem exec_rdsr (may : a ≠ .none) :
    exec (.rdsr d n) s = .next (putS (readSys s i n.toNat).2 i d (readSys s i n.toNat).1) := by
  refine (uniform_runs h _ (by rw [grants]; rfl) ready).trans (congrArg _ ?_)
  rw [grants]
  cases a with
  | none => exact absurd rfl may
  | ro => rfl
  | rw => rfl

/-- RDSR of a register that is kept from its level. -/
theorem exec_rdsr_denied (kept : a = .none) :
    exec (.rdsr d n) s = .next (takeTrap s i.gid i.fid 0x02 i.f.pc 0 0 i.f.clause) := by
  refine (uniform_runs h _ (by rw [grants]; rfl) ready).trans (congrArg _ ?_)
  rw [grants, kept]
  exact trapHere_of_plain h (by decide) ..

/-- WRSR of a register that its level may write. -/
theorem exec_wrsr (may : a = .rw) :
    exec (.wrsr d n) s = .next (finish (writeSys s i n.toNat (i.g.readS d.toNat)) i) := by
  refine (uniform_runs h _ (by rw [grants]; rfl) ready).trans (congrArg _ ?_)
  rw [grants, may]

/-- WRSR of a register that its level may not write. -/
theorem exec_wrsr_denied (kept : a ≠ .rw) :
    exec (.wrsr d n) s = .next (takeTrap s i.gid i.fid 0x02 i.f.pc 0 0 i.f.clause) := by
  refine (uniform_runs h _ (by rw [grants]; rfl) ready).trans (congrArg _ ?_)
  rw [grants]
  cases a with
  | none => exact trapHere_of_plain h (by decide) ..
  | ro => exact trapHere_of_plain h (by decide) ..
  | rw => exact absurd rfl kept

end

/-- RDSR of a register that reads as a value and changes nothing. -/
theorem exec_rdsr_reads {a : Access} (grants : directory s i.k.ctx n.toNat i.f.handler.isSome = some a) (may : a ≠ .none)
    {x : Word} (reads : readSys s i n.toNat = (x, s)) :
    exec (.rdsr d n) s = .next (i.past s (i.g.writeS d.toNat x)) := by
  rw [exec_rdsr h ready grants may, reads, putS_eq h.1 h.2.2]

/-- RDSR of GTIMEL latches GT and reads its low half. -/
theorem exec_rdsr_gtimel {c : Context} (here : ctxAt s i.k.ctx = some c) {a : Access}
    (grants : directory s i.k.ctx n.toNat i.f.handler.isSome = some a) (may : a ≠ .none) (gtimel : n = 0x010) :
    exec (.rdsr d n) s = .next (i.past s
      ({ i.g with gtime := BitVec.ofNat 64 (gtOf s i.g.die) }.writeS d.toNat (BitVec.ofNat 32 (gtOf s i.g.die)))) := by
  have reads := readSys_gtimel here
  rw [show 0x010 = n.toNat from gtimel ▸ rfl] at reads
  rw [exec_rdsr h ready grants may, reads, updGroup_issuing h.1, putS, updGroup_put]
  exact congrArg _ (finish_put _ (issuing_parts h.1).2.2.1 h.2.2)

/-- WRSR of a context register. -/
theorem exec_wrsr_context {c x : Context} (here : ctxAt s i.k.ctx = some c)
    (grants : directory s i.k.ctx n.toNat i.f.handler.isSome = some .rw) (part : x.part = c.part)
    (writes : writeSys s i n.toNat (i.g.readS d.toNat) = { s with contexts := Table.ins s.contexts i.k.ctx x }) :
    exec (.wrsr d n) s = .next (i.past { s with contexts := Table.ins s.contexts i.k.ctx x } i.g) := by
  rw [exec_wrsr h ready grants rfl, writes]
  exact congrArg _ (finish_issuing (s := { s with contexts := Table.ins s.contexts i.k.ctx x }) h.1
    (quiet_withContext here part h.2.2))

/-- WRSR of a group register. -/
theorem exec_wrsr_group {g : Group} (grants : directory s i.k.ctx n.toNat i.f.handler.isSome = some .rw)
    (fibres : g.fibres = i.g.fibres) (writes : writeSys s i n.toNat (i.g.readS d.toNat) = i.put s g) :
    exec (.wrsr d n) s = .next (i.past s g) := by
  rw [exec_wrsr h ready grants rfl, writes]
  exact congrArg _ (finish_put g (fibres ▸ (issuing_parts h.1).2.2.1) h.2.2)

/-- RDSR and WRSR of a debug number that does not work, at both levels (18 R386). -/
theorem exec_systemWord_idle (idle : i.idle s n.toNat) :
    exec (.rdsr d n) s = .next (i.past s (i.g.writeS d.toNat 0)) ∧ exec (.wrsr d n) s = .next (i.past s i.g) := by
  obtain ⟨grants, off⟩ := idle_spec idle i.f.handler.isSome
  constructor
  · exact exec_rdsr_reads h ready grants (by decide) (readSys_idle idle.1 off)
  · rw [exec_wrsr h ready grants rfl, writeSys_idle _ idle.1 off, finish_issuing h.1 h.2.2]

end

/-- RDSR and WRSR of a number outside the directory (06 R142). -/
theorem exec_systemWord_unlisted {s : State} {i : Iss} (h : i.plain s) {d : BitVec 6} {n : BitVec 18}
    (absent : ∀ p h, (n.toNat, p, h) ∉ directoryRows)
    (outside : n.toNat < 0x100 ∨ 0x1FF < n.toNat) :
    exec (.rdsr d n) s = .next (takeTrap s i.gid i.fid 0x01 i.f.pc 0 0 i.f.clause) ∧
      exec (.wrsr d n) s = .next (takeTrap s i.gid i.fid 0x01 i.f.pc 0 0 i.f.clause) := by
  have refuses : (directory s i.k.ctx n.toNat i.f.handler.isSome).isSome = !true := by
    rw [directory_unlisted s _ _ absent outside]
    rfl
  exact ⟨uniform_illegal h refuses rfl, uniform_illegal h refuses rfl⟩

/-- Settles O14: what the directory grants decides between the register and the trap, and each register is a row. -/
theorem systemRegistersAreReadAndWritten : Obligations.SystemRegistersAreReadAndWritten := by
  unfold Obligations.SystemRegistersAreReadAndWritten
  refine ⟨fun s i c d n h ready here granted => ?_, fun s i c d n h ready here granted => ?_,
    fun s i d n h ready _ idle => exec_systemWord_idle h ready idle, fun s i d n h ready => ⟨fun denied => ?_, fun readOnly => ?_,
      exec_systemWord_unlisted h⟩⟩
  · obtain ⟨a, grants, may, works⟩ : ∃ a, directory s i.k.ctx n.toNat i.f.handler.isSome = some a ∧ a ≠ .none ∧
        (0x100 ≤ n.toNat → debugWorks s i.k.ctx n.toNat = true) := by
      obtain granted | granted := granted
      · exact ⟨_, directory_of_grants granted, by decide, debugWorks_of_grants granted⟩
      · exact ⟨_, directory_of_grants granted, by decide, debugWorks_of_grants granted⟩
    exact ⟨fun x row => exec_rdsr_reads h ready grants may (readSys_value here _ row works),
      fun p held x row => exec_rdsr_reads h ready grants may (readSys_passport here held _ row),
      exec_rdsr_gtimel h ready here grants may⟩
  · have grants := directory_of_grants granted
    have works := debugWorks_of_grants granted
    constructor
    · intro x row
      obtain ⟨writes, part⟩ := writeSys_context here _ _ row works
      exact exec_wrsr_context h ready here grants part writes
    · intro g row
      obtain ⟨writes, fibres⟩ := writeSys_group h.1 _ _ row works
      exact exec_wrsr_group h ready grants fibres writes
  · have grants := directory_of_grants denied
    exact ⟨exec_rdsr_denied h ready grants rfl, exec_wrsr_denied h ready grants (by decide)⟩
  · exact exec_wrsr_denied h ready (directory_of_grants readOnly) (by decide)

end Sys2Proof.Machine
end

section
/-! SUPPORT. Short-latency lane words by the forms that carry their rows (05 R108 to R125), whatever their fields name: what a
form and a computation must do for a row to be theirs. -/

namespace Sys2Proof.Machine

/-- A form and a computation that draws nothing carry a row: the form honours the modifiers and uses the row's fields, and the
computation yields the row's result. `b` is the number that the B field holds, of which an immediate in its place says
nothing. -/
structure LaneRow.CarriedBy (r : LaneRow) (m : Mods) (fm : Form) (low imm : Nat) (fn : LaneFn) : Prop where
  mods : ∀ cl, modsOk fm cl m low = true
  fields : fm.fields m r.d r.a r.b = r.fields m
  draws : m.rnd = 5 → ∀ x l, fn.draws m x l = 0
  value : ∀ (x : Srcs) (l b : Nat), x.a l < 2 ^ (32 * r.au.count) → b < 2 ^ (32 * r.bu.count) →
    x.c l < 2 ^ (32 * r.cu.count) → x.b l = (if r.bu = .imm then imm else b) →
    fn.value m x l (fun _ => 0) = r.val (x.a l) b (x.c l)

/-- A word runs a row over the lanes, under a form and a computation that carry it. -/
def LaneRow.RunBy (r : LaneRow) (m : Mods) (word : State → Out) : Prop :=
  ∃ (fm : Form) (low : Nat) (imm : Mods → Nat) (fn : LaneFn), r.CarriedBy m fm low (imm m) fn ∧
    ∀ s, word s = withIssuing s fun i => laneRun s i fm r.d r.a r.b low imm fn .regs

section
variable {m : Mods} {r : LaneRow}

/-- A row over D, A and B, whose B a PFXI may supply. -/
theorem runBy_rowB {fm : Form} {d a b : LReg} {du au bu cu : Use} {f : Nat → Nat → Nat → Nat} {fn : LaneFn}
    (common : m.common = true) {width : Nat} (word : intWidth m.ty = width) (row : m.rowB width d du a b au bu cu f = some r)
    (takes : fm.Takes m du au bu cu) (byPrefix : fm.imm = .b) (holds : 32 * bu.count = width)
    (computes : fn.Computes m au.count bu.count cu.count f) : r.RunBy m fun s => laneReg s fm d a b fn := by
  subst word
  unfold Mods.rowB at row
  split at row
  next plain =>
    obtain rfl := Option.some.inj row
    have register : bu ≠ .imm := by
      rintro rfl
      unfold intWidth at holds
      split at holds <;> cases holds
    refine ⟨fm, lowOf b, _, fn, ⟨fun cl => modsOk_of_takes takes common cl (by simp [plain]), ?_, computes.draws, ?_⟩,
      fun _ => rfl⟩
    · simp [LaneRow.fields, Form.fields, Form.bUse, plain, takes.d, takes.a, takes.b, takes.c]
    · intro x l _ ha hb hc same
      rw [if_neg register] at same
      subst same
      exact computes.value x l ha hb hc
  next n prefixed =>
    obtain ⟨rfl, row⟩ := Option.ite_none_right_eq_some.1 row
    obtain rfl := Option.some.inj row
    refine ⟨fm, lowOf (.v 0), _, fn, ⟨fun cl => modsOk_of_takes takes common cl ?_, ?_, computes.draws, ?_⟩, fun _ => rfl⟩
    · simp [byPrefix, ImmUse.admits, lowOf]
    · simp [LaneRow.fields, Form.fields, Form.bUse, prefixed, byPrefix, takes.d, takes.a, takes.c]
    · intro x l _ ha _ hc same
      rw [if_pos rfl, bImm_eq_signExtend _ prefixed] at same
      exact same ▸ computes.value x l ha (by rw [same, holds]; exact BitVec.isLt _) hc

/-- A row over D and A, which takes no PFXI. -/
theorem runBy_rowA {fm : Form} {d a : LReg} {du au : Use} {f : Nat → Nat} {fn : LaneFn} (common : m.common = true)
    (row : m.rowA d du a au f = some r) (takes : fm.Takes m du au .unused .unused)
    (computes : fn.Computes m au.count 1 1 fun x _ _ => f x) : r.RunBy m fun s => laneReg s fm d a .zero fn := by
  unfold Mods.rowA at row
  obtain ⟨plain, row⟩ := Option.ite_none_left_eq_some.1 row
  obtain rfl := Option.some.inj row
  rw [Bool.not_eq_true, Option.isSome_eq_false_iff, Option.isNone_iff_eq_none] at plain
  refine ⟨fm, lowOf .zero, _, fn, ⟨fun cl => modsOk_of_takes takes common cl (by simp [plain]), ?_, computes.draws, ?_⟩,
    fun _ => rfl⟩
  · simp [LaneRow.fields, Form.fields, Form.bUse, plain, takes.d, takes.a, takes.b, takes.c]
  · intro x l b ha hb hc same
    exact computes.value x l ha (by rw [same]; exact hb) hc

/-- A row over D and A with the immediate `n` in place of B. -/
theorem runBy_rowImm {fm : Form} {d a : LReg} {du au : Use} {low n : Nat} {imm : Mods → Nat} {f : Nat → Nat → Nat}
    {fn : LaneFn} (mods : ∀ cl, modsOk fm cl m low = true) (row : rowImm d du a au n f = some r)
    (takes : fm.Takes m du au .imm .unused) (draws : m.rnd = 5 → ∀ x l, fn.draws m x l = 0)
    (value : ∀ (x : Srcs) (l : Nat), x.a l < 2 ^ (32 * au.count) → x.b l = imm m →
      fn.value m x l (fun _ => 0) = f (x.a l) n) : r.RunBy m fun s => laneImm s fm d a low imm fn := by
  obtain rfl := Option.some.inj row
  refine ⟨fm, low, imm, fn, ⟨mods, ?_, draws, fun x l _ ha _ _ same => value x l ha (same.trans (if_pos rfl))⟩, fun _ => rfl⟩
  simp [LaneRow.fields, Form.fields, Form.bUse, takes.d, takes.a, takes.b, takes.c]

end

/-! ## Integer, logic and move words (05 R111 to R115, R118) -/

section
variable {m : Mods} {r : LaneRow} (common : m.common = true)
include common

/-- An arithmetic word over registers (05 R111 to R113). -/
theorem runBy_arithRow {wide : Bool} {fm : Form} {d a b : LReg} {cu : Use} {op : Int → Int → Int → Int}
    (row : m.arithRow wide d a b cu op = some r) (byPrefix : fm.imm = .b)
    (takes : (m.ty = 0 ∨ m.ty = 6 ∨ m.ty = 7 ∨ (wide = true ∧ (m.ty = 12 ∨ m.ty = 13))) →
      fm.Takes m (if m.ty = 12 ∨ m.ty = 13 then .dstPair else .dst) (if m.ty = 12 ∨ m.ty = 13 then .srcPair else .src)
        (if m.ty = 12 ∨ m.ty = 13 then .srcPair else .src) cu) :
    r.RunBy m fun s => laneReg s fm d a b (arith op fun m => m.imm.isSome) := by
  unfold Mods.arithRow at row
  simp only [decide_eq_true_eq] at row
  obtain ⟨type, row⟩ := Option.ite_none_right_eq_some.1 row
  exact runBy_rowB common (f := arithResult m m.imm.isSome op) rfl row (takes type) byPrefix
    (by unfold intWidth; split <;> rfl) (arith_computes ..)

/-- A word of R114 or R118 over registers. -/
theorem runBy_wordRow {d a b : LReg} {cu : Use} {f : Nat → Nat → Nat → Nat} {F : Word → Word → Word → Word}
    (one : cu.count = 1) (word : ∀ x y z : Word, f x.toNat y.toNat z.toNat % 2 ^ 32 = (F x y z).toNat)
    (row : m.wordRow d a b cu F = some r) : r.RunBy m fun s => laneReg s (.regs [0] false .src .src cu) d a b (bitsFn f) := by
  unfold Mods.wordRow at row
  obtain ⟨⟨type, plain⟩, row⟩ := Option.ite_none_right_eq_some.1 row
  exact runBy_rowB common (by rw [type]; rfl) row (takes_regs _ _ _ (by simp [type]) (by simpa using plain)) rfl rfl
    (by rw [one]; exact bitsFn_computes word)

/-- A word of R114 over one register. -/
theorem runBy_wordRow1 {d a : LReg} {f : Nat → Nat} {F : Word → Word} (word : ∀ x : Word, f x.toNat % 2 ^ 32 = (F x).toNat)
    (row : m.wordRow1 d a F = some r) : r.RunBy m fun s => laneReg s .plain1 d a .zero (bitsFn fun x _ _ => f x) := by
  unfold Mods.wordRow1 at row
  obtain ⟨⟨type, plain⟩, row⟩ := Option.ite_none_right_eq_some.1 row
  exact runBy_rowA common row (takes_regs _ _ _ (by simp [type]) (by simpa using plain))
    (bitsFn_computes (F := fun x _ _ => F x) fun x _ _ => word x)

/-- A word of 32 bits with an immediate (04 R86). -/
theorem runBy_li {d a : LReg} {shift : Bool} {low n : Nat} {imm : Mods → Nat} {f : Nat → Nat → Nat} {F : Word → Nat → Word}
    (type : m.ty = 0) (plain : m.sat = false) (replaced : ∀ y, m.imm = some y → low = 0 ∧ (shift = true → y.toNat < 32))
    (given : imm m = n) (word : ∀ x : Word, f x.toNat n % 2 ^ 32 = (F x n).toNat)
    (row : rowImm d .dst a .src n (fun v k => (F (BitVec.ofNat 32 v) k).toNat) = some r) :
    r.RunBy m fun s => laneImm s (.li shift) d a low imm (bitsFn fun x y _ => f x y) := by
  have takes : (Form.li shift).Takes m .dst .src .imm .unused :=
    ⟨by simp [Form.li, Form.regs, type], by simp [plain], rfl, rfl, rfl, rfl, rfl, rfl⟩
  have admits (y : BitVec 24) (prefixed : m.imm = some y) : (Form.li shift).imm.admits low y = true := by
    cases shift <;> simpa [Form.li, ImmUse.admits] using replaced y prefixed
  refine runBy_rowImm (modsOk_of_takes takes common · admits) row takes (fun _ _ _ => rfl) fun x l ha hb => ?_
  refine Eq.trans ?_ (word (BitVec.ofNat 32 (x.a l)))
  rw [toNat_ofRegister ha, ← given, ← hb]
  rfl

/-- AND, OR and XOR with an immediate. -/
theorem runBy_logicRow {d a : LReg} {x : BitVec 8} {f : Nat → Nat → Nat} {F : Word → Word → Word}
    (word : ∀ x y : Word, f x.toNat y.toNat % 2 ^ 32 = (F x y).toNat)
    (row : (if m.ty = 0 ∧ !m.sat then (m.immediate false x).bind fun n => rowImm d .dst a .src n.toNat fun v k =>
      (F (BitVec.ofNat 32 v) (BitVec.ofNat 32 k)).toNat else none) = some r) :
    r.RunBy m fun s => laneImm s (.li false) d a x.toNat (liZero x) (bitsFn fun x y _ => f x y) := by
  obtain ⟨⟨type, plain⟩, row⟩ := Option.ite_none_right_eq_some.1 row
  obtain ⟨n, given, row⟩ := Option.bind_eq_some_iff.1 row
  refine runBy_li common (F := fun x k => F x (BitVec.ofNat 32 k)) type (by simpa using plain)
    (fun y prefixed => ⟨immediate_low given prefixed, nofun⟩) (liZero_eq given) (fun x => ?_) row
  rw [word, BitVec.ofNat_toNat, BitVec.setWidth_eq]

/-- A shift by an immediate count. -/
theorem runBy_shiftRow {d a : LReg} {x : BitVec 5} {f : Nat → Nat → Nat} {F : Word → Nat → Word}
    (word : ∀ (x : Word) (n : Nat), n < 32 → f x.toNat n % 2 ^ 32 = (F x n).toNat)
    (row : (if m.ty = 0 ∧ !m.sat then (m.shiftCount x).bind fun n => rowImm d .dst a .src n fun v k =>
      (F (BitVec.ofNat 32 v) k).toNat else none) = some r) :
    r.RunBy m fun s => laneImm s (.li true) d a x.toNat (liShift x) (bitsFn fun x y _ => f x y) := by
  obtain ⟨⟨type, plain⟩, row⟩ := Option.ite_none_right_eq_some.1 row
  obtain ⟨n, given, row⟩ := Option.bind_eq_some_iff.1 row
  obtain ⟨count, small, replaced⟩ := shiftCount_spec given
  exact runBy_li common type (by simpa using plain)
    (fun y prefixed => ⟨(replaced y prefixed).1, fun _ => (replaced y prefixed).2⟩) count (fun x => word x n small) row

/-- IADDI (05 R111, R113). -/
theorem runBy_iaddi {d a : LReg} {x : BitVec 8} (row : integerRow m (.iaddi d a x) = some r) :
    r.RunBy m (exec (.iaddi d a x)) := by
  simp only [integerRow, common, Bool.not_true, Bool.false_eq_true, if_false, decide_eq_true_eq] at row
  obtain ⟨type, row⟩ := Option.ite_none_right_eq_some.1 row
  obtain ⟨n, given, row⟩ := Option.bind_eq_some_iff.1 row
  have takes : (Form.arith64 .imm (.li false)).Takes m (if m.ty = 12 ∨ m.ty = 13 then .dstPair else .dst)
      (if m.ty = 12 ∨ m.ty = 13 then .srcPair else .src) .imm .unused :=
    ⟨by simpa [Form.arith64] using type, fun _ => rfl, rfl, rfl, rfl, rfl, rfl, rfl⟩
  have admits (y : BitVec 24) (prefixed : m.imm = some y) :
      (Form.arith64 .imm (.li false)).imm.admits x.toNat y = true := by
    simp [Form.arith64, ImmUse.admits, immediate_low given prefixed]
  refine runBy_rowImm (imm := liSigned x) (modsOk_of_takes takes common · admits) row takes (fun _ _ _ => rfl)
    fun z l _ hb => ?_
  rw [arith_value, arithResult, if_pos rfl, hb, ← toSigned_intWidth, toSigned_liSigned given]

/-- BFX under each of its TYPEs (05 R115). -/
theorem runBy_bfx {d a b : LReg} (row : integerRow m (.bfx d a b) = some r) : r.RunBy m (exec (.bfx d a b)) := by
  simp only [integerRow, common, Bool.not_true, Bool.false_eq_true, if_false] at row
  obtain ⟨⟨type, plain⟩, row⟩ := Option.ite_none_right_eq_some.1 row
  refine runBy_rowB common (if_neg (by omega)) row (takes_regs _ _ _ (by simpa using type) (by simpa using plain)) rfl rfl
    ⟨fun _ _ _ => rfl, fun x l ha hb _ => ?_⟩
  refine Eq.trans ?_ (bfxWord_toNat (m.ty = 6) (BitVec.ofNat 32 (x.a l)) (BitVec.ofNat 32 (x.b l)))
  rw [toNat_ofRegister ha, toNat_ofRegister hb]
  rfl

/-- MOV of a register or of a pair (05 R118). -/
theorem runBy_mov {d a : LReg} (row : integerRow m (.mov d a) = some r) : r.RunBy m (exec (.mov d a)) := by
  simp only [integerRow, common, Bool.not_true, Bool.false_eq_true, if_false] at row
  obtain ⟨⟨type, plain⟩, row⟩ := Option.ite_none_right_eq_some.1 row
  exact runBy_rowA common row ⟨by simpa [Form.regs] using type, by simp_all, rfl, rfl, rfl, rfl, rfl, rfl⟩
    ⟨fun _ _ _ => rfl, fun _ _ _ _ _ => rfl⟩

/-- MOVI, with the high half of a PFXI or without (04 R87, R94). -/
theorem runBy_movi {d : LReg} {x : BitVec 16} (row : integerRow m (.movi d x) = some r) : r.RunBy m (exec (.movi d x)) := by
  simp only [integerRow, common, Bool.not_true, Bool.false_eq_true, if_false] at row
  obtain ⟨⟨type, plain⟩, row⟩ := Option.ite_none_right_eq_some.1 row
  have takes : ({ Form.regs [0] false .imm .imm .unused with imm := .lw } : Form).Takes m .dst .imm .imm .unused :=
    ⟨by simp [Form.regs, type], by simp_all, rfl, rfl, rfl, rfl, rfl, rfl⟩
  cases prefixed : m.imm with
  | none =>
    simp only [prefixed] at row
    refine runBy_rowImm (n := (x.signExtend 32 : Word).toNat) (f := fun _ n => n)
      (modsOk_of_takes takes common · (by simp [prefixed])) row takes (fun _ _ _ => rfl) fun z l _ hb => ?_
    rw [prefixed] at hb
    exact (congrArg (· % 2 ^ 32) hb).trans ((Nat.mod_eq_of_lt (wrapTo_lt ..)).trans (wrapTo_eq_ofInt ..))
  | some y =>
    simp only [prefixed] at row
    obtain ⟨half, row⟩ := Option.ite_none_right_eq_some.1 row
    refine runBy_rowImm (n := (y.extractLsb' 0 16 ++ x : Word).toNat) (f := fun _ n => n)
      (modsOk_of_takes takes common · (by simp [prefixed, ImmUse.admits, half])) row takes (fun _ _ _ => rfl)
      fun z l _ hb => ?_
    rw [prefixed] at hb
    exact (congrArg (· % 2 ^ 32) (hb.trans (prefixed_append y x half))).trans (toNat_mod _)

end

/-- Every word of R111 to R115 or R118 runs its row. -/
theorem runBy_integerRow {m : Mods} {w : Instr} {r : LaneRow} (row : integerRow m w = some r) : r.RunBy m (exec w) := by
  have whole := row
  unfold integerRow at row
  obtain ⟨common, row⟩ : _ ∧ _ := Option.ite_none_left_eq_some.1 row
  rw [Bool.not_eq_true, Bool.not_eq_false'] at common
  cases w with
  | iadd d a b | isub d a b =>
    exact runBy_arithRow common row rfl fun type =>
      ⟨by simpa [Form.arith64] using type, fun _ => rfl, rfl, rfl, rfl, rfl, rfl, rfl⟩
  | imul d a b | imad d a b =>
    refine runBy_arithRow common row rfl fun type => ?_
    have short : ¬(m.ty = 12 ∨ m.ty = 13) := by simp at type; omega
    simp only [if_neg short]
    exact takes_regs _ _ _ (by simpa using type) fun _ => rfl
  | iaddi d a x => exact runBy_iaddi common whole
  | imulh d a b => exact runBy_wordRow common rfl (fun x y _ => mulHigh_signed x y) row
  | umulh d a b => exact runBy_wordRow common rfl (fun x y _ => mulHigh_unsigned x y) row
  | imin d a b => exact runBy_wordRow common rfl (fun x y _ => minSigned_toNat x y) row
  | imax d a b => exact runBy_wordRow common rfl (fun x y _ => maxSigned_toNat x y) row
  | umin d a b => exact runBy_wordRow common rfl (fun x y _ => minUnsigned_toNat x y) row
  | umax d a b => exact runBy_wordRow common rfl (fun x y _ => maxUnsigned_toNat x y) row
  | and d a b => exact runBy_wordRow common rfl (fun x y _ => toNat_mod (x &&& y)) row
  | or d a b => exact runBy_wordRow common rfl (fun x y _ => toNat_mod (x ||| y)) row
  | xor d a b => exact runBy_wordRow common rfl (fun x y _ => toNat_mod (x ^^^ y)) row
  | andn d a b => exact runBy_wordRow common rfl (fun x y _ => andNot_toNat x y) row
  | shl d a b => exact runBy_wordRow common rfl (fun x y _ => by rw [shlWord_toNat, toNat_mod]) row
  | shr d a b => exact runBy_wordRow common rfl (fun x y _ => by rw [shrWord_toNat, toNat_mod]) row
  | sar d a b => exact runBy_wordRow common rfl (fun x y _ => by rw [sarWord_toNat, toNat_mod]) row
  | rol d a b => exact runBy_wordRow common rfl (fun x y _ => rolWord_toNat x y) row
  | popc d a => exact runBy_wordRow1 common popcWord_toNat row
  | clz d a => exact runBy_wordRow1 common clzWord_toNat row
  | brev d a => exact runBy_wordRow1 common brevWord_toNat row
  | bfx d a b => exact runBy_bfx common whole
  | bfi d a b => exact runBy_wordRow common rfl bfiWord_toNat row
  | sel d a b => exact runBy_wordRow common rfl select_toNat row
  | mov d a => exact runBy_mov common whole
  | andi d a x => exact runBy_logicRow common (fun x y => toNat_mod (x &&& y)) row
  | ori d a x => exact runBy_logicRow common (fun x y => toNat_mod (x ||| y)) row
  | xori d a x => exact runBy_logicRow common (fun x y => toNat_mod (x ^^^ y)) row
  | shli d a x =>
    refine runBy_shiftRow common (F := fun x n => x <<< n) (fun x n small => ?_) row
    rw [shlWord_toNat, if_neg (by omega), toNat_mod]
  | shri d a x =>
    refine runBy_shiftRow common (F := fun x n => x >>> n) (fun x n small => ?_) row
    rw [shrWord_toNat, if_neg (by omega), toNat_mod]
  | sari d a x =>
    refine runBy_shiftRow common (F := fun x n => x.sshiftRight n) (fun x n small => ?_) row
    rw [sarWord_toNat, min_eq_left (by omega), toNat_mod]
  | movi d x => exact runBy_movi common whole
  | _ => cases row

end Sys2Proof.Machine
end

section
/-! SUPPORT. FP32, packed, dot-product and conversion lane words (05 R119 to R125), each by the form that carries its row. -/

namespace Sys2Proof.Machine

section
variable {m : Mods} {r : LaneRow} (common : m.common = true) (mode : m.rnd ≠ 5)
include common mode

/-! ## FP32 words (05 R119 to R122) -/

/-- A word that rounds its exact result once (05 R119). -/
theorem runBy_floatRow {d a b : LReg} {cu : Use} {f : Nat → Nat → Nat → Nat → Ext} {F : Ext → Ext → Ext → Ext}
    (result : ∀ x y z, f m.rnd x y z = F (fv x) (fv y) (fv z)) (row : m.floatRow d a b cu F = some r) :
    r.RunBy m fun s => laneReg s (.float true .src .src cu) d a b (floatFn f) := by
  unfold Mods.floatRow at row
  obtain ⟨type, row⟩ := Option.ite_none_right_eq_some.1 row
  refine runBy_rowB common (if_neg (by omega)) row (takes_regs _ _ _ (by simp; omega) fun _ => rfl) rfl rfl
    ⟨fun sr => absurd sr mode, fun x l _ _ _ => ?_⟩
  exact (congrArg _ (result ..)).trans (Nat.mod_eq_of_lt (roundTo_lt .fp32 ..)).symm

/-- FMIN and FMAX (05 R120). -/
theorem runBy_minMax {d a b : LReg} {wantMax : Bool} (row : (if m.ty ≤ 1 ∧ !m.sat then
      m.rowB 32 d .dst a b .src .src .unused fun x y _ => minMax .fp32 wantMax x y else none) = some r) :
    r.RunBy m fun s => laneReg s (.float false .src .src .unused) d a b (bitsFn fun a b _ => minMax .fp32 wantMax a b) := by
  obtain ⟨⟨type, plain⟩, row⟩ := Option.ite_none_right_eq_some.1 row
  exact runBy_rowB common (if_neg (by omega)) row (takes_regs _ _ _ (by simp; omega) (by simpa using plain)) rfl rfl
    ⟨fun sr => absurd sr mode, fun x l ha hb _ => Nat.mod_eq_of_lt (minMax_lt wantMax ha hb)⟩

/-- A word over A alone (05 R119, R121, R122). -/
theorem runBy_floatRow1 {d a : LReg} {sat : Bool} {f : Nat → Nat} {fn : LaneFn}
    (value : ∀ (x : Srcs) (l : Nat), fn.value m x l (fun _ => 0) = f (x.a l)) (type : m.ty ≤ 1)
    (clamps : m.sat = true → sat = true) (row : m.rowA d .dst a .src f = some r) :
    r.RunBy m fun s => laneReg s (.float sat .src .unused .unused) d a .zero fn :=
  runBy_rowA common row (takes_regs _ _ _ (by simp; omega) clamps) ⟨fun sr => absurd sr mode, fun x l _ _ _ => value x l⟩

/-- A special function (05 R122). -/
theorem runBy_special {d a : LReg} {fn : SpecialFn} (row : m.specialRow d a fn = some r) : r.RunBy m (laneSpecial fn d a) := by
  unfold Mods.specialRow at row
  obtain ⟨type, row⟩ := Option.ite_none_right_eq_some.1 row
  exact runBy_floatRow1 common mode (fun _ _ => rfl) type (fun _ => rfl) row

/-! ## Packed halves (05 R123) -/

/-- A word over packed halves, rounded element by element. -/
theorem runBy_halfRow {d a b : LReg} {cu : Use} {f : Nat → Ext → Ext → Ext → Ext} {F : Ext → Ext → Ext → Ext}
    (result : f m.rnd = F) (row : m.halfRow d a b cu F = some r) :
    r.RunBy m fun s => laneReg s (.half true cu) d a b (halfFn f) := by
  unfold Mods.halfRow at row
  obtain ⟨type, row⟩ := Option.ite_none_right_eq_some.1 row
  refine runBy_rowB common (if_neg (by omega)) row (takes_regs _ _ _ (by simpa using type) fun _ => rfl) rfl rfl
    ⟨fun sr => absurd sr mode, fun x l _ _ _ => ?_⟩
  simp only [halfFn, half_eq, result, halfFmt]
  rw [Nat.mul_comm 65536]

/-- HMIN2 and HMAX2. -/
theorem runBy_halfPick {d a b : LReg} {wantMax : Bool} (row : m.halfPick d a b wantMax = some r) :
    r.RunBy m fun s => laneReg s (.half false .unused) d a b (halfMinMax wantMax) := by
  unfold Mods.halfPick at row
  obtain ⟨⟨type, plain⟩, row⟩ := Option.ite_none_right_eq_some.1 row
  refine runBy_rowB common (if_neg (by omega)) row (takes_regs _ _ _ (by simpa using type) (by simpa using plain)) rfl rfl
    ⟨fun sr => absurd sr mode, fun x l _ _ _ => ?_⟩
  simp only [halfMinMax, LaneFn.pure, half_eq, halfFmt]
  rw [Nat.mul_comm 65536]

/-! ## Dot products and conversions (05 R124, R125) -/

/-- DOT4, of signed or of unsigned bytes. -/
theorem runBy_dot4 {d a b : LReg} (row : packedRow m (.dot4 d a b) = some r) : r.RunBy m (exec (.dot4 d a b)) := by
  simp only [packedRow, common, mode, Bool.not_true, Bool.false_eq_true, or_self, if_false, decide_eq_true_eq] at row
  obtain ⟨type, row⟩ := Option.ite_none_right_eq_some.1 row
  refine runBy_rowB common (if_neg (by omega)) row (takes_regs _ _ _ (by simpa using type) fun _ => rfl) rfl rfl
    ⟨fun sr => absurd sr mode, fun x l _ _ hc => ?_⟩
  by_cases unsigned : m.ty = 9
  · simp only [LaneFn.pure, unsigned, ne_eq, not_true_eq_false, if_true, if_false, byteOf_eq,
      wrapTo_unsigned, sum_four, typeInt_unsigned hc]
  · simp only [LaneFn.pure, unsigned, ne_eq, not_false_eq_true, if_true, if_false, toSigned_byteOf,
      wrapTo_signed, sum_four, toSigned_word]

/-- CVTIF, from integers of each TYPE. -/
theorem runBy_cvtif {d a : LReg} (row : packedRow m (.cvtif d a) = some r) : r.RunBy m (exec (.cvtif d a)) := by
  simp only [packedRow, common, mode, Bool.not_true, Bool.false_eq_true, or_self, if_false, decide_eq_true_eq] at row
  obtain ⟨⟨type, plain⟩, row⟩ := Option.ite_none_right_eq_some.1 row
  refine runBy_rowA common row (takes_regs _ _ _ (by simpa using type) (by simpa using plain))
    ⟨fun sr => absurd sr mode, fun x l ha _ _ => ?_⟩
  obtain type | type | type | type | type := type <;> simp only [type]
  · rw [toSigned_eq_toInt 31]
  · rw [toSigned_eq_toInt 31]
  · rw [toNat_ofRegister ha]
  · rw [toSigned_byte]
  · rw [BitVec.toNat_ofNat]

/-- CVTFI, to integers of each TYPE. -/
theorem runBy_cvtfi {d a : LReg} (row : packedRow m (.cvtfi d a) = some r) : r.RunBy m (exec (.cvtfi d a)) := by
  simp only [packedRow, common, mode, Bool.not_true, Bool.false_eq_true, or_self, if_false, decide_eq_true_eq] at row
  obtain ⟨type, row⟩ := Option.ite_none_right_eq_some.1 row
  refine runBy_rowA common row (takes_regs _ _ _ (by simpa using type) fun _ => rfl)
    ⟨fun sr => absurd sr mode, fun x l _ _ _ => ?_⟩
  obtain type | type | type | type | type := type <;> simp only [type] <;> exact wrapTo_eq_ofInt 32 _

/-- CVT8P, four words into bytes. -/
theorem runBy_cvt8p {d a : LReg} (row : packedRow m (.cvt8p d a) = some r) : r.RunBy m (exec (.cvt8p d a)) := by
  simp only [packedRow, common, mode, Bool.not_true, Bool.false_eq_true, or_self, if_false, decide_eq_true_eq] at row
  obtain ⟨type, row⟩ := Option.ite_none_right_eq_some.1 row
  refine runBy_rowA common row ⟨by simpa [Form.regs] using type, fun _ => rfl, rfl, rfl, rfl, rfl, rfl, rfl⟩
    ⟨fun sr => absurd sr mode, fun x l _ _ _ => ?_⟩
  obtain type | type | type | type | type := type <;> simp only [type, sum_four, wordOf, fp8Fmt, fv,
    packByte_eq (show (-128 : Int) ≤ 127 by decide), packByte_eq (show (0 : Int) ≤ 255 by decide)] <;> ring

/-- CVT8U, four bytes into words. -/
theorem runBy_cvt8u {d a : LReg} (row : packedRow m (.cvt8u d a) = some r) : r.RunBy m (exec (.cvt8u d a)) := by
  simp only [packedRow, common, mode, Bool.not_true, Bool.false_eq_true, or_self, if_false, decide_eq_true_eq] at row
  obtain ⟨⟨type, plain⟩, row⟩ := Option.ite_none_right_eq_some.1 row
  refine runBy_rowA common row ⟨by simpa [Form.regs] using type, by simp_all, rfl, rfl, rfl, rfl, rfl, rfl⟩
    ⟨fun sr => absurd sr mode, fun x l _ _ _ => ?_⟩
  obtain type | type | type | type | type := type <;>
    simp only [LaneFn.pure, type, sum_four, wrapTo_signedByte, byteOf_eq_div, convert, fp8Fmt] <;> ring

end

/-! ## The words -/

/-- Every word of R119 to R122 runs its row. -/
theorem runBy_floatRowOf {m : Mods} {w : Instr} {r : LaneRow} (row : floatRowOf m w = some r) : r.RunBy m (exec w) := by
  unfold floatRowOf at row
  obtain ⟨accepted, row⟩ : _ ∧ _ := Option.ite_none_left_eq_some.1 row
  obtain ⟨common, mode⟩ : m.common = true ∧ m.rnd ≠ 5 := by simpa using accepted
  cases w with
  | fadd d a b | fsub d a b | fmul d a b | ffma d a b => exact runBy_floatRow common mode (fun _ _ _ => rfl) row
  | fmin d a b | fmax d a b => exact runBy_minMax common mode row
  | fclass d a =>
    obtain ⟨⟨type, plain⟩, row⟩ := Option.ite_none_right_eq_some.1 row
    exact runBy_floatRow1 common mode (fun _ _ => Nat.mod_eq_of_lt (classMask_lt _)) type (by simpa using plain) row
  | frnd d a =>
    obtain ⟨type, row⟩ := Option.ite_none_right_eq_some.1 row
    exact runBy_floatRow1 common mode (fun _ _ => rfl) type (fun _ => rfl) row
  | frcp d a | frsq d a | fsqrt d a | fexp2 d a | flog2 d a | fsin d a | fcos d a | ftanh d a =>
    exact runBy_special common mode row
  | _ => cases row

/-- Every word of R123 to R125 runs its row. -/
theorem runBy_packedRow {m : Mods} {w : Instr} {r : LaneRow} (row : packedRow m w = some r) : r.RunBy m (exec w) := by
  have whole := row
  unfold packedRow at row
  obtain ⟨accepted, row⟩ : _ ∧ _ := Option.ite_none_left_eq_some.1 row
  obtain ⟨common, mode⟩ : m.common = true ∧ m.rnd ≠ 5 := by simpa using accepted
  simp only [decide_eq_true_eq] at row
  cases w with
  | hadd2 d a b | hmul2 d a b | hfma2 d a b => exact runBy_halfRow common mode rfl row
  | hmin2 d a b | hmax2 d a b => exact runBy_halfPick common mode row
  | dot4 d a b => exact runBy_dot4 common mode whole
  | cvtif d a => exact runBy_cvtif common mode whole
  | cvtfi d a => exact runBy_cvtfi common mode whole
  | cvt8p d a => exact runBy_cvt8p common mode whole
  | cvt8u d a => exact runBy_cvt8u common mode whole
  | fdot2 d a b =>
    obtain ⟨type, row⟩ := Option.ite_none_right_eq_some.1 row
    refine runBy_rowB common (if_neg (by omega)) row (takes_regs _ _ _ (by simpa using type) fun _ => rfl) rfl rfl
      ⟨fun sr => absurd sr mode, fun x l _ _ _ => ?_⟩
    simp only [half_eq]
    rfl
  | cvtfh d a b =>
    obtain ⟨type, row⟩ := Option.ite_none_right_eq_some.1 row
    refine runBy_rowB common (if_neg (by omega)) row (takes_regs _ _ _ (by simpa using type) fun _ => rfl) rfl rfl
      ⟨fun sr => absurd sr mode, fun x l _ _ _ => ?_⟩
    rw [Nat.mul_comm 65536]
    rfl
  | cvthf d a =>
    obtain ⟨⟨type, plain⟩, row⟩ := Option.ite_none_right_eq_some.1 row
    refine runBy_rowA common row ⟨by simpa [Form.regs] using type, by simp_all, rfl, rfl, rfl, rfl, rfl, rfl⟩
      ⟨fun sr => absurd sr mode, fun x l _ _ _ => ?_⟩
    simp only [LaneFn.pure, half_eq]
    rw [Nat.mul_comm (2 ^ 32)]
    rfl
  | _ => cases row

/-- Every short-latency word with a row runs it over the lanes. -/
theorem runBy_laneRow {m : Mods} {w : Instr} {r : LaneRow} (row : laneRowOf m w = some r) : r.RunBy m (exec w) := by
  unfold laneRowOf at row
  cases integer : integerRow m w with
  | some x =>
    obtain rfl : x = r := by simpa [integer] using row
    exact runBy_integerRow integer
  | none =>
    rw [integer, Option.orElse_none] at row
    cases float : floatRowOf m w with
    | some x =>
      obtain rfl : x = r := by simpa [float] using row
      exact runBy_floatRowOf float
    | none => exact runBy_packedRow (by simpa [float] using row)

end Sys2Proof.Machine
end

section
/-! SUPPORT. Hand-off queue fields (07 R171, R172): when the queues let a word go on, one repetition that pops, pushes or waits,
the word as a whole. -/

namespace Sys2Proof.Machine

/-! ## What a repetition asks of the queues -/

/-- A repetition goes on where every queue that it pops holds as many elements as it pops, and the one that it pushes then has
a place. -/
theorem queuesReady_iff {k : Kernel} {b : Block} {pops : List Nat} {push : Option Nat} :
    queuesReady k b pops push = true ↔ (∀ q ∈ pops, pops.count q ≤ (b.queue q).length) ∧
      ∀ q, push = some q → (b.queue q).length - pops.count q < k.qdepth q := by
  cases push <;> simp [queuesReady]

/-- Fields within their uses raise no trap where each queue is declared. -/
theorem fieldTrap_eq_none_of_declared {k : Kernel} {w : Nat} {fs : List (Use × LReg)}
    (legal : ∀ x ∈ fs, useOk w x.1 x.2 = true ∧ ∀ q, x.2 = .q q → x.1 ≠ .imm ∧ 1 ≤ k.qdepth q.val) :
    fieldTrap k w false fs = none := by
  have declared (x : Use × LReg) (mem : x ∈ fs) : undeclared k x.2 = false := by
    cases same : x.2 with
    | q n => exact decide_eq_false (Nat.one_le_iff_ne_zero.1 ((legal x mem).2 n same).2)
    | _ => rfl
  unfold fieldTrap
  rw [if_neg, if_neg] <;> simp only [List.any_eq_true, not_exists, not_and] <;> intro x mem <;>
    simp [declared x mem, (legal x mem).1]

/-- A queue that is not declared raises the queue trap where every field is one that its use admits. -/
theorem fieldTrap_of_undeclared {k : Kernel} {w : Nat} {fs : List (Use × LReg)} {x : Use × LReg} {q : Fin 8}
    (legal : ∀ x ∈ fs, useOk w x.1 x.2 = true) (mem : x ∈ fs) (queue : x.2 = .q q) (register : x.1 ≠ .imm)
    (zero : k.qdepth q.val = 0) : fieldTrap k w false fs = some 0x09 := by
  unfold fieldTrap
  rw [if_neg, if_pos]
  · exact List.any_eq_true.2 ⟨x, mem, by simp [queue, register, isQueue, undeclared, zero]⟩
  · simp only [List.any_eq_true, not_exists, not_and]
    intro y here
    simp [legal y here]

/-! ## The sources of a repetition -/

theorem source_eq_fieldVal (i : Iss) (u : Use) (x : LReg) (e : Table Word) (l : Nat) :
    LaneRow.source i u x e l = fieldVal i.g i.f u x e l := by
  cases x <;> rfl

/-- A field that names a queue stands for one register. -/
theorem count_of_queue {w : Nat} {u : Use} {q : Fin 8} (legal : useOk w u (.q q) = true) (register : u ≠ .imm) :
    u.count = 1 := by
  cases u with
  | src | dst => rfl
  | imm => exact absurd rfl register
  | _ => cases legal

theorem fieldVal_lt (i : Iss) {w : Nat} {u : Use} {x : LReg} (legal : useOk w u x = true)
    (register : ∀ q, x = .q q → u ≠ .imm) (e : Table Word) (l : Nat) : fieldVal i.g i.f u x e l < 2 ^ (32 * u.count) := by
  cases x with
  | q q =>
    rw [count_of_queue legal (register q rfl)]
    exact (Table.rd e 0 l).isLt
  | _ => exact readWide_lt ..

/-- Where B holds an immediate, its field pops nothing. -/
theorem popsOf_immediate {bu : Use} {b : LReg} (single : bu = .imm → isQueue b = false) (a c : LReg) :
    popsOf [a, if bu = .imm then .zero else b, c] = popsOf [a, b, c] := by
  split
  next immediate =>
    cases b with
    | q => cases single immediate
    | _ => cases a <;> rfl
  next => rfl

/-- Where B holds an immediate, no element is dealt to its field. -/
theorem dealElems_immediate {bu : Use} {b : LReg} (single : bu = .imm → isQueue b = false) (a c : LReg)
    (es : List (Table Word)) : dealElems [a, if bu = .imm then .zero else b, c] es = dealElems [a, b, c] es := by
  split
  next immediate =>
    cases b with
    | q => cases single immediate
    | _ => cases a <;> cases es <;> rfl
  next => rfl

/-! ## The issuing fibre's block (07 R171) -/

theorem issuing_withBlock {s : State} {i : Iss} (h : issuing s = some i) (b : Block) :
    issuing (s.withBlock i b) = some { i with b := b } := by
  obtain ⟨cur, group, fibre, kernel, -⟩ := issuing_parts h
  simp [issuing, groupAt, kernelAt, blockAt, State.withBlock, cur, group, fibre, kernel]

/-- Passing a word that changes nothing but its block. -/
theorem finish_withBlock {s : State} {i : Iss} (h : issuing s = some i) (quiet : i.quiet s) (b : Block) :
    finish (s.withBlock i b) i = i.past (s.withBlock i b) i.g :=
  (finish_issuing (issuing_withBlock h b) quiet :)

theorem updBlock_issuing {s : State} {i : Iss} (h : issuing s = some i) (f : Block → Block) :
    updBlock s i.g.block f = s.withBlock i (f i.b) := by
  obtain ⟨-, -, -, -, block⟩ := issuing_parts h
  simp [updBlock, State.withBlock, Table.upd_eq _ f block]

theorem withBlock_withBlock (s : State) (i : Iss) (b c : Block) : (s.withBlock i b).withBlock i c = s.withBlock i c := by
  simp [State.withBlock]

/-- The state once a row's sources are popped. -/
def LaneRow.poppedState (r : LaneRow) (s : State) (i : Iss) (m : Mods) : State :=
  if r.pops m = [] then s else s.withBlock i (r.popped i m)

/-- The issuing fibre then has its block without the elements popped. -/
theorem issuing_poppedState {s : State} {i : Iss} (h : issuing s = some i) (r : LaneRow) (m : Mods) :
    issuing (r.poppedState s i m) = some { i with b := r.popped i m } := by
  unfold LaneRow.poppedState
  split
  next noPops =>
    rw [LaneRow.popped, noPops]
    exact h
  next => exact issuing_withBlock h _

theorem withBlock_poppedState (r : LaneRow) (s : State) (i : Iss) (m : Mods) (b : Block) :
    (r.poppedState s i m).withBlock i b = s.withBlock i b := by
  unfold LaneRow.poppedState
  split
  · rfl
  · exact withBlock_withBlock ..

/-- No trap follows a word where none does in a state with another block. -/
theorem quiet_poppedState {s : State} {i : Iss} (quiet : i.quiet s) (r : LaneRow) (m : Mods) :
    i.quiet (r.poppedState s i m) := by
  unfold LaneRow.poppedState
  split <;> exact quiet

/-! ## The element pushed (07 R171) -/

/-- Lanes' results as a queue's element. -/
def elementOf (res : List (Nat × Nat)) : Table Word := res.foldl (fun t r => Table.wr t 0 r.1 (BitVec.ofNat 32 r.2)) []

/-- Of results for distinct lanes, an element holds each lane's own, and what it held before elsewhere. -/
theorem rd_foldl_wr (res : List (Nat × Nat)) (distinct : (res.map (·.1)).Nodup) {t : Table Word}
    (form : Table.wf t 0 = true) (l : Nat) :
    Table.rd (res.foldl (fun t r => Table.wr t 0 r.1 (BitVec.ofNat 32 r.2)) t) 0 l =
      ((res.find? fun r => decide (r.1 = l)).map fun r => BitVec.ofNat 32 r.2).getD (Table.rd t 0 l) := by
  induction res generalizing t with
  | nil => rfl
  | cons r rs ih =>
    obtain ⟨fresh, distinct⟩ := List.nodup_cons.1 distinct
    rw [List.foldl_cons, ih distinct (Table.wf_wr form _ _), List.find?_cons]
    by_cases here : r.1 = l
    · have absent : (rs.find? fun r => decide (r.1 = l)) = none := by
        rw [List.find?_eq_none]
        intro x mem same
        exact fresh (List.mem_map.2 ⟨x, mem, (of_decide_eq_true same).trans here.symm⟩)
      subst here
      rw [absent, decide_eq_true rfl]
      exact Table.rd_wr_same form _ _
    · rw [decide_eq_false here, Table.rd_wr_other t 0 _ here]

/-- An element holds each lane's result, and 0 in every other lane. -/
theorem rd_elementOf {res : List (Nat × Nat)} (distinct : (res.map (·.1)).Nodup) (l : Nat) :
    Table.rd (elementOf res) 0 l = BitVec.ofNat 32 (((res.find? fun x => decide (x.1 = l)).map (·.2)).getD 0) := by
  rw [elementOf, rd_foldl_wr res distinct rfl l]
  cases res.find? fun x => decide (x.1 = l) <;> rfl

theorem nodup_queueResults (r : LaneRow) (i : Iss) (m : Mods) : ((r.queueResults i m).map (·.1)).Nodup := by
  have lanes : (r.queueResults i m).map (·.1) = Mask.lanes (i.f.p0 &&& i.g.readP i.f.p0 m.msel) := by
    rw [LaneRow.queueResults, List.map_map]
    exact List.map_id _
  rw [lanes]
  exact List.nodup_range.filter _

/-! ## One repetition -/

/-- How a repetition's results come to stand: pushed on the block's queue, or in the group's registers. -/
def deliver (t : State) (i : Iss) (fm : Form) (m : Mods) (d : LReg) (res : List (Nat × Nat)) : RepOut :=
  match d with
  | .q k => .ok (updBlock t i.g.block fun b => b.push k.val (elementOf res))
  | _ => storeResults t i fm m d res

theorem ite_not_eq_true {α : Type} (b : Bool) (x y : α) : (if (!b) = true then x else y) = if b = true then y else x := by
  cases b <;> rfl

/-- A word that draws nothing asks the source for no value. -/
theorem drawTotal_eq_zero {m : Mods} {fn : LaneFn} (draws : m.rnd = 5 → ∀ x l, fn.draws m x l = 0) (x : Srcs) (ls : List Nat) :
    (if m.rnd = 5 then (ls.map (fn.draws m x)).sum else 0) = 0 := by
  split
  next sr =>
    refine List.sum_eq_zero fun n mem => ?_
    obtain ⟨l, -, rfl⟩ := List.mem_map.1 mem
    exact draws sr x l
  next => rfl

theorem openReplay_zero (s : State) (k : Kernel) (g : Group) : openReplay s k g 0 = s := by
  unfold openReplay
  split <;> simp

/-- What carries a row uses its fields as the row does. -/
theorem LaneRow.CarriedBy.uses {r : LaneRow} {m : Mods} {fm : Form} {low imm : Nat} {fn : LaneFn}
    (carried : r.CarriedBy m fm low imm fn) :
    fm.d m.ty = r.du ∧ fm.a m.ty = r.au ∧ fm.bUse m = r.bu ∧ fm.c m.ty = r.cu := by
  simpa [LaneRow.fields, Form.fields] using carried.fields

section
variable {s : State} {i : Iss} {m : Mods} {r : LaneRow} {fm : Form} {low imm : Nat} {fn : LaneFn}
  (carried : r.CarriedBy m fm low imm fn) (ready : r.queueReady i m)
include carried ready

/-- The results of a repetition over the elements popped are the row's. -/
theorem laneResults_queue :
    let es := dealElems [r.a, r.b, m.c] (popAll (r.pops m) i.b).1
    laneResults fn m
      { a := fieldVal i.g i.f r.au r.a (es.getD 0 [])
        b := if r.bu = .imm then fun _ => imm else fieldVal i.g i.f r.bu r.b (es.getD 1 [])
        c := fieldVal i.g i.f r.cu m.c (es.getD 2 []) }
      [] (Mask.lanes (activeLanes i m)) 0 = r.queueResults i m := by
  intro es
  obtain ⟨legal, -, -⟩ := ready
  have small {u : Use} {x : LReg} (mem : (u, x) ∈ r.fields m) (e : Table Word) (l : Nat) :
      fieldVal i.g i.f u x e l < 2 ^ (32 * u.count) :=
    fieldVal_lt i (legal _ mem).1 (fun q same => ((legal _ mem).2 q same).1) e l
  unfold LaneRow.queueResults
  simp only [laneResults_nil, source_eq_fieldVal]
  refine List.map_congr_left fun l _ => congrArg (Prod.mk l) (carried.value _ l _ ?_ ?_ ?_ ?_)
  · exact small (by simp [LaneRow.fields]) _ l
  · exact small (by simp [LaneRow.fields]) _ l
  · exact small (by simp [LaneRow.fields]) _ l
  · exact ite_apply ..

/-- A repetition waits where a queue is too short or full, and otherwise pops its sources and delivers its results. -/
theorem runOnce_queue (h : issuing s = some i) : runOnce s i fm m r.d r.a r.b imm fn .regs =
    if queuesReady i.k i.b (r.pops m) r.pushes then deliver (r.poppedState s i m) i fm m r.d (r.queueResults i m)
    else .stop (waitOn s i.gid i.fid (.queue (r.pops m) r.pushes)) := by
  obtain ⟨-, au, bu, cu⟩ := carried.uses
  have single (immediate : r.bu = .imm) : isQueue r.b = false := by
    have declared := (ready.1 (r.bu, r.b) (by simp [LaneRow.fields])).2
    cases same : r.b with
    | q k => exact absurd immediate (declared k same).1
    | _ => rfl
  have empty : drawValues s i.k i.g 0 = some [] := by simp [drawValues, drawAny]
  have popped : (if r.pops m = [] then s else updBlock s i.g.block fun _ => (popAll (r.pops m) i.b).2) =
      r.poppedState s i m := by
    rw [updBlock_issuing h]
    rfl
  have results := laneResults_queue carried ready
  have total := drawTotal_eq_zero carried.draws
  unfold LaneRow.pops at popped results ⊢
  unfold runOnce
  simp only [bu, au, cu, popsOf_immediate single, dealElems_immediate single, total, openReplay_zero, empty, commitDraws_zero,
    popped, results]
  unfold LaneRow.pushes deliver
  cases r.d <;> exact ite_not_eq_true ..

end

/-! ## The word -/

/-- A short-latency word with no REP whose one repetition waits is held there, its chain as it stood. -/
theorem laneRun_waits {s : State} {i : Iss} {m : Mods} (hm : i.modified s m) {fm : Form} {d a b : LReg} {low : Nat}
    {imm : Mods → Nat} {fn : LaneFn} {sink : Sink} {w : Wait} (mods : modsOk fm i.f.clause m low = true)
    (legal : fieldTrap i.k i.g.window false (fm.fields m d a b) = none)
    (free : boardHold i.g.board s i (fm.fields m d a b) = none)
    (once : runOnce s i fm m d a b (imm m) fn sink = .stop (waitOn s i.gid i.fid w)) :
    laneRun s i fm d a b low imm fn sink =
      i.put s (i.withFibre i.g { i.f with state := .waiting w, readySince := none, due := false }) := by
  obtain ⟨h, -, noRep, fresh, rfl⟩ := hm
  obtain ⟨start, stop⟩ := chain_once fresh
  have reps : runReps fm (modsOf i.f.chain) d a b (imm (modsOf i.f.chain)) fn sink 0 0 0 i.g.board 1 0 s i =
      .stop (standing (waitOn s i.gid i.fid w) i 0) := by
    simp only [runReps, stepReg, Nat.cast_zero, zero_mul, if_true, legal, free, once]
  have chain : (i.f.chain.map fun c => { c with done := 0 }) = i.f.chain := by
    cases same : i.f.chain with
    | none => rfl
    | some c =>
      obtain ⟨start, rep, pfx, pfxi, done, upto⟩ := c
      obtain rfl : done = 0 := (fresh _ same).1
      rfl
  unfold laneRun
  simp only [noRep, mods, legal, start, stop, free, reps, Option.getD_none, Bool.not_true, Bool.or_false,
    Bool.false_eq_true, if_false, if_true, Nat.sub_zero]
  unfold standing waitOn
  rw [updFibre_issuing h, updFibre_put s i _ _ (Table.look_ins_same _ _ _)]
  simp [Iss.withFibre, chain]

section
variable {s : State} {i : Iss} {m : Mods} {w : Instr} {r : LaneRow} (hm : i.modified s m) (row : laneRowOf m w = some r)
include hm row

/-- A WORD WITH QUEUE FIELDS waits where a queue is too short or full (07 R171). -/
theorem exec_queue_waits (ready : r.queueReady i m) (blocked : queuesReady i.k i.b (r.pops m) r.pushes = false) :
    exec w s = .next (i.put s (i.withFibre i.g
      { i.f with state := .waiting (.queue (r.pops m) r.pushes), readySince := none, due := false })) := by
  obtain ⟨fm, low, imm, fn, carried, same⟩ := runBy_laneRow row
  obtain ⟨legal, free, settled⟩ := ready
  rw [same, withIssuing_eq hm.1]
  refine congrArg _ (laneRun_waits hm (carried.mods _) (carried.fields ▸ fieldTrap_eq_none_of_declared legal)
    (carried.fields ▸ boardHold_eq_none free settled) ?_)
  rw [runOnce_queue carried ⟨legal, free, settled⟩ hm.1, blocked]
  rfl

/-- A WORD WITH QUEUE FIELDS that its queues let go on (07 R171): its repetition delivers, and the word is passed. -/
theorem exec_queue_delivers (ready : r.queueReady i m) (may : queuesReady i.k i.b (r.pops m) r.pushes = true) :
    ∃ fm : Form, fm.d m.ty = r.du ∧ ∀ t, deliver (r.poppedState s i m) i fm m r.d (r.queueResults i m) = .ok t →
      exec w s = .next (finish t i) := by
  obtain ⟨fm, low, imm, fn, carried, same⟩ := runBy_laneRow row
  obtain ⟨legal, free, settled⟩ := ready
  refine ⟨fm, carried.uses.1, fun t delivered => ?_⟩
  rw [same, withIssuing_eq hm.1]
  refine congrArg _ (laneRun_of_runOnce hm (carried.mods _) (carried.fields ▸ fieldTrap_eq_none_of_declared legal)
    (carried.fields ▸ boardHold_eq_none free settled) ?_)
  rw [runOnce_queue carried ⟨legal, free, settled⟩ hm.1, may]
  exact delivered

/-- Its results are pushed where D names a queue. -/
theorem exec_queue_pushes (ready : r.queueReady i m) (may : queuesReady i.k i.b (r.pops m) r.pushes = true) {q : Nat}
    (pushes : r.pushes = some q) : exec w s =
      .next (i.past (s.withBlock i ((r.popped i m).push q (elementOf (r.queueResults i m)))) i.g) := by
  obtain ⟨fm, -, delivers⟩ := exec_queue_delivers hm row ready may
  obtain ⟨h, quiet, -⟩ := hm
  unfold LaneRow.pushes at pushes
  split at pushes
  next k queue =>
    cases pushes
    have pushed (e : Table Word) : updBlock (r.poppedState s i m) i.g.block (fun b => b.push k.val e) =
        s.withBlock i ((r.popped i m).push k.val e) :=
      (updBlock_issuing (issuing_poppedState h r m) _).trans (withBlock_poppedState ..)
    rw [delivers _ (by rw [queue]; rfl), pushed, finish_withBlock h quiet]
  next => cases pushes

/-- They are written where D names registers. -/
theorem exec_queue_writes (ready : r.queueReady i m) (may : queuesReady i.k i.b (r.pops m) r.pushes = true)
    (pushes : r.pushes = none) : exec w s = .next (r.afterQueue s i m) := by
  obtain ⟨fm, du, delivers⟩ := exec_queue_delivers hm row ready may
  obtain ⟨h, quiet, -⟩ := hm
  have single : deliver (r.poppedState s i m) i fm m r.d (r.queueResults i m) =
      storeResults (r.poppedState s i m) i fm m r.d (r.queueResults i m) := by
    unfold LaneRow.pushes at pushes
    split at pushes
    next => cases pushes
    next other =>
      unfold deliver
      split
      next k queue => exact absurd queue (other k)
      next => rfl
  have stored : storeResults (r.poppedState s i m) i fm m r.d (r.queueResults i m) =
      .ok (i.put (r.poppedState s i m) (i.withFibre (resultGroup i fm m r.d (r.queueResults i m))
        (pushResults (resultGroup i fm m r.d (r.queueResults i m)) r.d (fm.d m.ty).count (r.queueResults i m) i.f))) :=
    storeResults_eq (issuing_poppedState h r m) fm m r.d (r.queueResults i m)
  rw [pushResults_last] at stored
  rw [delivers _ (single.trans stored), finish_put_last (quiet_poppedState quiet r m)]
  unfold resultGroup
  rw [du]
  rfl

/-- A queue that is not declared raises trap 0x09 (07 R172). -/
theorem exec_queue_undeclared (legal : ∀ x ∈ r.fields m, useOk i.g.window x.1 x.2 = true) {x : Use × LReg} {q : Fin 8}
    (mem : x ∈ r.fields m) (queue : x.2 = .q q) (register : x.1 ≠ .imm) (zero : i.k.qdepth q.val = 0) :
    exec w s = .next (trapHere s i 0x09 0 0) := by
  obtain ⟨fm, low, imm, fn, carried, same⟩ := runBy_laneRow row
  obtain ⟨h, -, noRep, -, rfl⟩ := hm
  rw [same, withIssuing_eq h]
  unfold laneRun
  simp only [noRep, carried.mods, carried.fields, fieldTrap_of_undeclared legal mem queue register zero]
  rfl

end

/-- Settles O50, by the one repetition that such a word is: it pops and delivers, waits, or traps. -/
theorem queueFieldsPopAndPush : Obligations.QueueFieldsPopAndPush := by
  unfold Obligations.QueueFieldsPopAndPush
  intro s i m w r hm row
  refine ⟨fun ready => ⟨fun enough place => ?_, fun lacking => ?_⟩, fun legal bad => ?_⟩
  · have may := queuesReady_iff.2 ⟨enough, place⟩
    exact ⟨fun q pushes => ⟨_, exec_queue_pushes hm row ready may pushes, rd_elementOf (nodup_queueResults r i m)⟩,
      exec_queue_writes hm row ready may⟩
  · refine exec_queue_waits hm row ready (Bool.eq_false_iff.2 fun may => ?_)
    obtain ⟨enough, place⟩ := queuesReady_iff.1 may
    obtain ⟨q, mem, short⟩ | ⟨q, pushes, full⟩ := lacking
    · exact absurd (enough q mem) (Nat.not_le.2 short)
    · exact absurd (place q pushes) (Nat.not_lt.2 full)
  · obtain ⟨x, mem, q, queue, register, zero⟩ := bad
    exact exec_queue_undeclared hm row legal mem queue register zero

end Sys2Proof.Machine
end

section
/-! SUPPORT. A state in which a group barrier takes the lanes of a linked arrival before what is linked to it has been
applied (08 R176, R185): the group whose fibre arrives is marked retired, and is no member of its own instance. -/

namespace Sys2Proof.Machine

/-- GROUP.0 of group 0 with no arrival in its phase. -/
def unarrivedBarrier : Barrier :=
  { kernel := 0, level := 0, num := 0, container := 0, gen := false, state := .idle, covered := [], held := [], came := []
    linked := [], sent := [] }

/-- A group marked retired, with a tile operation that is not yet applied and is linked to its next arrival at the instance
under key 0. -/
def retiredGroup : Group :=
  { placedGroup 0 with
      state := .retired
      tileOps := [{ id := 0, fib := 0, kind := .accz, tile := 0, flag := 1, applied := false }]
      links := [(0, [0])] }

/-- That group, its fibre of 64 lanes issuing. -/
def retiredState : State :=
  { placeWord State.reset 0 with cur := some (0, 0), groups := [(0, retiredGroup)], barriers := [(0, unarrivedBarrier)] }

/-- Its issuing fibre. -/
def retiredIss : Iss := { gid := 0, fid := 0, g := retiredGroup, f := placedFibre 0, k := placedKernel, b := placedBlock }

theorem retiredIss_plain : retiredIss.plain retiredState := by
  unfold Iss.plain Iss.quiet
  decide +kernel

theorem retiredIss_mayArrive : retiredIss.mayArrive retiredState 0 0 := by
  unfold Iss.mayArrive
  decide +kernel

theorem retiredIss_admitted : retiredIss.admitted retiredState 0 0 unarrivedBarrier := by
  unfold Iss.admitted
  decide +kernel

/-- The linked operation stands in the way of the arrival. -/
theorem retiredGroup_linkPending : linkPending retiredGroup 0 = true := by decide

/-- The lanes of group 0 that the instance under key 0 has covered after a meaning. -/
def lanesCovered (o : Out) : Option Mask :=
  match o with
  | .next t => (Table.look t.barriers 0).map fun b => b.coveredBy 0
  | _ => none

theorem lanesCovered_next {t : State} {b : Barrier} (h : Table.look t.barriers 0 = some b) :
    lanesCovered (.next t) = some (b.coveredBy 0) :=
  congrArg (Option.map fun b : Barrier => b.coveredBy 0) h

/-- No member holds the lanes of the linked arrival back: all 64 are recorded at once. -/
theorem barrw_retired_records : lanesCovered (exec (.barrw 0 0) retiredState) = some (BitVec.allOnes 64) := by decide +kernel

/-- Refutes O12: no hypothesis says that the issuing group has not retired (no step marks one so while it issues), and a
retired group's linked operations hold back no lane. In the state above BARRW should leave every lane unrecorded until the linked operation has been applied, and
records all of them. -/
theorem not_barrierWordsArriveWaitAndQuery : ¬ Obligations.BarrierWordsArriveWaitAndQuery := by
  unfold Obligations.BarrierWordsArriveWaitAndQuery
  rintro ⟨arrives, -⟩
  obtain ⟨-, t, g, ran, ⟨b, found, -, lanes, -⟩, -⟩ :=
    arrives retiredState retiredIss 0 0 unarrivedBarrier retiredIss_plain retiredIss_mayArrive retiredIss_admitted
  have key : (retiredIss.barrier retiredState 0 0).1 = 0 := by decide +kernel
  rw [key] at found lanes
  rw [if_pos ⟨rfl, retiredGroup_linkPending⟩] at lanes
  obtain ⟨unrecorded, -⟩ := lanes
  have recorded : b.coveredBy 0 = BitVec.allOnes 64 :=
    Option.some.inj ((lanesCovered_next found).symm.trans ((congrArg lanesCovered ran).symm.trans barrw_retired_records))
  exact absurd (recorded.symm.trans unrecorded) (by decide)

end Sys2Proof.Machine
end

section
/-! SUPPORT. Porter commands (09 R209, R210; 11 R254, R263): what dropping a core's copies leaves, what a transfer writes to
the scratchpad, and what the completion leaves of its group. -/

namespace Sys2Proof.Machine

/-! ## Copies dropped: only the L1s and the fills in flight change -/

/-- Only the L1s' bytes and the fills in flight differ between two states. -/
def OnlyL1 (s t : State) : Prop := ∃ l f, t = { s with l1 := l, fills := f }

theorem OnlyL1.refl (s : State) : OnlyL1 s s := ⟨s.l1, s.fills, rfl⟩

theorem OnlyL1.trans {s t u : State} : OnlyL1 s t → OnlyL1 t u → OnlyL1 s u := by
  rintro ⟨l, f, rfl⟩ ⟨l', f', rfl⟩
  exact ⟨l', f', rfl⟩

theorem OnlyL1.foldl {β : Type} {f : State → β → State} (hf : ∀ s b, OnlyL1 s (f s b)) (bs : List β) (s : State) :
    OnlyL1 s (bs.foldl f s) := by
  induction bs generalizing s with
  | nil => exact .refl s
  | cons b bs ih => exact (hf s b).trans (ih (f s b))

theorem onlyL1_l1Drop (s : State) (ck : Nat) (p : Nat → L1Byte → Bool) : OnlyL1 s (l1Drop s ck p) := ⟨_, _, rfl⟩

theorem onlyL1_unkeepFills (s : State) (ck : Nat) (p : Fill → Bool) : OnlyL1 s (unkeepFills s ck p) := ⟨_, _, rfl⟩

theorem onlyL1_l1Forget (s : State) (ck k n : Nat) : OnlyL1 s (l1Forget s ck k n) :=
  (onlyL1_l1Drop ..).trans (onlyL1_unkeepFills ..)

/-- The copies of a command's write ranges discarded leave all but the issuing core's L1 and its fills (09 R210). -/
theorem onlyL1_dropWritten (s : State) (c : PorterCmd) : OnlyL1 s (dropWritten s c) := by
  refine OnlyL1.foldl (fun s r => ?_) _ s
  split
  · exact .refl s
  · refine OnlyL1.foldl (fun s pc => ?_) _ s
    dsimp only
    split
    · exact .refl s
    · exact onlyL1_l1Forget ..

/-! ## Scratchpad bytes -/

theorem Block.writeN_size (b : Block) (a : Nat) (xs : List Byte) : (b.writeN a xs).size = b.size := by
  induction xs generalizing b a with
  | nil => rfl
  | cons x xs ih =>
    rw [Block.writeN, ih]
    split <;> rfl

/-- What a scratchpad byte reads as after one write: bytes at or beyond the size are not written (02 R50). -/
theorem Block.readByte_put {b : Block} (form : Table.wf b.scratch 0 = true) (a e : Nat) (x : Byte) :
    (if a < b.size then { b with scratch := Table.wr b.scratch 0 a x } else b).readByte e =
      if e = a ∧ e < b.size then x else b.readByte e := by
  by_cases there : a < b.size
  · rw [if_pos there]
    unfold Block.readByte
    by_cases same : a = e
    · subst same
      rw [if_pos there, if_pos ⟨rfl, there⟩]
      exact Table.rd_wr_same form a x
    · simp [Ne.symm same, Table.rd_wr_other _ _ _ same]
  · rw [if_neg there]
    have out : ¬ (e = a ∧ e < b.size) := fun h => there (h.1 ▸ h.2)
    rw [if_neg out]

/-- What a scratchpad byte reads as after a run of bytes is written. -/
theorem Block.readByte_writeN {b : Block} (form : Table.wf b.scratch 0 = true) (a e : Nat) (xs : List Byte) :
    (b.writeN a xs).readByte e = if a ≤ e ∧ e < a + xs.length ∧ e < b.size then xs.getD (e - a) 0 else b.readByte e := by
  induction xs generalizing b a with
  | nil =>
    have none_ : ¬ (a ≤ e ∧ e < a + ([] : List Byte).length ∧ e < b.size) := by simp; omega
    rw [if_neg none_]
    rfl
  | cons x xs ih =>
    have form' : Table.wf (if a < b.size then { b with scratch := Table.wr b.scratch 0 a x } else b).scratch 0 = true := by
      split
      · exact Table.wf_wr form a x
      · exact form
    have size' : (if a < b.size then { b with scratch := Table.wr b.scratch 0 a x } else b).size = b.size := by
      split <;> rfl
    rw [Block.writeN, ih form', size', Block.readByte_put form]
    by_cases here : e = a
    · subst here
      simp
    · by_cases later : a + 1 ≤ e
      · have step : e - a = (e - (a + 1)) + 1 := by omega
        have bounds : (a ≤ e ∧ e < a + (x :: xs).length ∧ e < b.size) ↔ (a + 1 ≤ e ∧ e < a + 1 + xs.length ∧ e < b.size) := by
          simp; omega
        simp only [here, false_and, if_false, bounds, step, List.getD_cons_succ]
      · rw [if_neg (by omega), if_neg (by omega), if_neg (by omega)]

theorem blockAt_updBlock {s : State} {n : Nat} {b : Block} (f : Block → Block) (h : blockAt s n = some b) :
    blockAt (updBlock s n f) n = some (f b) := by
  unfold blockAt at h ⊢
  simp [updBlock, Table.look_upd, h]

/-! ## The start of a command -/

/-- The bytes that a PFILL writes to the scratchpad (11 R257). -/
def PorterCmd.fillBytes (c : PorterCmd) : List Byte :=
  (List.range (descAt c.d 4)).map fun j => BitVec.ofNat 8 (descAt c.d 2 / 2 ^ (8 * ((descAt c.d 0 + j) % 4)))

/-- A PFILL to the scratchpad makes one write and reads nothing. -/
theorem porterWrites_fill {s : State} {id : Nat} {c : PorterCmd} (fill : c.op = .fill)
    (moves : porterEmpty .fill c.d = false) (scratch : bits (descAt c.d 5) 1 1 = 1) :
    porterWrites s id c = (.ok [{ rng := 0, scratch := true, addr := descAt c.d 0, bytes := c.fillBytes }], s) := by
  simp only [porterWrites, moves, Bool.false_eq_true, if_false, fill, scratch, decide_true, if_true, splitXfer,
    PorterCmd.fillBytes]

/-- What stops each write of a command, where no page does. -/
theorem findSome?_stops_none {β : Type} {s : State} {c : PorterCmd} {xs : List Xfer}
    (served : ∀ x ∈ xs, x.scratch = false → meetEngine s c.ctx (coreDie c.core) x.rng x.addr x.bytes.length true = none)
    {p : Option Halt → Option β} (nothing : p none = none) :
    (xs.map fun x => if x.scratch then none
      else meetEngine s c.ctx (coreDie c.core) x.rng x.addr x.bytes.length true).findSome? p = none := by
  simp only [List.findSome?_eq_none_iff, List.mem_map, forall_exists_index, and_imp]
  rintro - x hx rfl
  split
  · exact nothing
  · next space => rw [served x hx (by simpa using space), nothing]

/-- A command that may start and whose accesses nothing stops makes all its writes (09 R209). -/
theorem execPorterStart_starts {s s' : State} {id : Nat} {c : PorterCmd} {xs : List Xfer}
    (here : Table.look s.porter id = some c) (fresh : c.started = false) (may : porterMayStart s id c = true)
    (writes : porterWrites s id c = (.ok xs, s'))
    (served : ∀ x ∈ xs, x.scratch = false → meetEngine s' c.ctx (coreDie c.core) x.rng x.addr x.bytes.length true = none) :
    execPorterStart id s = .next { (applyXfers s' c xs).2 with
      porter := Table.ins (applyXfers s' c xs).2.porter id
        { c with started := true, status := 0, info := 0, failAddr := 0, wct := (applyXfers s' c xs).1 } } := by
  unfold execPorterStart
  simp only [here, fresh, may, writes, Bool.not_true, Bool.false_eq_true, or_self, if_false]
  rw [findSome?_stops_none served rfl]
  dsimp only
  rw [findSome?_stops_none served rfl]

/-! ## The completion of a command -/

theorem groupAt_flagDown {s : State} {gid : Nat} {g : Group} (k : Nat) (h : groupAt s gid = some g) :
    groupAt (flagDown s gid k) gid = some (g.lowered k) := by
  unfold flagDown Group.lowered
  split
  · exact h
  · exact groupAt_updGroup _ h

theorem Group.lowered_keeps (g : Group) (k : Nat) :
    (g.lowered k).fibres = g.fibres ∧ (g.lowered k).v = g.v ∧ (g.lowered k).s = g.s ∧ (g.lowered k).tokens = g.tokens := by
  unfold Group.lowered
  split <;> exact ⟨rfl, rfl, rfl, rfl⟩

theorem Group.lowered_flags {g h : Group} (k : Nat) (same : g.flags = h.flags) : (g.lowered k).flags = (h.lowered k).flags := by
  unfold Group.lowered
  split
  · exact same
  · exact congrArg (fun t => Table.wr t 0 k (Table.rd t 0 k - 1)) same

theorem flagDown_rest (s : State) (gid k : Nat) :
    (flagDown s gid k).porter = s.porter ∧ (flagDown s gid k).mem = s.mem := by
  unfold flagDown
  split <;> exact ⟨rfl, rfl⟩

/-- The state with the issuing core's copies of what a command wrote gone, where its status says that it wrote. -/
def PorterCmd.copiesGone (c : PorterCmd) (s : State) : State := if c.status = 3 ∨ c.status = 4 then s else dropWritten s c

theorem PorterCmd.onlyL1_copiesGone (c : PorterCmd) (s : State) : OnlyL1 s (c.copiesGone s) := by
  unfold PorterCmd.copiesGone
  split
  · exact .refl s
  · exact onlyL1_dropWritten s c

/-- A group in which a word is written to the token of a command, which is then free (11 R263). -/
def Group.told (g : Group) (id k : Nat) (x : Word) : Group :=
  { g.writeS k x with tokens := Table.sel g.tokens fun _ v => v ≠ id }

theorem Group.told_s (g : Group) (id k : Nat) (x : Word) : (g.told id k x).s = (g.writeS k x).s := rfl

theorem Group.told_tokens (g : Group) (id k : Nat) (x : Word) :
    (g.told id k x).tokens = g.tokens.filter fun e => decide (e.2 ≠ id) := rfl

theorem Group.told_keeps (g : Group) (id k : Nat) (x : Word) :
    (g.told id k x).flags = g.flags ∧ (g.told id k x).fibres = g.fibres ∧ (g.told id k x).v = g.v := ⟨rfl, rfl, rfl⟩

/-- The word that a command's token gets (11 R263). -/
def PorterCmd.answer (c : PorterCmd) : Word := BitVec.ofNat 32 (c.status * 2 ^ 28 + c.info)

/-- The state without a command's entry. -/
def State.withoutPorter (s : State) (id : Nat) : State := { s with porter := Table.del s.porter id }

/-- The state with a completed command gone and its token written. -/
def PorterCmd.reportedIn (c : PorterCmd) (s : State) (id k : Nat) : State :=
  updGroup ((c.copiesGone s).withoutPorter id) c.gid fun g => g.told id k c.answer

section
variable {s : State} {id : Nat} {c : PorterCmd} (here : Table.look s.porter id = some c) (started : c.started = true)
  (passed : c.wct = 0 ∨ c.wct < gtOf s (coreDie c.core))
include here started passed

/-- A command with a token, once GT has passed its writes. -/
theorem execPorterComplete_token {k : Nat} (token : c.token = some k) :
    execPorterComplete id s =
      .next (flagDown (c.reportedIn s id k) c.gid c.flag) := by
  have due : ¬ (c.wct ≠ 0 ∧ gtOf s (coreDie c.core) ≤ c.wct) := by omega
  unfold execPorterComplete
  rw [here]
  dsimp only
  rw [if_neg (by simp [started, due]), token]
  rfl

/-- A command without a token and without a failure to report. -/
theorem execPorterComplete_untold (token : c.token = none) (well : c.status = 0) :
    execPorterComplete id s = .next (flagDown ((c.copiesGone s).withoutPorter id) c.gid c.flag) := by
  have due : ¬ (c.wct ≠ 0 ∧ gtOf s (coreDie c.core) ≤ c.wct) := by omega
  unfold execPorterComplete
  rw [here]
  dsimp only
  rw [if_neg (by simp [started, due]), token]
  dsimp only
  rw [if_pos well]
  rfl

end

/-- Settles O33: a command that nothing stops applies exactly the writes computed at its start; a PFILL's one write is read
back byte by byte; the completion changes L1s, its own entry and its own group. -/
theorem porterEventsTakeEffect : Obligations.PorterEventsTakeEffect := by
  unfold Obligations.PorterEventsTakeEffect
  refine ⟨fun s s' id c xs here fresh may writes served => ?_, fun s id c b here fresh may fill moves scratch block form => ?_,
    fun s id c g here started passed group reported => ?_⟩
  · exact ⟨_, execPorterStart_starts here fresh may writes served, rfl, rfl, Table.look_ins_same _ _ _⟩
  · refine ⟨_, execPorterStart_starts here fresh may (porterWrites_fill fill (fill ▸ moves) scratch) (by simp),
      b.writeN (descAt c.d 0) c.fillBytes, blockAt_updBlock _ block, Block.writeN_size _ _ _, rfl, fun a => ?_⟩
    rw [Block.readByte_writeN form]
    have len : c.fillBytes.length = descAt c.d 4 := by simp [PorterCmd.fillBytes]
    rw [len]
    split
    · next inside =>
      have at_ : a - descAt c.d 0 < descAt c.d 4 := by omega
      have sum : descAt c.d 0 + (a - descAt c.d 0) = a := by omega
      simp [PorterCmd.fillBytes, List.getD_eq_getElem?_getD, at_, sum]
    · rfl
  · obtain ⟨l, f, only⟩ := c.onlyL1_copiesGone s
    cases token : c.token with
    | some k =>
      have told : groupAt (c.reportedIn s id k) c.gid = some (g.told id k c.answer) :=
        groupAt_updGroup _ (by rw [only]; exact group)
      obtain ⟨porter, mem⟩ := flagDown_rest (c.reportedIn s id k) c.gid c.flag
      obtain ⟨fibres, v, sregs, tokens⟩ := Group.lowered_keeps (g.told id k c.answer) c.flag
      obtain ⟨flags', fibres', v'⟩ := g.told_keeps id k c.answer
      refine ⟨_, execPorterComplete_token here started passed token, porter.trans (by rw [PorterCmd.reportedIn, only]; rfl),
        mem.trans (by rw [PorterCmd.reportedIn, only]; rfl), _, groupAt_flagDown _ told, Group.lowered_flags _ flags', fibres.trans fibres',
        v.trans v', ?_, nofun⟩
      rintro _ ⟨⟩
      exact ⟨sregs.trans (g.told_s id k c.answer), tokens.trans (g.told_tokens id k c.answer)⟩
    | none =>
      have still : groupAt ((c.copiesGone s).withoutPorter id) c.gid = some g := by rw [only]; exact group
      obtain ⟨porter, mem⟩ := flagDown_rest ((c.copiesGone s).withoutPorter id) c.gid c.flag
      obtain ⟨fibres, v, sregs, tokens⟩ := Group.lowered_keeps g c.flag
      exact ⟨_, execPorterComplete_untold here started passed token (reported.resolve_left (· token)),
        porter.trans (by rw [only]; rfl), mem.trans (by rw [only]; rfl), _, groupAt_flagDown _ still, rfl, fibres, v, nofun,
        fun _ => ⟨sregs, tokens⟩⟩

end Sys2Proof.Machine
end

section
/-! SUPPORT. Porter words (11 R253 to R255): the command that a word enters, and the three answers that it can give. -/

namespace Sys2Proof.Machine

/-- The descriptor as a Porter word reads it at issue (11 R255). -/
def Iss.descriptor (i : Iss) (d : BitVec 6) : List Word := (List.range 8).map fun j => i.g.readS (d.toNat + j)

/-- The command that a Porter word enters where its descriptor is rejected, but for its report (11 R254). -/
def Iss.porterCmd (i : Iss) (op : PorterOp) (t d : BitVec 6) (k : BitVec 1) (f : BitVec 4) : PorterCmd :=
  { op, gid := i.gid, fib := i.fid, core := i.ck, ctx := i.k.ctx, block := i.g.block, d := i.descriptor d,
    token := if k = 1 then some t.toNat else none, flag := f.toNat, ranges := [], started := true, wct := 0,
    status := 0, info := 0, failAddr := 0, coins := [], outl := i.k.sample 0x023, dup := none }

/-- The group once command `n` has raised its flag and, with K, has its token pending (11 R254). -/
def Iss.ordered (i : Iss) (t : BitVec 6) (k : BitVec 1) (f : BitVec 4) (n : Nat) : Group :=
  { i.counted f.toNat with tokens := if k = 1 then Table.ins i.g.tokens t.toNat n else i.g.tokens }

/-- The state with a command at the end of the Porter's table. -/
def State.withPorter (s : State) (c : PorterCmd) : State :=
  { s with porter := Table.ins s.porter s.nextId c, nextId := s.nextId + 1 }

theorem porterRow_exec {w : Instr} {op : PorterOp} {t d : BitVec 6} {k : BitVec 1} {f : BitVec 4}
    (row : porterRow w = some (op, t, d, k, f)) (s : State) : exec w s = porterWord op t d k f s := by
  cases w
  case pcopy | ptile | pstore | pgath | pscat | pfill => cases row; rfl
  all_goals cases row

/-- A command enters the table, its region committed before it, and its word is passed. -/
theorem enterPorter_emptied {s : State} {i : Iss} (quiet : i.quiet s) (empty : i.f.buffer = []) {f : BitVec 4}
    (numbered : f ≠ 0) {t : BitVec 6} {k : BitVec 1} {c : PorterCmd} (flag : c.flag = f.toNat)
    (token : c.token = if k = 1 then some t.toNat else none) :
    enterPorter (i.put s i.emptied) i c = i.put (s.withPorter c) (i.withFibre (i.ordered t k f s.nextId) i.passedFresh) := by
  have entered : flagUp (i.put (s.withPorter c)
      { i.emptied with tokens := if k = 1 then Table.ins i.g.tokens t.toNat s.nextId else i.g.tokens }) i.gid f.toNat =
        i.put (s.withPorter c) (i.withFibre (i.ordered t k f s.nextId) i.f.recommitted) := by
    rw [flagUp_put, if_neg numbered]
    rfl
  unfold enterPorter freshId
  dsimp only
  rw [flag, token]
  split
  · next given =>
    have with_ : k = 1 := by by_contra without; rw [if_neg without] at given; cases given
    rw [if_pos with_] at given entered
    cases given
    refine (congrArg (finish · i) ?_).trans (finish_emptied (t := s.withPorter c) quiet empty _)
    exact (congrArg (flagUp · i.gid f.toNat) (updGroup_put (s.withPorter c) ..)).trans entered
  · next absent =>
    have without : ¬k = 1 := by intro with_; rw [if_pos with_] at absent; cases absent
    rw [if_neg without] at entered
    exact (congrArg (finish · i) entered).trans (finish_emptied (t := s.withPorter c) quiet empty _)

theorem map_readS_range (i : Iss) (d : BitVec 6) : ((List.range 8).map (d.toNat + ·)).map i.g.readS = i.descriptor d :=
  List.map_map

/-- A flag with room holds no word back. -/
theorem countedOn_room {i : Iss} {f : BitVec 4} (room : i.flagRoom f) (s t : State) : countedOn s i f t = t :=
  if_neg (Nat.not_le.2 room.2.2)

theorem Iss.flagRoom.ne_zero {i : Iss} {f : BitVec 4} (room : i.flagRoom f) : f ≠ 0 := by
  rintro rfl
  exact absurd room.1 (by simp)

theorem porterFields_accepted {i : Iss} {t d : BitVec 6} {k : BitVec 1} {f : BitVec 4} (even : d.toNat % 8 = 0)
    (room : i.flagRoom f) (free : k = 1 ∨ t = 0) :
    (decide (d.toNat % 8 = 0) && flagField f && (k = 1 || t = 0)) = true := by
  simpa [even, flagField, room.1, room.2.1] using free

/-- What a live group draws depends on no group's record. -/
theorem drawValues_put (s : State) (i : Iss) (g g' : Group) (k : Kernel) (n : Nat) (live : noiseMode k = 0) :
    drawValues (i.put s g) k g' n = drawValues s k g' n := by
  have kept : ¬(noiseMode k = 2 ∧ (!g'.logStopped) = true) := by omega
  unfold drawValues drawAny
  dsimp only
  rw [if_neg kept, if_neg kept]
  rfl

section
variable {s : State} {i : Iss} (h : i.plain s) (empty : i.f.buffer = []) {op : PorterOp} {t d : BitVec 6} {k : BitVec 1}
  {f : BitVec 4} (even : d.toNat % 8 = 0) (room : i.flagRoom f) (free : k = 1 ∨ t = 0)
  (ready : i.settled ((List.range 8).map (d.toNat + ·) ++ if k = 1 then [t.toNat] else []))
include h empty even room free ready

/-- A Porter word whose descriptor fails a check (11 R255). -/
theorem porterWord_rejects {p r st : Nat}
    (bad : firstBad (commandChecks op (i.descriptor d) i.b.size) = some (p, r, st)) :
    porterWord op t d k f s = .next (i.put (s.withPorter { i.porterCmd op t d k f with status := st, info := r, failAddr := r })
      (i.withFibre (i.ordered t k f s.nextId) i.passedFresh)) := by
  refine (uniform_runs h _ (porterFields_accepted even room free) ready).trans (congrArg _ ?_)
  rw [committing_empty h.1 empty]
  dsimp only
  rw [map_readS_range, bad]
  dsimp only
  rw [countedOn_room room]
  exact enterPorter_emptied h.2.2 empty room.ne_zero rfl rfl

/-- A Porter word whose descriptor passes, its ranges finding room (09 R206; 11 R254). -/
theorem porterWord_enters {coins : List Nat} (good : firstBad (commandChecks op (i.descriptor d) i.b.size) = none)
    (fits : lockEntries s i.ck + ((porterRanges op (i.descriptor d)).map lockRange).length ≤ 256) (live : noiseMode i.k = 0)
    (drawn : drawValues s i.k i.g (porterDraws op (i.descriptor d)) = some coins) :
    porterWord op t d k f s = .next (i.put
      ((s.afterDraws (porterDraws op (i.descriptor d))).withPorter { i.porterCmd op t d k f with
        started := false, ranges := (porterRanges op (i.descriptor d)).map lockRange, coins := coins })
      (i.withFibre (i.ordered t k f s.nextId) i.passedFresh)) := by
  have full : ¬256 < lockEntries (i.put s i.emptied) i.ck + ((porterRanges op (i.descriptor d)).map lockRange).length :=
    Nat.not_lt.2 fits
  have resumed := issuing_put h.1 i.emptied i.f.recommitted rfl rfl (look_withFibre ..)
  refine (uniform_runs h _ (porterFields_accepted even room free) ready).trans (congrArg _ ?_)
  rw [committing_empty h.1 empty]
  dsimp only
  rw [map_readS_range, good]
  dsimp only
  rw [if_neg full, countedOn_room room, openReplay_live live, drawValues_put _ _ _ _ _ _ live, drawn]
  dsimp only
  rw [commitDraws_live resumed live]
  exact enterPorter_emptied (s := s.afterDraws _) h.2.2 empty room.ne_zero rfl rfl

end

/-- Settles O23: with nothing buffered a Porter word commits its empty region and enters the command that the checks of its
descriptor call for. -/
theorem porterWordEntersItsCommand : Obligations.PorterWordEntersItsCommand := by
  unfold Obligations.PorterWordEntersItsCommand
  intro s i w op t d k f h row even room free empty ready
  rw [porterRow_exec row]
  exact ⟨fun p r st bad => porterWord_rejects h empty even room free ready bad,
    fun coins good fits live drawn => porterWord_enters h empty even room free ready good fits live drawn⟩

end Sys2Proof.Machine
end

section
/-! SUPPORT. Returns of accesses (11 R234, R243, R246, R251, R252): a return is its operation's destinations and flag. -/

namespace Sys2Proof.Machine

/-! ## What a return changes -/

theorem flagDown_updGroup {s : State} {gid : Nat} {g : Group} (f : Group → Group) (k : Nat) (h : groupAt s gid = some g) :
    flagDown (updGroup s gid f) gid k = setGroup s gid ((f g).lowered k) := by
  have changed : updGroup s gid f = setGroup s gid (f g) := congrArg (fun t => { s with groups := t }) (Table.upd_eq _ _ h)
  rw [changed]
  unfold flagDown Group.lowered
  split
  · rfl
  · refine congrArg (fun t => { s with groups := t }) ?_
    exact (Table.upd_eq _ _ (Table.look_ins_same ..)).trans (Table.ins_ins ..)

section
variable {s : State} {id : Nat} {o : Op} {g : Group} (here : Table.look s.ops id = some o)

theorem returnOp_returned (group : groupAt s o.gid = some g) (addr : addressed s o.gid o.ident = true)
    (plain : o.acquire = false) : returnOp s id o = o.returned id s g := by
  have still : addressed { s with ops := Table.del s.ops id } o.gid o.ident = true := addr
  unfold returnOp
  dsimp only
  rw [still, plain]
  exact flagDown_updGroup (s := { s with ops := Table.del s.ops id }) _ _ group

/-- Data for a group that has left its slot is dropped (07 R173). -/
theorem returnOp_dropped (gone : addressed s o.gid o.ident = false) :
    returnOp s id o = dropLate { s with ops := Table.del s.ops id } o.ident := by
  have still : addressed { s with ops := Table.del s.ops id } o.gid o.ident = false := gone
  unfold returnOp
  dsimp only
  rw [still]
  rfl

include here

theorem returnWhen_returns {kinds : List OpKind} {ready : Op → Bool} (kind : o.kind ∈ kinds) (due : ready o = true) :
    returnWhen s id kinds ready = .next (returnOp s id o) := by
  unfold returnWhen
  simp only [here]
  rw [if_pos ⟨List.contains_iff_mem.2 kind, due⟩]

/-- A point TEX that is complete writes its channels (14 R316). -/
theorem execTexComplete_writes (group : groupAt s o.gid = some g) (addr : addressed s o.gid o.ident = true)
    (done : o.complete = true) (kind : o.kind = .tex) (point : Table.look s.evals id = none) :
    execTexComplete id s = .next { s with
      ops := Table.del s.ops id, groups := Table.ins s.groups o.gid ((g.settled id (o.writeTex g)).lowered o.flag) } := by
  have still : addressed { s with ops := Table.del s.ops id } o.gid o.ident = true := addr
  unfold execTexComplete
  rw [here, point]
  dsimp only
  rw [if_pos ⟨kind, done⟩, still]
  exact congrArg _ (flagDown_updGroup (s := { s with ops := Table.del s.ops id }) _ _ group)

/-- A copy of one lane fills its 32 bytes of the scratchpad, zeros after the valid ones (11 R252). -/
theorem execLcpyComplete_copies {b : Block} {c : Nat × Nat × Nat} (group : groupAt s o.gid = some g)
    (addr : addressed s o.gid o.ident = true) (plain : o.acquire = false) (done : o.complete = true) (kind : o.kind = .lcpy)
    (block : blockAt s g.block = some b) (one : o.copies = [c]) :
    execLcpyComplete id s = .next (o.returned id
      { s with blocks := Table.ins s.blocks g.block
                 (b.writeN c.2.1 (o.laneBytes c.1 c.2.2 ++ List.replicate (32 - c.2.2) 0)) } g) := by
  unfold execLcpyComplete
  rw [here]
  dsimp only
  rw [if_pos ⟨kind, done⟩, group]
  dsimp only
  rw [if_pos addr, one]
  refine congrArg _ (Eq.trans ?_ (returnOp_returned (s := { s with blocks := _ }) group addr plain))
  exact congrArg (fun t => returnOp { s with blocks := t } id o) (Table.upd_eq _ _ block)

end

/-! ## What a load's destinations hold -/

theorem writeWide_one (g : Group) (k : Fin 192) (l x : Nat) :
    writeWide g (.v k) l 1 x = g.writeV k.val l (BitVec.ofNat 32 x) := rfl

/-- One register written in some lanes, each with its own value. -/
theorem readV_foldl_writeWide (k : Fin 192) (x : Nat → Nat) (ls : List Nat) {g : Group} (form : Table.wf g.v 0 = true) (l : Nat) :
    Table.wf (ls.foldl (fun g l => writeWide g (.v k) l 1 (x l)) g).v 0 = true ∧
      (ls.foldl (fun g l => writeWide g (.v k) l 1 (x l)) g).readV k.val l =
        if l ∈ ls then BitVec.ofNat 32 (x l) else g.readV k.val l := by
  induction ls generalizing g with
  | nil => exact ⟨form, rfl⟩
  | cons j js ih =>
    have form' : Table.wf (g.writeV k.val j (BitVec.ofNat 32 (x j))).v 0 = true := Table.wf_wr form ..
    obtain ⟨kept, reads⟩ := ih form'
    refine ⟨kept, reads.trans ?_⟩
    by_cases later : l ∈ js
    · simp [later]
    · rw [if_neg later]
      by_cases here : j = l
      · subst here
        rw [if_pos List.mem_cons_self]
        exact Table.rd_wr_same form ..
      · rw [if_neg (by simp [later, Ne.symm here])]
        exact Table.rd_wr_other _ _ _ (by omega)

/-- A load writes a register in its lanes, and zero in those that it zeroes (11 R234). -/
theorem readV_writeDest {o : Op} {k : Fin 192} (dest : o.dest = .lane (.v k) 1) (id : Nat) {g : Group}
    (form : Table.wf g.v 0 = true) {l : Nat} (small : l < 64) :
    (o.writeDest id g).readV k.val l = if o.lanes.getLsbD l = true then BitVec.ofNat 32 (o.laneValue l)
      else if o.zero.getLsbD l = true then 0 else g.readV k.val l := by
  obtain ⟨form', zeroed⟩ := readV_foldl_writeWide k (fun _ => 0) (Mask.lanes o.zero) form l
  obtain ⟨-, written⟩ := readV_foldl_writeWide k o.laneValue (Mask.lanes o.lanes) form' l
  unfold Op.writeDest
  rw [dest]
  refine written.trans ?_
  simp only [mem_lanes, small, true_and, zeroed]
  rfl

end Sys2Proof.Machine
end

section
/-! SUPPORT. Fills sent from homes (09 R192, R203; 11 R233): the grain that a fill brings, and the fill that a home sends. -/

namespace Sys2Proof.Machine

/-! ## Least and greatest of some numbers -/

theorem minOf_eq_min? (xs : List Nat) : minOf xs = xs.min? := by
  have from_ (ys : List Nat) (x : Nat) :
      ys.foldl (fun m x => match m with | none => some x | some y => some (min x y)) (some x) = some (ys.foldl min x) := by
    induction ys generalizing x with
    | nil => rfl
    | cons y ys ih =>
      rw [List.foldl_cons, List.foldl_cons, Nat.min_comm x y]
      exact ih _
  cases xs with
  | nil => rfl
  | cons x xs => exact (from_ xs x).trans List.min?_cons'.symm

theorem max?_eq_maxOf {xs : List Nat} (some_ : xs ≠ []) : xs.max? = some (maxOf xs) := by
  cases xs with
  | nil => cases some_ rfl
  | cons x xs =>
    rw [List.max?_cons', maxOf, List.foldl_cons, Nat.zero_max]

/-! ## The grain (11 R233) -/

/-- The first and last byte within a line of a piece that touches it. -/
def Piece.span (p : Piece) (line : Nat) : Nat × Nat :=
  (max p.addr (line * 128) % 128, min (p.addr + p.n - 1) (line * 128 + 127) % 128)

/-- Whether a piece touches a line. -/
def Piece.meets (p : Piece) (line : Nat) : Prop := p.addr / 128 ≤ line ∧ line ≤ (p.addr + p.n - 1) / 128

/-- The places within a line of a piece's bytes lie in its span, and both its ends are among them. -/
theorem Piece.mem_span {p : Piece} (n : 0 < p.n) {line : Nat} (meets : p.meets line) :
    (∀ a, p.addr ≤ a → a < p.addr + p.n → a / 128 = line → (p.span line).1 ≤ a % 128 ∧ a % 128 ≤ (p.span line).2) ∧
      (∃ a, p.addr ≤ a ∧ a < p.addr + p.n ∧ a / 128 = line ∧ a % 128 = (p.span line).1) ∧
      ∃ a, p.addr ≤ a ∧ a < p.addr + p.n ∧ a / 128 = line ∧ a % 128 = (p.span line).2 := by
  obtain ⟨low, high⟩ := meets
  refine ⟨fun a _ _ _ => ?_, ⟨max p.addr (line * 128), ?_, ?_, ?_, rfl⟩,
    ⟨min (p.addr + p.n - 1) (line * 128 + 127), ?_, ?_, ?_, rfl⟩⟩
  · simp only [Piece.span]
    omega
  all_goals omega

theorem Piece.meets_of_mem {p : Piece} {line a : Nat} (low : p.addr ≤ a) (high : a < p.addr + p.n) (here : a / 128 = line) :
    p.meets line := by
  unfold Piece.meets
  omega

/-- The spans of an operation's pieces in a line. -/
def Op.spans (o : Op) (line : Nat) : List (Nat × Nat) :=
  o.pieces.filterMap fun p => if p.addr / 128 ≤ line ∧ line ≤ (p.addr + p.n - 1) / 128 then some (p.span line) else none

theorem Op.mem_spans {o : Op} {line : Nat} {x : Nat × Nat} :
    x ∈ o.spans line ↔ ∃ p ∈ o.pieces, p.meets line ∧ p.span line = x := by
  simp [Op.spans, List.mem_filterMap, Piece.meets]

/-- The size of the grain whose first and last bytes are these. -/
def grainSize (lo hi : Nat) : Nat :=
  if lo / 16 = hi / 16 then 16 else if lo / 32 = hi / 32 then 32 else if lo / 64 = hi / 64 then 64 else 128

/-- The first byte named of a line. -/
def Op.first (o : Op) (line : Nat) : Nat := (minOf ((o.spans line).map (·.1))).getD 0

/-- The last byte named of a line. -/
def Op.last (o : Op) (line : Nat) : Nat := maxOf ((o.spans line).map (·.2))

theorem Op.grain_eq (o : Op) (line : Nat) : o.grain line =
    (o.first line / grainSize (o.first line) (o.last line) * grainSize (o.first line) (o.last line),
      grainSize (o.first line) (o.last line)) := rfl

section
variable {o : Op} {line : Nat} (sized : ∀ q ∈ o.pieces, 0 < q.n) (touched : ∃ p ∈ o.pieces, p.meets line)
include sized touched

/-- The first byte named of a line is named, and the others come after it. -/
theorem Op.first_spec : (∃ p ∈ o.pieces, ∃ a, p.addr ≤ a ∧ a < p.addr + p.n ∧ a / 128 = line ∧ a % 128 = o.first line) ∧
    ∀ p ∈ o.pieces, ∀ a, p.addr ≤ a → a < p.addr + p.n → a / 128 = line → o.first line ≤ a % 128 := by
  obtain ⟨p, mem, meets⟩ := touched
  have filled : (o.spans line).map (·.1) ≠ [] := by
    simpa using List.ne_nil_of_mem (Op.mem_spans.2 ⟨p, mem, meets, rfl⟩)
  obtain ⟨m, least⟩ : ∃ m, ((o.spans line).map (·.1)).min? = some m := by
    cases h : ((o.spans line).map (·.1)).min? with
    | none => exact absurd (List.min?_eq_none_iff.1 h) filled
    | some m => exact ⟨m, rfl⟩
  have first : o.first line = m := by rw [Op.first, minOf_eq_min?, least]; rfl
  obtain ⟨attained, below⟩ := List.min?_eq_some_iff.1 least
  rw [first]
  constructor
  · obtain ⟨x, span, rfl⟩ := List.mem_map.1 attained
    obtain ⟨q, mem, meets, rfl⟩ := Op.mem_spans.1 span
    obtain ⟨-, ⟨a, low⟩, -⟩ := Piece.mem_span (sized q mem) meets
    exact ⟨q, mem, a, low⟩
  · intro q mem a low high here
    have meets := Piece.meets_of_mem low high here
    exact (below _ (List.mem_map.2 ⟨_, Op.mem_spans.2 ⟨q, mem, meets, rfl⟩, rfl⟩)).trans
      ((Piece.mem_span (sized q mem) meets).1 a low high here).1

/-- The last byte named of a line is named, and the others come before it. -/
theorem Op.last_spec : (∃ p ∈ o.pieces, ∃ a, p.addr ≤ a ∧ a < p.addr + p.n ∧ a / 128 = line ∧ a % 128 = o.last line) ∧
    ∀ p ∈ o.pieces, ∀ a, p.addr ≤ a → a < p.addr + p.n → a / 128 = line → a % 128 ≤ o.last line := by
  obtain ⟨p, mem, meets⟩ := touched
  have filled : (o.spans line).map (·.2) ≠ [] := by
    simpa using List.ne_nil_of_mem (Op.mem_spans.2 ⟨p, mem, meets, rfl⟩)
  obtain ⟨attained, above⟩ := List.max?_eq_some_iff.1 (max?_eq_maxOf filled)
  constructor
  · obtain ⟨x, span, at_⟩ := List.mem_map.1 attained
    obtain ⟨q, mem, meets, rfl⟩ := Op.mem_spans.1 span
    obtain ⟨-, -, a, low, high, here, place⟩ := Piece.mem_span (sized q mem) meets
    exact ⟨q, mem, a, low, high, here, place.trans at_⟩
  · intro q mem a low high here
    have meets := Piece.meets_of_mem low high here
    exact ((Piece.mem_span (sized q mem) meets).1 a low high here).2.trans
      (above _ (List.mem_map.2 ⟨_, Op.mem_spans.2 ⟨q, mem, meets, rfl⟩, rfl⟩))

/-- The grain is an aligned unit that covers what the operation names of the line, and no aligned unit that does is smaller. -/
theorem Op.grain_spec : aligned (o.grain line).1 (o.grain line).2 ∧ o.within line (o.grain line).1 (o.grain line).2 ∧
    ∀ off size, aligned off size → o.within line off size → (o.grain line).2 ≤ size := by
  obtain ⟨⟨p, memP, a, lowA, highA, hereA, first⟩, below⟩ := Op.first_spec sized touched
  obtain ⟨⟨q, memQ, b, lowB, highB, hereB, last⟩, above⟩ := Op.last_spec sized touched
  have order : o.first line ≤ o.last line := first ▸ above p memP a lowA highA hereA
  have small : o.last line < 128 := by omega
  rw [Op.grain_eq]
  generalize o.first line = lo at *
  generalize o.last line = hi at *
  have size : grainSize lo hi ∈ [16, 32, 64, 128] ∧ lo / grainSize lo hi = hi / grainSize lo hi := by
    unfold grainSize
    split
    · next h => exact ⟨by simp, h⟩
    · split
      · next h => exact ⟨by simp, h⟩
      · split
        · next h => exact ⟨by simp, h⟩
        · exact ⟨by simp, by omega⟩
  refine ⟨⟨size.1, Nat.mul_mod_left .., ?_⟩, fun r memR c low high here => ?_, fun off n unit covers => ?_⟩
  · exact lt_of_le_of_lt (Nat.div_mul_le_self lo _) (by omega)
  · have l := below r memR c low high here
    have h := above r memR c low high here
    obtain ⟨listed, same⟩ := size
    generalize grainSize lo hi = z at *
    simp only [List.mem_cons, List.not_mem_nil, or_false] at listed
    obtain rfl | rfl | rfl | rfl := listed <;> omega
  · have l := covers p memP a lowA highA hereA
    have h := covers q memQ b lowB highB hereB
    obtain ⟨listed, whole, inside⟩ := unit
    unfold grainSize
    simp only [List.mem_cons, List.not_mem_nil, or_false] at listed
    obtain rfl | rfl | rfl | rfl := listed <;> split_ifs <;> omega

end

/-! ## The fill that a home sends (09 R192) -/

/-- Whether a piece's fill comes under a lease (09 R192). -/
def Piece.leased (p : Piece) (lease : Nat) : Bool := p.cache && decide (2 ≤ p.scope) && decide (lease ≠ 0)

/-- When the lease of a fill sent now ends, 0 for none (09 R192). -/
def Piece.expiry (p : Piece) (lease gt : Nat) : Nat := if p.leased lease then gt + lease else 0

/-- The state at a line's home once a fill's lease is noted and the line read there (09 R192). -/
def State.served (s : State) (o : Op) (line : Nat) (leased : Bool) (e : Nat) : State :=
  homeTouch (if leased then updHome s line fun h => { h with eMax := max h.eMax e } else s) o.ctx (coreDie o.core) line false

theorem State.served_keeps (s : State) (o : Op) (line : Nat) (leased : Bool) (e : Nat) :
    let v := s.served o line leased e
    v.mem = s.mem ∧ v.groups = s.groups ∧ v.ops = s.ops ∧ v.l1 = s.l1 ∧ v.fills = s.fills ∧ v.nextId = s.nextId := by
  unfold State.served
  dsimp only
  obtain ⟨c, ds, out, l2, lo, ld, ws, touched⟩ :=
    homeTouch_eq (if leased then updHome s line fun h => { h with eMax := max h.eMax e } else s) o.ctx (coreDie o.core) line false
  rw [touched]
  split <;> exact ⟨rfl, rfl, rfl, rfl, rfl, rfl⟩

/-- The fill of a line that its home sends an operation. -/
def Op.fillOf (o : Op) (mem : List Host.Cell) (op line : Nat) (p : Piece) (leased : Bool) (e n : Nat) : Fill :=
  { op, ident := o.ident, core := o.core, ctx := o.ctx, line, off := (o.grain line).1
    bytes := Memory.readN mem (line * 128 + (o.grain line).1) (o.grain line).2, scope := p.scope, expiry := e
    keep := p.cache && (leased || decide (p.scope ≤ 1)), owner := if p.scope = 0 then some o.gid else none, served := n }

/-- The state once a line's home has sent an operation its fill of the line. -/
def State.filled (s : State) (o : Op) (op line : Nat) (p : Piece) (lease : Nat) : State :=
  let e := p.expiry lease (gtOf s (homeDie s o.ctx (line * 128)))
  let (n, s) := freshId (s.served o line (p.leased lease) e)
  { s with fills := Table.ins s.fills n (o.fillOf s.mem op line p (p.leased lease) e n) }

/-- An operation's fill of a line that nothing at the home keeps back (09 R192, R203). -/
theorem execHomeFill_sends {s : State} {op line : Nat} {o : Op} {p : Piece} {g : Group} {k : Kernel}
    (here : Table.look s.ops op = some o) (may : fillable s op o line = true) (clear : lineSettled s line)
    (first : o.pieces.find? (fun p => p.addr / 128 = line || (p.addr + p.n - 1) / 128 = line) = some p)
    (group : groupAt s o.gid = some g) (kernel : kernelAt s g.kernel = some k)
    (arrived : requestWaits s op o.core o.ctx (line * 128) = false) :
    execHomeFill op line s = .next (s.filled o op line p (leaseOf k p.scope)) := by
  have free : homeClear s line = true := decide_eq_true clear
  have lease : (match (groupAt s o.gid).bind fun g => kernelAt s g.kernel with
      | some k => leaseOf k p.scope
      | none => 0) = leaseOf k p.scope := by
    rw [group, Option.bind_some, kernel]
  have answers : execHomeFill op line s = .next (match some o with
      | none => s
      | some o =>
        if !fillable s op o line ∨ requestWaits s op o.core o.ctx (line * 128) then s
        else if !homeClear s line then updHome s line fun h => { h with recalling := true }
        else
          match o.pieces.find? fun p => p.addr / 128 = line || (p.addr + p.n - 1) / 128 = line with
          | none => s
          | some p => s.filled o op line p (match (groupAt s o.gid).bind fun g => kernelAt s g.kernel with
            | some k => leaseOf k p.scope
            | none => 0)) := by
    rw [← here]
    rfl
  rw [answers]
  simp only [may, arrived, free, first, lease, Bool.not_true, Bool.false_eq_true, or_self, if_false]

/-- What the fill's sending leaves, and the fill itself. -/
theorem State.filled_keeps (s : State) (o : Op) (op line : Nat) (p : Piece) (lease : Nat) :
    let t := s.filled o op line p lease
    t.mem = s.mem ∧ t.groups = s.groups ∧ t.ops = s.ops ∧ t.l1 = s.l1 ∧
      Table.look t.fills s.nextId = some (o.fillOf s.mem op line p (p.leased lease)
        (p.expiry lease (gtOf s (homeDie s o.ctx (line * 128)))) s.nextId) := by
  obtain ⟨mem, groups, ops, l1, -, next⟩ := s.served_keeps o line (p.leased lease)
    (p.expiry lease (gtOf s (homeDie s o.ctx (line * 128))))
  refine ⟨mem, groups, ops, l1, ?_⟩
  unfold State.filled
  rw [← mem, ← next]
  exact Table.look_ins_same ..

end Sys2Proof.Machine
end

section
/-! SUPPORT. Fills that reach their L1 (09 R191, R193, R199): what the access takes, what the L1 keeps. -/

namespace Sys2Proof.Machine

/-! ## Values put under rising keys -/

/-- Of values put one after the other under distinct keys, each key reads as its own put left it. -/
theorem look_foldl_put {α β : Type} {put : Table α → Nat → β → Table α} {key : Nat → Nat} (distinct : Function.Injective key)
    (other : ∀ t n x k, key n ≠ k → Table.look (put t n x) k = Table.look t k)
    (own : ∀ t u n x, Table.look t (key n) = Table.look u (key n) →
      Table.look (put t n x) (key n) = Table.look (put u n x) (key n))
    (xs : List β) (t : Table α) (a j : Nat) {x : β} (at_ : xs[j]? = some x) :
    Table.look (xs.foldl (fun (acc : Table α × Nat) x => (put acc.1 acc.2 x, acc.2 + 1)) (t, a)).1 (key (a + j)) =
      Table.look (put t (a + j) x) (key (a + j)) := by
  have later (xs : List β) (t : Table α) (a k : Nat) (below : k < a) :
      Table.look (xs.foldl (fun (acc : Table α × Nat) x => (put acc.1 acc.2 x, acc.2 + 1)) (t, a)).1 (key k) =
        Table.look t (key k) := by
    induction xs generalizing t a with
    | nil => rfl
    | cons y ys ih =>
      exact (ih _ _ (Nat.lt_succ_of_lt below)).trans (other _ _ _ _ fun same => absurd (distinct same) (by omega))
  induction xs generalizing t a j with
  | nil => cases at_
  | cons y ys ih =>
    cases j with
    | zero =>
      cases at_
      exact later ys _ _ _ (Nat.lt_succ_self a)
    | succ j =>
      have place : a + (j + 1) = a + 1 + j := by omega
      rw [place]
      exact (ih _ _ _ at_).trans (own _ _ _ _ (other _ _ _ _ fun same => absurd (distinct same) (by omega)))

/-! ## L1 lines -/

/-- An access of a group changes the tags of its line's bytes only (09 R191). -/
theorem l1Touch_keys (s : State) (ck gid k : Nat) : (l1Touch s ck gid k).l1.map (·.1) = s.l1.map (·.1) := by
  unfold l1Touch
  rw [List.map_map]
  refine List.map_congr_left fun e _ => ?_
  dsimp only [Function.comp]
  split <;> rfl

/-- A line without tags is left as it is. -/
theorem l1Touch_untagged {s : State} {ck k : Nat} (gid : Nat)
    (untagged : ∀ e ∈ s.l1, e.1 / 2 ^ 48 = ck ∧ e.1 % 2 ^ 48 / 128 = k / 128 → e.2.owner = none) :
    (l1Touch s ck gid k).l1 = s.l1 := by
  unfold l1Touch
  refine (List.map_congr_left fun e mem => ?_).trans (List.map_id _)
  exact if_neg fun tagged => by simp [untagged e mem ⟨tagged.1, tagged.2.1⟩] at tagged

/-- The lines of an L1 depend on which bytes it holds, not on what they are. -/
theorem l1Lines_of_keys {s t : State} (keys : t.l1.map (·.1) = s.l1.map (·.1)) (partials : t.partials = s.partials) (ck : Nat) :
    l1Lines t ck = l1Lines s ck := by
  have held (u : State) : (u.l1.filter fun e => e.1 / 2 ^ 48 = ck).map (fun e => e.1 % 2 ^ 48 / 128) =
      ((u.l1.map (·.1)).filter fun n => n / 2 ^ 48 = ck).map fun n => n % 2 ^ 48 / 128 := by
    rw [List.filter_map, List.map_map]
    rfl
  unfold l1Lines
  rw [held, held, keys, partials]

theorem l1Clear_fits {s : State} {ck line : Nat} (fits : l1Fits s ck line) : l1Clear s ck line = some s := by
  unfold l1Clear
  exact if_pos (fits.imp_right List.contains_iff_mem.2)

/-! ## What the access takes -/

/-- The L1 once the access's group has touched the line (09 R191). -/
def Fill.touching (f : Fill) (s : State) (o : Op) : State :=
  if f.scope ≤ 1 then l1Touch s f.core o.gid (f.line * 128) else s

/-- The byte that an access takes from a fill at an address: at scope 0 or 1 the L1's own where it holds one (09 R191, R199). -/
def Fill.offers (f : Fill) (u : State) (a : Nat) : Option Byte :=
  if f.base ≤ a then (f.bytes[a - f.base]?).map fun x =>
    if f.scope ≤ 1 then ((l1Serves u f.core a).map (·.val)).getD x else x else none

/-- The state once the access has taken its bytes. -/
def Fill.taken (f : Fill) (s : State) (id : Nat) (o : Op) : State :=
  { f.touching s o with
    fills := Table.del s.fills id, ops := Table.ins s.ops f.op (o.capture (f.offers (f.touching s o))) }

theorem Fill.touching_keeps (f : Fill) (s : State) (o : Op) :
    let u := f.touching s o
    u.mem = s.mem ∧ u.groups = s.groups ∧ u.ops = s.ops ∧ u.partials = s.partials ∧ u.l1.map (·.1) = s.l1.map (·.1) := by
  unfold Fill.touching
  split
  · exact ⟨rfl, rfl, rfl, rfl, l1Touch_keys ..⟩
  · exact ⟨rfl, rfl, rfl, rfl, rfl⟩

/-- A fill of scope 2 or more touches no tag, and one of a line without tags neither. -/
theorem Fill.touching_l1 {f : Fill} {s : State} (o : Op)
    (untagged : f.scope ≤ 1 → ∀ e ∈ s.l1, e.1 / 2 ^ 48 = f.core ∧ e.1 % 2 ^ 48 / 128 = f.line → e.2.owner = none) :
    (f.touching s o).l1 = s.l1 := by
  unfold Fill.touching
  split
  · next low =>
    refine l1Touch_untagged o.gid ?_
    rw [Nat.mul_div_cancel _ (by decide : 0 < 128)]
    exact untagged low
  · rfl

/-- A fill that may enter its L1, its slot still its group's, and whose operation stands (09 R193). -/
theorem execFillInstall_takes {s : State} {id : Nat} {f : Fill} {o : Op} (here : Table.look s.fills id = some f)
    (op : Table.look s.ops f.op = some o) (arrived : responseWaits s id f.core f.ctx (f.line * 128) = false)
    (holds : slotHolds s f.ident = true) :
    execFillInstall id s = .next (if f.keep then installFill (f.taken s id o) f
      else l1Drop (f.taken s id o) f.core fun a b =>
        decide (f.base ≤ a ∧ a < f.base + f.bytes.length ∧ 2 ≤ b.scope ∧ b.served < f.served)) := by
  have touched : (if f.scope ≤ 1 then l1Touch { s with fills := Table.del s.fills id } f.core o.gid (f.line * 128)
      else { s with fills := Table.del s.fills id }) = { f.touching s o with fills := Table.del s.fills id } := by
    unfold Fill.touching
    split <;> rfl
  have ops : Table.look (f.touching s o).ops f.op = some o := by rw [(f.touching_keeps s o).2.2.1, op]
  have still : slotHolds { s with fills := Table.del s.fills id } f.ident = true := holds
  unfold execFillInstall
  rw [here]
  dsimp only
  rw [if_neg (by simp [arrived]), if_neg (by simp [still]), op]
  dsimp only
  rw [touched, Table.upd_eq _ _ ops, (f.touching_keeps s o).2.2.1]
  rfl

/-- A fill for a group that has left its slot is dropped with its operation (07 R173). -/
theorem execFillInstall_drops {s : State} {id : Nat} {f : Fill} (here : Table.look s.fills id = some f)
    (arrived : responseWaits s id f.core f.ctx (f.line * 128) = false) (gone : slotHolds s f.ident = false) :
    execFillInstall id s =
      .next (dropLate { s with fills := Table.del s.fills id, ops := Table.del s.ops f.op } f.ident) := by
  have still : slotHolds { s with fills := Table.del s.fills id } f.ident = false := gone
  unfold execFillInstall
  rw [here]
  dsimp only
  rw [if_neg (by simp [arrived]), if_pos (by simp [still])]

/-! ## What the L1 keeps -/

/-- A fill's byte as the L1 holds it at a scope with an owner. -/
def Fill.asByte (f : Fill) (scope : Nat) (owner : Option Nat) (x : Byte) : L1Byte :=
  { val := x, scope, expiry := f.expiry, dirty := false, owner, ctx := f.ctx, served := f.served }

/-- A fill's byte put where the L1 holds nothing newer or dirty (09 R193). -/
def Fill.put (f : Fill) (scope : Nat) (owner : Option Nat) (t : Table L1Byte) (a : Nat) (x : Byte) : Table L1Byte :=
  match Table.look t (l1Key f.core a) with
  | some b =>
    if b.dirty ∨ f.served < b.served ∨ (b.scope ≤ 1 ∧ f.scope ≤ 1) then t else Table.ins t (l1Key f.core a) (f.asByte scope owner x)
  | none => Table.ins t (l1Key f.core a) (f.asByte scope owner x)

/-- A fill's bytes put in order. -/
def Fill.puts (f : Fill) (scope : Nat) (owner : Option Nat) (t : Table L1Byte) : Table L1Byte :=
  (f.bytes.foldl (fun (acc : Table L1Byte × Nat) x => (f.put scope owner acc.1 acc.2 x, acc.2 + 1)) (t, f.base)).1

theorem l1Key_injective (ck : Nat) : Function.Injective (l1Key ck) := fun _ _ same => Nat.add_left_cancel same

theorem Fill.look_put_other (f : Fill) (scope : Nat) (owner : Option Nat) (t : Table L1Byte) (a : Nat) (x : Byte) (k : Nat)
    (apart : l1Key f.core a ≠ k) : Table.look (f.put scope owner t a x) k = Table.look t k := by
  unfold Fill.put
  split
  · split
    · rfl
    · exact Table.look_ins_other _ _ apart
  · exact Table.look_ins_other _ _ apart

theorem Fill.look_put_own (f : Fill) (scope : Nat) (owner : Option Nat) (t u : Table L1Byte) (a : Nat) (x : Byte)
    (same : Table.look t (l1Key f.core a) = Table.look u (l1Key f.core a)) :
    Table.look (f.put scope owner t a x) (l1Key f.core a) = Table.look (f.put scope owner u a x) (l1Key f.core a) := by
  unfold Fill.put
  rw [same]
  split
  · split
    · exact same
    · rw [Table.look_ins_same, Table.look_ins_same]
  · rw [Table.look_ins_same, Table.look_ins_same]

/-- A byte of a fill that the L1 did not hold. -/
theorem Fill.look_puts_absent {f : Fill} (scope : Nat) (owner : Option Nat) {t : Table L1Byte} {j : Nat} {x : Byte}
    (at_ : f.bytes[j]? = some x) (absent : Table.look t (l1Key f.core (f.base + j)) = none) :
    Table.look (f.puts scope owner t) (l1Key f.core (f.base + j)) = some (f.asByte scope owner x) := by
  refine (look_foldl_put (l1Key_injective f.core) (f.look_put_other scope owner) (f.look_put_own scope owner) _ _ _ _ at_).trans ?_
  unfold Fill.put
  rw [absent]
  exact Table.look_ins_same ..

/-- The scope and the owner that a fill's bytes get: the line's own where the L1 holds it at scope 0 or 1 (09 R191). -/
def Fill.tag (f : Fill) (s : State) : Nat × Option Nat :=
  match s.l1.find? fun e => e.1 / 2 ^ 48 = f.core ∧ e.1 % 2 ^ 48 / 128 = f.line ∧ e.2.scope ≤ 1 with
  | some e => if f.scope ≤ 1 then (e.2.scope, e.2.owner) else (f.scope, f.owner)
  | none => (f.scope, f.owner)

/-- Where its line has room a fill changes its L1 only. -/
theorem installFill_fits {s : State} {f : Fill} (fits : l1Fits s f.core f.line) :
    installFill s f = { s with l1 := f.puts (f.tag s).1 (f.tag s).2 s.l1 } := by
  unfold installFill
  rw [l1Clear_fits fits]
  rfl

/-- A fill of a line that the L1 does not hold at scope 0 or 1 keeps its own scope and owner. -/
theorem Fill.tag_own {f : Fill} {s : State}
    (leased : ∀ e ∈ s.l1, e.1 / 2 ^ 48 = f.core ∧ e.1 % 2 ^ 48 / 128 = f.line → 2 ≤ e.2.scope) : f.tag s = (f.scope, f.owner) := by
  have absent : s.l1.find? (fun e => decide (e.1 / 2 ^ 48 = f.core ∧ e.1 % 2 ^ 48 / 128 = f.line ∧ e.2.scope ≤ 1)) = none := by
    rw [List.find?_eq_none]
    intro e mem low
    obtain ⟨core, line, scope⟩ := of_decide_eq_true low
    exact absurd (leased e mem ⟨core, line⟩) (by omega)
  unfold Fill.tag
  rw [absent]

end Sys2Proof.Machine
end

section
/-! SUPPORT. The events of accesses together (09 R192, R193; 11 R234 to R252). -/

namespace Sys2Proof.Machine

theorem dropLate_keeps (s : State) (ident : Nat) :
    let t := dropLate s ident
    t.groups = s.groups ∧ t.ops = s.ops ∧ t.fills = s.fills ∧ t.l1 = s.l1 ∧ t.mem = s.mem := ⟨rfl, rfl, rfl, rfl, rfl⟩

/-- Returns give the group the destinations and the flag. -/
theorem returns_take_effect (s : State) (id : Nat) (o : Op) (g : Group) (here : Table.look s.ops id = some o)
    (group : groupAt s o.gid = some g) (addr : addressed s o.gid o.ident = true) (plain : o.acquire = false) :
    (o.complete = true → o.kind = .load → exec (.loadReturn id) s = .next (o.returned id s g)) ∧
    (o.complete = true → o.kind = .lds → exec (.ldsReturn id) s = .next (o.returned id s g)) ∧
    (o.complete = true → o.kind = .sld → exec (.sldReturn id) s = .next (o.returned id s g)) ∧
    (o.kind = .atomic ∨ o.kind = .satom → atomicPending s id = false →
      exec (.atomicReturn id) s = .next (o.returned id s g)) := by
  have returned := returnOp_returned (id := id) group addr plain
  refine ⟨fun done kind => ?_, fun done kind => ?_, fun done kind => ?_, fun kind settled => ?_⟩
  · exact (returnWhen_returns here (by simp [kind]) done).trans (congrArg _ returned)
  · exact (returnWhen_returns here (by simp [kind]) done).trans (congrArg _ returned)
  · exact (returnWhen_returns here (by simp [kind]) done).trans (congrArg _ returned)
  · exact (returnWhen_returns here (by simpa using kind) (by simp [settled])).trans (congrArg _ returned)

/-- A load's data for a group that has left its slot changes no group. -/
theorem late_load_dropped (s : State) (id : Nat) (o : Op) (here : Table.look s.ops id = some o)
    (gone : addressed s o.gid o.ident = false) (done : o.complete = true) (kind : o.kind = .load) :
    Happens (.loadReturn id) s fun t => t.ops = Table.del s.ops id ∧ t.groups = s.groups ∧ t.mem = s.mem :=
  ⟨_, (returnWhen_returns here (by simp [kind]) done).trans (congrArg _ (returnOp_dropped gone)), rfl, rfl, rfl⟩

/-- A home sends the grain of the line that the operation names. -/
theorem homeFill_takes_effect (s : State) (op line : Nat) (o : Op) (p : Piece) (g : Group) (k : Kernel)
    (sized : ∀ q ∈ o.pieces, 0 < q.n) (here : Table.look s.ops op = some o) (may : fillable s op o line = true)
    (clear : lineSettled s line)
    (first : o.pieces.find? (fun p => p.addr / 128 = line || (p.addr + p.n - 1) / 128 = line) = some p)
    (group : groupAt s o.gid = some g) (kernel : kernelAt s g.kernel = some k)
    (arrived : requestWaits s op o.core o.ctx (line * 128) = false) :
    let leased : Bool := p.cache && decide (2 ≤ p.scope) && decide (leaseOf k p.scope ≠ 0)
    Happens (.homeFill op line) s fun t =>
      t.mem = s.mem ∧ t.groups = s.groups ∧ t.ops = s.ops ∧ t.l1 = s.l1 ∧
      ∃ off size, aligned off size ∧ o.within line off size ∧
        (∀ off' size', aligned off' size' → o.within line off' size' → size ≤ size') ∧
        Table.look t.fills s.nextId = some
          { op, ident := o.ident, core := o.core, ctx := o.ctx, line, off, bytes := Memory.readN s.mem (line * 128 + off) size
            scope := p.scope
            expiry := if leased then gtOf s (homeDie s o.ctx (line * 128)) + leaseOf k p.scope else 0
            keep := p.cache && (leased || decide (p.scope ≤ 1)), owner := if p.scope = 0 then some o.gid else none
            served := s.nextId } := by
  obtain ⟨mem, groups, ops, l1, fill⟩ := s.filled_keeps o op line p (leaseOf k p.scope)
  have listed : p ∈ o.pieces := List.mem_of_find?_eq_some first
  have meets : p.meets line := by
    have found := List.find?_some first
    have size := sized p listed
    simp only [Bool.or_eq_true, decide_eq_true_eq] at found
    unfold Piece.meets
    omega
  obtain ⟨unit, covers, least⟩ := Op.grain_spec sized ⟨p, listed, meets⟩
  exact ⟨_, execHomeFill_sends here may clear first group kernel arrived, mem, groups, ops, l1, _, _, unit, covers, least, fill⟩

/-- A fill reaches its L1 and its access. -/
theorem fillInstall_takes_effect (s : State) (id : Nat) (f : Fill) (o : Op) (here : Table.look s.fills id = some f)
    (op : Table.look s.ops f.op = some o) (arrived : responseWaits s id f.core f.ctx (f.line * 128) = false)
    (holds : slotHolds s f.ident = true) (fits : l1Fits s f.core f.line) :
    Happens (.fillInstall id) s fun t =>
      t.fills = Table.del s.fills id ∧ t.mem = s.mem ∧ t.groups = s.groups ∧
      Table.look t.ops f.op = some (o.capture (f.offers (f.touching s o))) ∧
      (f.keep = false → 2 ≤ f.scope → ∀ e, e ∈ t.l1 ↔ e ∈ s.l1 ∧ ¬ (e.1 / 2 ^ 48 = f.core ∧ f.base ≤ e.1 % 2 ^ 48 ∧
        e.1 % 2 ^ 48 < f.base + f.bytes.length ∧ 2 ≤ e.2.scope ∧ e.2.served < f.served)) ∧
      (f.keep = true → (∀ e ∈ s.l1, e.1 / 2 ^ 48 = f.core ∧ e.1 % 2 ^ 48 / 128 = f.line → 2 ≤ e.2.scope ∧ e.2.owner = none) →
        ∀ (j : Nat) (x : Byte), f.bytes[j]? = some x → l1At s f.core (f.base + j) = none →
          l1At t f.core (f.base + j) = some (f.asByte f.scope f.owner x)) := by
  obtain ⟨mem, groups, ops, partials, keys⟩ := f.touching_keeps s o
  have took := execFillInstall_takes here op arrived holds
  cases keep : f.keep with
  | false =>
    rw [keep] at took
    refine ⟨_, took, rfl, mem, groups, Table.look_ins_same .., fun _ scope e => ?_, nofun⟩
    have l1 := f.touching_l1 (s := s) o fun low => absurd scope (by omega)
    change e ∈ (f.touching s o).l1.filter _ ↔ _
    rw [l1, List.mem_filter]
    simp only [Bool.not_eq_true', Bool.and_eq_false_imp, decide_eq_true_eq, decide_eq_false_iff_not]
    tauto
  | true =>
    have room : l1Fits (f.taken s id o) f.core f.line := by
      have lines : l1Lines (f.taken s id o) f.core = l1Lines s f.core := l1Lines_of_keys keys partials f.core
      unfold l1Fits
      rw [lines]
      exact fits
    rw [keep, if_pos rfl, installFill_fits room] at took
    refine ⟨_, took, rfl, mem, groups, Table.look_ins_same .., nofun, fun _ leased j x at_ absent => ?_⟩
    have l1 : (f.taken s id o).l1 = s.l1 := f.touching_l1 o fun _ e mem here => (leased e mem here).2
    have tag : f.tag (f.taken s id o) = (f.scope, f.owner) := by
      refine Fill.tag_own fun e mem here => (leased e ?_ here).1
      rwa [l1] at mem
    unfold l1At
    rw [tag, l1]
    exact Fill.look_puts_absent _ _ at_ absent

/-- Settles O30, event by event: returns, late data, fills sent and taken, and the ends of leases. -/
theorem accessEventsTakeEffect : Obligations.AccessEventsTakeEffect := by
  unfold Obligations.AccessEventsTakeEffect
  refine ⟨fun s id o g here group addr plain => ?_, fun o id g k l dest form small => readV_writeDest dest id form small,
    fun s id o here gone done kind => late_load_dropped s id o here gone done kind,
    fun s op line o p g k sized here may clear first group kernel arrived =>
      homeFill_takes_effect s op line o p g k sized here may clear first group kernel arrived,
    fun s id f o here op => ?_, fun s core line => rfl⟩
  · obtain ⟨load, lds, sld, atomic⟩ := returns_take_effect s id o g here group addr plain
    exact ⟨load, lds, sld, atomic, fun done kind point => execTexComplete_writes here group addr done kind point,
      fun b c done kind block one => execLcpyComplete_copies here group addr plain done kind block one⟩
  · intro base mine u arrived
    exact ⟨fun gone => ⟨_, execFillInstall_drops here arrived gone, rfl, rfl, rfl, rfl, rfl⟩,
      fun holds fits => fillInstall_takes_effect s id f o here op arrived holds fits⟩

end Sys2Proof.Machine
end

section
/-! SUPPORT. What the operations at homes leave alone (09 R187, R194, R202, R203): the clocks and the ways to homes, the
records of writes, partials and lines. -/

namespace Sys2Proof.Machine

/-! ## Clocks and homes -/

/-- A die's GT, and what decides whether it carries a link. -/
def Die.face (d : Die) : Nat × Bool × Bool := (d.gt, d.active, d.failed)

/-- Two states whose dies show the same GT and the same health. -/
def SameFaces (s t : State) : Prop := ∀ n, (dieAt t n).map Die.face = (dieAt s n).map Die.face

theorem SameFaces.of_dies {s t : State} (same : t.dies = s.dies) : SameFaces s t := fun n => by rw [dieAt, dieAt, same]

theorem SameFaces.trans {s t u : State} (a : SameFaces s t) (b : SameFaces t u) : SameFaces s u := fun n => (b n).trans (a n)

theorem sameFaces_countHot (s : State) (ctx key requester m : Nat) : SameFaces s (countHot s ctx key requester m) := by
  have updated (d : Nat) (h : List HotEntry) : SameFaces s (updDie s d fun x => { x with hot := h }) := by
    intro n
    simp only [dieAt, updDie, List.getElem?_mapIdx, Option.map_map]
    refine congrArg (fun f => (s.dies[n]?).map f) (funext fun x => ?_)
    dsimp only [Function.comp]
    split <;> rfl
  unfold countHot
  dsimp only
  split
  · exact .of_dies rfl
  · split
    · exact (updated _ _).trans (.of_dies rfl)
    · exact updated _ _

theorem sameFaces_homeTouch (s : State) (ctx requester line : Nat) (write : Bool) :
    SameFaces s (homeTouch s ctx requester line write) := by
  unfold homeTouch
  dsimp only
  have noted : SameFaces s (if write ∧ !s.written.contains line then { s with written := line :: s.written } else s) := by
    split <;> exact .of_dies rfl
  generalize (if write ∧ !s.written.contains line then { s with written := line :: s.written } else s) = t at noted ⊢
  split
  · exact noted
  · have lodged : SameFaces t (if keyTier (line * 128) = 0 then
        lodgeTake (countHot t ctx (line * 128) requester 1) (homeDie s ctx (line * 128)) line write else t) := by
      split
      · obtain ⟨c, lo, ld, held⟩ := lodgeTake_eq (countHot t ctx (line * 128) requester 1) (homeDie s ctx (line * 128)) line write
        rw [held]
        exact (sameFaces_countHot _ _ _ _ _).trans (.of_dies rfl)
      · exact .of_dies rfl
    generalize (if keyTier (line * 128) = 0 then
      lodgeTake (countHot t ctx (line * 128) requester 1) (homeDie s ctx (line * 128)) line write else t) = u at lodged ⊢
    obtain ⟨c, taken⟩ := intoSlice_eq u sliceOf u.l2 (homeDie s ctx (line * 128)) line 6144
    refine (noted.trans lodged).trans (.of_dies ?_)
    change (intoSlice u sliceOf u.l2 _ line 6144).2.dies = u.dies
    rw [taken]

theorem SameFaces.gtOf {s t : State} (same : SameFaces s t) (n : Nat) : gtOf t n = gtOf s n := by
  have gt := congrArg (Option.map Prod.fst) (same n)
  rw [Option.map_map, Option.map_map] at gt
  exact congrArg (·.getD 0) gt

theorem SameFaces.dieActive {s t : State} (same : SameFaces s t) (n : Nat) : dieActive t n = dieActive s n := by
  have active := congrArg (Option.any fun x => x.2.1 && !x.2.2) (same n)
  rw [Option.any_map, Option.any_map] at active
  exact active

/-- The home of a line is the same where the dies' health, the links and the contexts are. -/
theorem SameFaces.homeDie {s t : State} (same : SameFaces s t) (links : t.hostLinks = s.hostLinks)
    (contexts : t.contexts = s.contexts) (ctx k : Nat) : homeDie t ctx k = homeDie s ctx k := by
  have available : linkAvailable t = linkAvailable s := by
    funext n
    unfold linkAvailable
    rw [same.dieActive, links]
  unfold Machine.homeDie homeLink windowLink ctxAt
  rw [available, contexts]

/-- The GT at a line's home after an access of the home. -/
theorem gtOf_homeTouch (s : State) (ctx requester line : Nat) (write : Bool) (c k : Nat) :
    let t := homeTouch s ctx requester line write
    gtOf t (homeDie t c k) = gtOf s (homeDie s c k) := by
  have faces := sameFaces_homeTouch s ctx requester line write
  obtain ⟨_, _, _, _, _, _, _, touched⟩ := homeTouch_eq s ctx requester line write
  dsimp only
  rw [faces.gtOf, faces.homeDie (by rw [touched]) (by rw [touched])]

/-! ## What changes where a spinning fibre or a way is concerned -/

/-- A wake of spinning fibres changes the helps and the groups only (17 R360). -/
theorem wakeSpin_eq (s : State) (line : Nat) : ∃ hs gs, wakeSpin s line = { s with helps := hs, groups := gs } := by
  have helped (hs : List (Nat × Nat)) : ∃ hs' gs', keepHelps s hs = { s with helps := hs', groups := gs' } := by
    unfold keepHelps
    split
    · exact ⟨s.helps, s.groups, rfl⟩
    · exact ⟨_, _, rfl⟩
  obtain ⟨hs, gs, kept⟩ := helped (s.helps.filter fun h => h.2 ≠ line)
  unfold wakeSpin
  dsimp only
  rw [kept]
  exact ⟨_, _, rfl⟩

theorem needWay_eq (s : State) (src dest : Nat) : ∃ h, needWay s src dest = { s with held := h } := by
  unfold needWay
  split
  · exact ⟨_, rfl⟩
  · exact ⟨s.held, rfl⟩

/-- The ways that a recall needs change nothing else. -/
theorem foldl_needWay_eq (home : Nat) (hs : List (Nat × Nat)) (s : State) :
    ∃ h, hs.foldl (fun s c => needWay (needWay s home (coreDie c.1)) (coreDie c.1) home) s = { s with held := h } := by
  induction hs generalizing s with
  | nil => exact ⟨s.held, rfl⟩
  | cons c cs ih =>
    obtain ⟨h, there⟩ := needWay_eq s home (coreDie c.1)
    obtain ⟨h', back⟩ := needWay_eq { s with held := h } (coreDie c.1) home
    obtain ⟨h'', rest⟩ := ih { s with held := h' }
    refine ⟨h'', ?_⟩
    rw [List.foldl_cons, there, back]
    exact rest

/-! ## Records of lines -/

theorem homeOf_updHome {s : State} (form : Table.wf s.homes HomeLine.blank = true) (line : Nat) (f : HomeLine → HomeLine) :
    homeOf (updHome s line f) line = f (homeOf s line) := Table.rd_wr_same form ..

theorem look_updHome_other (s : State) {line l : Nat} (f : HomeLine → HomeLine) (apart : line ≠ l) :
    homeOf (updHome s line f) l = homeOf s l := Table.rd_wr_other _ _ _ apart

/-- Bytes that clear the poison of no line. -/
theorem clearPoison_good {s : State} {ls : List Nat} (good : ∀ l ∈ ls, badLine s l = false) : clearPoison s ls = s := by
  refine if_pos ?_
  rw [Bool.not_eq_true', List.any_eq_false]
  exact fun l mem => by simp [good l mem]

/-- Bytes of lines without poison are written as they are (10 R225). -/
theorem homeBytes_good {s : State} {k : Nat} {bs : List Byte} (good : ∀ l ∈ linesOf k bs.length, badLine s l = false) :
    homeBytes s k bs = { s with mem := Memory.writeN s.mem k bs } :=
  clearPoison_good fun l mem => good l (List.mem_of_mem_filter mem)

theorem getElem?_readN (m : List Host.Cell) (a n j : Nat) (inside : j < n) :
    (Memory.readN m a n)[j]? = some (Memory.read m (a + j)) := by
  induction n generalizing a j with
  | zero => cases inside
  | succ n ih =>
    cases j with
    | zero => rfl
    | succ j =>
      have place : a + (j + 1) = a + 1 + j := by omega
      rw [place]
      exact ih (a + 1) j (by omega)

/-! ## Lists without repetitions -/

theorem mem_dedup {α : Type} [DecidableEq α] {x : α} : ∀ {xs : List α}, x ∈ dedup xs ↔ x ∈ xs
  | [] => Iff.rfl
  | y :: ys => by
    rw [dedup, List.mem_cons, List.mem_cons, List.mem_filter, mem_dedup, decide_eq_true_iff]
    tauto

theorem nodup_dedup {α : Type} [DecidableEq α] : ∀ xs : List α, (dedup xs).Nodup
  | [] => List.nodup_nil
  | y :: ys => by
    rw [dedup, List.nodup_cons, List.mem_filter]
    exact ⟨fun h => of_decide_eq_true h.2 rfl, (nodup_dedup ys).filter _⟩

/-- Fewer values leave no more of them different. -/
theorem length_dedup_le {α : Type} [DecidableEq α] {xs ys : List α} (sub : xs ⊆ ys) :
    (dedup xs).length ≤ (dedup ys).length :=
  ((nodup_dedup xs).subperm fun _ mem => mem_dedup.2 (sub (mem_dedup.1 mem))).length_le

end Sys2Proof.Machine
end

section
/-! SUPPORT. Writes at their homes (09 R194, R197; 11 R243, R245): a store, an atomic, and the acknowledgement. -/

namespace Sys2Proof.Machine

/-! ## A write applied -/

/-- The WCT of a write applied now (09 R194). -/
def State.wctFor (s : State) (w : Write) : Nat :=
  max (gtOf s (homeDie s w.ctx w.addr)) ((homeOf s (w.addr / 128)).eMax + 4)

/-- The state in which a write's line has been reached and its context knows the WCT. -/
def State.reached (s : State) (w : Write) (wct : Nat) : State :=
  updCtx (homeTouch s w.ctx (coreDie w.core) (w.addr / 128) true) w.ctx fun c => { c with wct := max c.wct wct }

theorem State.reached_keeps (s : State) (w : Write) (wct : Nat) :
    let t := s.reached w wct
    t.mem = s.mem ∧ t.poison = s.poison ∧ t.deadMem = s.deadMem ∧ t.mended = s.mended ∧ t.nextId = s.nextId ∧
      t.writes = s.writes ∧ t.ops = s.ops := by
  obtain ⟨_, _, _, _, _, _, _, touched⟩ := homeTouch_eq s w.ctx (coreDie w.core) (w.addr / 128) true
  unfold State.reached
  rw [touched]
  exact ⟨rfl, rfl, rfl, rfl, rfl, rfl, rfl⟩

theorem wctAt_homeTouch (s : State) (w : Write) :
    let t := homeTouch s w.ctx (coreDie w.core) (w.addr / 128) true
    wctAt t (w.addr / 128) (gtOf t (homeDie t w.ctx w.addr)) = s.wctFor w := by
  have gt := gtOf_homeTouch s w.ctx (coreDie w.core) (w.addr / 128) true w.ctx w.addr
  obtain ⟨_, _, _, _, _, _, _, touched⟩ := homeTouch_eq s w.ctx (coreDie w.core) (w.addr / 128) true
  dsimp only at gt ⊢
  unfold wctAt State.wctFor
  rw [gt, touched]
  rfl

/-- The write acknowledged with its WCT: the core's copies go, the record waits for its reply, spinning fibres see it. -/
def State.replied (s : State) (id : Nat) (w : Write) (wct : Nat) : State :=
  let (n, s) := freshId (l1Forget s w.core w.addr w.size)
  wakeSpin { s with writes := Table.ins s.writes id { w with wct := some wct, replied := n } } (w.addr / 128)

theorem State.replied_keeps (s : State) (id : Nat) (w : Write) (wct : Nat) :
    let t := s.replied id w wct
    t.mem = s.mem ∧ t.ops = s.ops ∧ Table.look t.writes id = some { w with wct := some wct, replied := s.nextId } := by
  unfold State.replied
  dsimp only
  obtain ⟨_, _, woken⟩ := wakeSpin_eq { (freshId (l1Forget s w.core w.addr w.size)).2 with
    writes := Table.ins (freshId (l1Forget s w.core w.addr w.size)).2.writes id
      { w with wct := some wct, replied := (freshId (l1Forget s w.core w.addr w.size)).1 } } (w.addr / 128)
  rw [woken]
  exact ⟨rfl, rfl, Table.look_ins_same ..⟩

/-- The bytes that a fold leaves at a write's address (09 R202; 11 R243, R245). -/
def State.foldedBytes (s : State) (w : Write) (f : AtomOp) (n : Nat) (b c : DWord) : List Byte :=
  toBytes n (foldOp f n (ofBytes (Memory.readN s.mem w.addr n)) b.toNat c.toNat)

/-- A write's bytes made at its home, by its kind (09 R194; 11 R243, R245). -/
def State.made (s : State) (w : Write) : State :=
  match w.kind with
  | .store bs => homeBytes s w.addr bs
  | .atomic op lane f n b c =>
    { s with
      mem := Memory.writeN s.mem w.addr (s.foldedBytes w f n b c)
      ops := Table.upd s.ops op fun o =>
        { o with got := ((Memory.readN s.mem w.addr n).foldl (fun (acc : Table Byte × Nat) y =>
            (Table.ins acc.1 acc.2 y, acc.2 + 1)) (o.got, gotKey lane 0)).1 } }
  | .reduce f _ n b => { s with mem := Memory.writeN s.mem w.addr (s.foldedBytes w f n b 0) }
  | .fold f n b => { s with mem := Memory.writeN s.mem w.addr (s.foldedBytes w f n b 0) }

/-- A write is applied in three parts: its line is reached, its bytes are made, its record is answered. -/
theorem applyWrite_eq (s : State) (id : Nat) (w : Write) :
    applyWrite s id w = ((s.reached w (s.wctFor w)).made w).replied id w (s.wctFor w) := by
  rw [← wctAt_homeTouch]
  rfl

theorem made_store {s : State} {w : Write} {bs : List Byte} (kind : w.kind = .store bs)
    (good : ∀ l ∈ linesOf w.addr bs.length, badLine s l = false) :
    s.made w = { s with mem := Memory.writeN s.mem w.addr bs } := by
  unfold State.made
  rw [kind]
  exact homeBytes_good good

theorem made_atomic {s : State} {w : Write} {op lane n : Nat} {f : AtomOp} {b c : DWord}
    (kind : w.kind = .atomic op lane f n b c) : s.made w =
    { s with
      mem := foldAt s.mem w.addr f n b.toNat c.toNat
      ops := Table.upd s.ops op fun o =>
        { o with got := ((Memory.readN s.mem w.addr n).foldl (fun (acc : Table Byte × Nat) y =>
            (Table.ins acc.1 acc.2 y, acc.2 + 1)) (o.got, gotKey lane 0)).1 } } := by
  unfold State.made
  rw [kind]
  rfl

section
variable {s : State} {id : Nat} {w : Write} (here : Table.look s.writes id = some w) (may : applicable s id w = true)
  (clear : lineSettled s (w.addr / 128)) (arrived : requestWaits s id w.core w.ctx w.addr = false)
include here may clear arrived

theorem execHomeWriteApply_applies (told : w.asks = false) : execHomeWriteApply id s = .next (applyWrite s id w) := by
  have free : homeClear s (w.addr / 128) = true := decide_eq_true clear
  unfold execHomeWriteApply
  simp only [here, told, may, arrived, free, Bool.not_true, Bool.false_eq_true, or_self, if_false]

/-- A store to lines without poison is applied with its WCT (09 R194). -/
theorem store_applied {bs : List Byte} (kind : w.kind = .store bs)
    (good : ∀ l ∈ linesOf w.addr bs.length, badLine s l = false) (form : s.memoryForm) :
    Happens (.homeWriteApply id) s fun t =>
      (∃ m, s.nextId ≤ m ∧ Table.look t.writes id = some { w with replied := m, wct := some (s.wctFor w) }) ∧
      (∀ (j : Nat) (x : Byte), bs[j]? = some x → Memory.read t.mem (w.addr + j) = x) ∧
      (∀ a : Nat, a < w.addr ∨ w.addr + bs.length ≤ a → Memory.read t.mem a = Memory.read s.mem a) := by
  obtain ⟨mem, poison, dead, mended, next, -, -⟩ := s.reached_keeps w (s.wctFor w)
  have good' : ∀ l ∈ linesOf w.addr bs.length, badLine (s.reached w (s.wctFor w)) l = false := by
    intro l mem
    unfold badLine deadLine
    rw [poison, dead, mended]
    exact good l mem
  have ran := execHomeWriteApply_applies here may clear arrived (by simp [Write.asks, kind])
  rw [applyWrite_eq, made_store kind good'] at ran
  obtain ⟨mem', -, answered⟩ := State.replied_keeps
    { s.reached w (s.wctFor w) with mem := Memory.writeN (s.reached w (s.wctFor w)).mem w.addr bs } id w (s.wctFor w)
  refine ⟨_, ran, ⟨_, next.ge, answered⟩, fun j x at_ => ?_, fun a outside => ?_⟩
  · obtain ⟨inside, rfl⟩ := List.getElem?_eq_some_iff.1 at_
    rw [mem', mem]
    exact Memory.read_writeN_inside form _ _ _ inside
  · rw [mem', mem]
    exact Memory.read_writeN_outside _ _ _ _ outside

/-- An atomic is applied with its old value and its WCT (11 R243). -/
theorem atomic_applied {op lane n : Nat} {f : AtomOp} {b c : DWord} (kind : w.kind = .atomic op lane f n b c) :
    Happens (.homeWriteApply id) s fun t =>
      t.mem = foldAt s.mem w.addr f n b.toNat c.toNat ∧
      (∃ m, s.nextId ≤ m ∧ Table.look t.writes id = some { w with replied := m, wct := some (s.wctFor w) }) ∧
      (∀ o, Table.look s.ops op = some o → ∃ o', Table.look t.ops op = some o' ∧
        ∀ j : Nat, j < n → Table.look o'.got (gotKey lane 0 + j) = some (Memory.read s.mem (w.addr + j))) := by
  obtain ⟨mem, -, -, -, next, -, ops⟩ := s.reached_keeps w (s.wctFor w)
  have ran := execHomeWriteApply_applies here may clear arrived (by simp [Write.asks, kind])
  rw [applyWrite_eq, made_atomic kind] at ran
  obtain ⟨mem', ops', answered⟩ := State.replied_keeps { s.reached w (s.wctFor w) with
    mem := foldAt (s.reached w (s.wctFor w)).mem w.addr f n b.toNat c.toNat
    ops := Table.upd (s.reached w (s.wctFor w)).ops op fun o =>
      { o with got := ((Memory.readN (s.reached w (s.wctFor w)).mem w.addr n).foldl (fun (acc : Table Byte × Nat) y =>
          (Table.ins acc.1 acc.2 y, acc.2 + 1)) (o.got, gotKey lane 0)).1 } } id w (s.wctFor w)
  refine ⟨_, ran, mem'.trans (by rw [mem]), ⟨_, next.ge, answered⟩, fun o found => ?_⟩
  rw [ops', ops, mem, Table.upd_eq _ _ found]
  refine ⟨_, Table.look_ins_same .., fun j inside => ?_⟩
  refine (look_foldl_put (put := Table.ins) (key := fun k => k) (fun _ _ same => same) (fun t n x k apart => Table.look_ins_other t x apart)
    (fun t u n x _ => ?_) _ o.got _ j (getElem?_readN s.mem w.addr n j inside)).trans (Table.look_ins_same ..)
  exact (Table.look_ins_same ..).trans (Table.look_ins_same ..).symm

end

end Sys2Proof.Machine
end

section
/-! SUPPORT. Acknowledgements, update-only permissions, partials, recalls and evictions (09 R191, R197, R202, R203; 13 R290). -/

namespace Sys2Proof.Machine

/-! ## The acknowledgement (09 R194, R197) -/

theorem kernelAt_noteWct (s : State) (gid : Nat) (fibs : List Nat) (scope w n : Nat) :
    kernelAt (noteWct s gid fibs scope w) n = kernelAt s n := rfl

/-- A fibre that an acknowledgement is for. -/
theorem fibreAt_noteWct {s : State} {gid fid : Nat} {g : Group} {x : Fibre} {fibs : List Nat} (scope w : Nat)
    (group : groupAt s gid = some g) (fibre : Table.look g.fibres fid = some x) (mine : fid ∈ fibs) :
    fibreAt (noteWct s gid fibs scope w) gid fid =
      some { x with wct := Table.ins x.wct scope (max w (Table.rd x.wct 0 scope)) } := by
  have keyed (e : Nat × Fibre) : (if fibs.contains e.1 then
      (e.1, { e.2 with wct := Table.ins e.2.wct scope (max w (Table.rd e.2.wct 0 scope)) }) else e).1 = e.1 := by
    split <;> rfl
  unfold fibreAt noteWct
  rw [groupAt_updGroup _ group]
  refine (look_map g.fibres fid keyed).trans ?_
  rw [fibre, Option.map_some, if_pos (List.contains_iff_mem.2 mine)]

/-- The state once a write's acknowledgement has left the mesh, and its kernel waits for its WCT (16 R346). -/
def State.acknowledged (s : State) (id : Nat) (w : Write) (v : Nat) : State :=
  let t := updKernel { s with writes := Table.del s.writes id } w.kernel fun k => { k with wct := max k.wct v }
  if slotHolds t w.ident then t else dropLate t w.ident

theorem State.acknowledged_keeps (s : State) (id : Nat) (w : Write) (v : Nat) :
    let t := s.acknowledged id w v
    t.writes = Table.del s.writes id ∧ t.mem = s.mem ∧ t.groups = s.groups ∧
      t.kernels = Table.upd s.kernels w.kernel fun k => { k with wct := max k.wct v } := by
  unfold State.acknowledged
  dsimp only
  split <;> exact ⟨rfl, rfl, rfl, rfl⟩

theorem execWriteAck_brings {s : State} {id v : Nat} {w : Write} {g : Group} (here : Table.look s.writes id = some w)
    (applied : w.wct = some v) (group : groupAt s w.gid = some g)
    (arrived : responseWaits s w.replied w.core w.ctx w.addr = false) :
    execWriteAck id s = .next (noteWct (s.acknowledged id w v) w.gid w.fibs w.scope v) := by
  have there : (groupAt (s.acknowledged id w v) w.gid).isSome = true := by
    unfold groupAt at group ⊢
    rw [(s.acknowledged_keeps id w v).2.2.1, group]
    rfl
  unfold execWriteAck
  rw [here]
  dsimp only
  rw [applied]
  dsimp only
  rw [if_neg (by simp [arrived])]
  exact congrArg _ (if_pos there)

/-- The acknowledgement of a write reaches its fibre and its kernel. -/
theorem ack_takes_effect {s : State} {id v fid : Nat} {w : Write} {g : Group} {x : Fibre}
    (here : Table.look s.writes id = some w) (applied : w.wct = some v) (group : groupAt s w.gid = some g)
    (fibre : Table.look g.fibres fid = some x) (mine : fid ∈ w.fibs)
    (arrived : responseWaits s w.replied w.core w.ctx w.addr = false) :
    Happens (.writeAck id) s fun t =>
      t.writes = Table.del s.writes id ∧ t.mem = s.mem ∧
      (∀ k, kernelAt s w.kernel = some k → ∃ k', kernelAt t w.kernel = some k' ∧ k'.wct = max k.wct v) ∧
      fibreAt t w.gid fid = some { x with wct := Table.ins x.wct w.scope (max v (Table.rd x.wct 0 w.scope)) } := by
  obtain ⟨writes, mem, groups, kernels⟩ := s.acknowledged_keeps id w v
  have group' : groupAt (s.acknowledged id w v) w.gid = some g := by
    unfold groupAt at group ⊢
    rw [groups, group]
  refine ⟨_, execWriteAck_brings here applied group arrived, writes, mem, fun k found => ⟨{ k with wct := max k.wct v }, ?_, rfl⟩,
    fibreAt_noteWct w.scope v group' fibre mine⟩
  unfold kernelAt at found
  rw [kernelAt_noteWct, kernelAt, kernels, Table.look_upd, if_pos rfl, found]
  rfl

/-! ## Update-only permission (09 R202) -/

/-- The partials of a core that share bytes with a reduction of another kind on their way home. -/
def State.partialsSent (s : State) (ck k : Nat) (op : AtomOp) (ty w : Nat) : State :=
  { s with partials := s.partials.map fun e =>
      if e.2.core = ck ∧ !e.2.fits k op ty w ∧ e.2.addr < k + w ∧ k < e.2.addr + e.2.width then
        (e.1, { e.2 with sent := true }) else e }

/-- A partial that stands after the sending stood before it, at the same place, and was not sent if it is not. -/
theorem mem_partialsSent {s : State} {ck k : Nat} {op : AtomOp} {ty w : Nat} {e : Nat × Partial}
    (mem : e ∈ (s.partialsSent ck k op ty w).partials) :
    ∃ x ∈ s.partials, x.2.core = e.2.core ∧ x.2.addr = e.2.addr ∧ (e.2.sent = false → x.2.sent = false) := by
  obtain ⟨x, listed, rfl⟩ := List.mem_map.1 mem
  refine ⟨x, listed, ?_⟩
  split
  · exact ⟨rfl, rfl, nofun⟩
  · exact ⟨rfl, rfl, fun unsent => unsent⟩

/-- An L1 holds no more lines where its bytes and its unsent partials are among those of another. -/
theorem length_l1Lines_le {s t : State} {ck : Nat} (bytes : ∀ e ∈ t.l1, ∃ x ∈ s.l1, x.1 = e.1)
    (partials : ∀ e ∈ t.partials, ∃ x ∈ s.partials,
      x.2.core = e.2.core ∧ x.2.addr = e.2.addr ∧ (e.2.sent = false → x.2.sent = false)) :
    (l1Lines t ck).length ≤ (l1Lines s ck).length := by
  unfold l1Lines
  refine length_dedup_le (List.append_subset.2 ⟨fun l mem => List.mem_append_left _ ?_, fun l mem => List.mem_append_right _ ?_⟩)
  · obtain ⟨e, held, rfl⟩ := List.mem_map.1 mem
    obtain ⟨listed, mine⟩ := List.mem_filter.1 held
    obtain ⟨x, mem', key⟩ := bytes e listed
    exact List.mem_map.2 ⟨x, List.mem_filter.2 ⟨mem', by rwa [key]⟩, by rw [key]⟩
  · obtain ⟨e, held, rfl⟩ := List.mem_map.1 mem
    obtain ⟨listed, unsent⟩ := List.mem_filter.1 held
    obtain ⟨x, mem', core, addr, still⟩ := partials e listed
    rw [Bool.and_eq_true, Bool.not_eq_true'] at unsent
    refine List.mem_map.2 ⟨x, List.mem_filter.2 ⟨mem', ?_⟩, by rw [addr]⟩
    rw [core, still unsent.2, unsent.1]
    rfl

/-- The partial that a reduction begins. -/
def newPartial (ck ctx k : Nat) (op : AtomOp) (ty w : Nat) (b : DWord) : Partial :=
  { core := ck, addr := k, op := op, ty := ty, width := w, val := b, sent := false, ctx := ctx }

/-- A core with room for the line, and no partial of the location, begins one (09 R202). -/
theorem foldInL1_begins {s : State} {ck k : Nat} (ctx : Nat) (op : AtomOp) (ty w : Nat) (b : DWord)
    (room : (l1Lines s ck).length < 2048) (fresh : ∀ e ∈ s.partials, ¬(e.2.core = ck ∧ e.2.addr = k)) :
    ∃ ps, foldInL1 s ck ctx k op ty w b =
      { s with nextId := s.nextId + 1, partials := Table.ins ps s.nextId (newPartial ck ctx k op ty w b) } := by
  have absent : (s.partialsSent ck k op ty w).partials.find? (fun e => e.2.core = ck && !e.2.sent && e.2.fits k op ty w) =
      none := by
    rw [List.find?_eq_none]
    intro e mem fits
    obtain ⟨x, mem', core, addr, -⟩ := mem_partialsSent mem
    simp only [Bool.and_eq_true, decide_eq_true_eq, Partial.fits] at fits
    exact fresh x mem' ⟨core.trans fits.1.1, addr.trans fits.2.1⟩
  have stays : l1Room (s.partialsSent ck k op ty w) ck (k / 128) = s.partialsSent ck k op ty w :=
    if_pos (.inl (lt_of_le_of_lt (length_l1Lines_le (s := s) (fun e mem => ⟨e, mem, rfl⟩) fun _ mem => mem_partialsSent mem) room))
  have folds : foldInL1 s ck ctx k op ty w b =
      match (s.partialsSent ck k op ty w).partials.find? fun e => e.2.core = ck && !e.2.sent && e.2.fits k op ty w with
      | some (id, p) =>
        { s.partialsSent ck k op ty w with
          partials := Table.ins (s.partialsSent ck k op ty w).partials id
            { p with val := BitVec.ofNat 64 (foldOp op w p.val.toNat b.toNat 0) } }
      | none =>
        let (n, u) := freshId (l1Room (s.partialsSent ck k op ty w) ck (k / 128))
        { u with partials := Table.ins u.partials n (newPartial ck ctx k op ty w b) } := rfl
  rw [absent, stays] at folds
  exact ⟨_, folds⟩

/-- The line's home and the core's copies where a core asks for the line update-only: it becomes a holder where it was none. -/
def State.asHolder (s : State) (w : Write) (grant : Nat) : State :=
  if (grantOf s w.core (w.addr / 128)).isSome then s else
    l1Forget (updHome s (w.addr / 128) fun h => { h with holders := h.holders ++ [(w.core, grant)] }) w.core
      (w.addr / 128 * 128) 128

/-- The grant's WCT: the core's own where it is a holder, else that of a write applied now. -/
def State.grantFor (s : State) (w : Write) : Nat := (grantOf s w.core (w.addr / 128)).getD (s.wctFor w)

theorem State.asHolder_keeps (s : State) (w : Write) (grant : Nat) :
    (s.asHolder w grant).mem = s.mem ∧ (s.asHolder w grant).partials = s.partials ∧
      (s.asHolder w grant).nextId = s.nextId ∧ (s.asHolder w grant).writes = s.writes ∧ (s.asHolder w grant).dies = s.dies := by
  have same : ∃ hs l f, s.asHolder w grant = { s with homes := hs, l1 := l, fills := f } := by
    unfold State.asHolder
    split
    · exact ⟨s.homes, s.l1, s.fills, rfl⟩
    · obtain ⟨l, f, forgot⟩ := onlyL1_l1Forget (updHome s (w.addr / 128) fun h =>
        { h with holders := h.holders ++ [(w.core, grant)] }) w.core (w.addr / 128 * 128) 128
      exact ⟨_, l, f, forgot⟩
  obtain ⟨hs, l, f, same⟩ := same
  rw [same]
  exact ⟨rfl, rfl, rfl, rfl, rfl⟩

theorem State.asHolder_bytes {s : State} {w : Write} {grant : Nat} {e : Nat × L1Byte} (mem : e ∈ (s.asHolder w grant).l1) :
    e ∈ s.l1 := by
  unfold State.asHolder at mem
  split at mem
  · exact mem
  · exact List.mem_of_mem_filter mem

theorem State.length_l1Lines_asHolder (s : State) (w : Write) (grant : Nat) :
    (l1Lines (s.asHolder w grant) w.core).length ≤ (l1Lines s w.core).length := by
  refine length_l1Lines_le (fun e mem => ⟨e, State.asHolder_bytes mem, rfl⟩) fun e mem => ⟨e, ?_, rfl, rfl, id⟩
  rwa [(s.asHolder_keeps w grant).2.1] at mem

/-- A reduction answered with its WCT, which its context waits for (09 R202). -/
def State.granted (s : State) (id : Nat) (w : Write) (grant : Nat) : State :=
  let (m, s) := freshId s
  let wct := max grant (gtOf s (coreDie w.core))
  let s := updCtx s w.ctx fun c => { c with wct := max c.wct wct }
  { s with writes := Table.ins s.writes id { w with wct := some wct, replied := m } }

theorem execUpdateOnlyGrant_grants {s : State} {id ty n : Nat} {f : AtomOp} {b : DWord} {w : Write}
    (here : Table.look s.writes id = some w) (kind : w.kind = .reduce f ty n b) (may : applicable s id w = true)
    (arrived : requestWaits s id w.core w.ctx w.addr = false) :
    execUpdateOnlyGrant id s = .next (
      let u := foldInL1 (s.asHolder w (s.grantFor w)) w.core w.ctx w.addr f ty n b
      u.granted id w (s.grantFor w)) := by
  have answers : execUpdateOnlyGrant id s = .next (match some w with
      | none => s
      | some w => match w.kind with
        | .reduce f ty n b =>
          if !applicable s id w ∨ requestWaits s id w.core w.ctx w.addr then s
          else
            let u := foldInL1 (s.asHolder w (s.grantFor w)) w.core w.ctx w.addr f ty n b
            u.granted id w (s.grantFor w)
        | _ => s) := by
    rw [← here]
    rfl
  rw [answers]
  dsimp only
  rw [kind]
  dsimp only
  rw [if_neg (by simp [may, arrived])]

theorem State.granted_keeps (s : State) (id : Nat) (w : Write) (grant : Nat) :
    (s.granted id w grant).mem = s.mem ∧ (s.granted id w grant).partials = s.partials ∧
      (s.granted id w grant).homes = s.homes ∧ Table.look (s.granted id w grant).writes id =
        some { w with wct := some (max grant (gtOf s (coreDie w.core))), replied := s.nextId } :=
  ⟨rfl, rfl, rfl, Table.look_ins_same ..⟩

/-- A core that is no holder has no grant, and becomes one. -/
theorem State.asHolder_new {s : State} {w : Write} (grant : Nat)
    (stranger : ∀ h ∈ (homeOf s (w.addr / 128)).holders, h.1 ≠ w.core) :
    grantOf s w.core (w.addr / 128) = none ∧ (s.asHolder w grant).homes =
      (updHome s (w.addr / 128) fun h => { h with holders := h.holders ++ [(w.core, grant)] }).homes := by
  have none_ : grantOf s w.core (w.addr / 128) = none := by
    unfold grantOf
    rw [List.find?_eq_none.2 fun h mem => by simpa using stranger h mem]
    rfl
  refine ⟨none_, ?_⟩
  unfold State.asHolder
  rw [none_]
  obtain ⟨l, f, forgot⟩ := onlyL1_l1Forget (updHome s (w.addr / 128) fun h =>
    { h with holders := h.holders ++ [(w.core, grant)] }) w.core (w.addr / 128 * 128) 128
  rw [if_neg (by simp), forgot]

/-- A core that is a holder stays what it is. -/
theorem State.asHolder_known {s : State} {w : Write} (grant : Nat) {v : Nat}
    (known : grantOf s w.core (w.addr / 128) = some v) : s.asHolder w grant = s := by
  unfold State.asHolder
  rw [known]
  rfl

/-- A reduction's core becomes a holder, where it was none, and holds the reduction as a partial. -/
theorem grant_takes_effect {s : State} {id ty n : Nat} {f : AtomOp} {b : DWord} {w : Write}
    (here : Table.look s.writes id = some w) (kind : w.kind = .reduce f ty n b) (may : applicable s id w = true)
    (form : Table.wf s.homes HomeLine.blank = true) (room : (l1Lines s w.core).length < 2048)
    (fresh : ∀ e ∈ s.partials, ¬(e.2.core = w.core ∧ e.2.addr = w.addr))
    (arrived : requestWaits s id w.core w.ctx w.addr = false) :
    Happens (.updateOnlyGrant id) s fun t =>
      t.mem = s.mem ∧ Table.look t.partials s.nextId = some (newPartial w.core w.ctx w.addr f ty n b) ∧
      ((∀ h ∈ (homeOf s (w.addr / 128)).holders, h.1 ≠ w.core) →
        (w.core, s.wctFor w) ∈ (homeOf t (w.addr / 128)).holders ∧
        ∃ m, s.nextId ≤ m ∧
          Table.look t.writes id = some { w with replied := m, wct := some (max (s.wctFor w) (gtOf s (coreDie w.core))) }) ∧
      ∀ v, grantOf s w.core (w.addr / 128) = some v → t.homes = s.homes ∧
        ∃ m, s.nextId ≤ m ∧
          Table.look t.writes id = some { w with replied := m, wct := some (max v (gtOf s (coreDie w.core))) } := by
  obtain ⟨mem, partials, next, -, dies⟩ := s.asHolder_keeps w (s.grantFor w)
  obtain ⟨ps, folded⟩ := foldInL1_begins w.ctx f ty n b
    (lt_of_le_of_lt (s.length_l1Lines_asHolder w (s.grantFor w)) room) (by rw [partials]; exact fresh)
  have ran := execUpdateOnlyGrant_grants here kind may arrived
  dsimp only at ran
  rw [folded, next] at ran
  obtain ⟨mem', partials', homes', answered⟩ := State.granted_keeps { s.asHolder w (s.grantFor w) with
      nextId := s.nextId + 1
      partials := Table.ins ps s.nextId (newPartial w.core w.ctx w.addr f ty n b) } id w (s.grantFor w)
  have gt : gtOf { s.asHolder w (s.grantFor w) with
      nextId := s.nextId + 1
      partials := Table.ins ps s.nextId (newPartial w.core w.ctx w.addr f ty n b) } (coreDie w.core) =
        gtOf s (coreDie w.core) := by
    unfold gtOf dieAt
    rw [dies]
  rw [gt] at answered
  refine ⟨_, ran, mem'.trans mem, by rw [partials']; exact Table.look_ins_same .., fun stranger => ?_, fun v known => ?_⟩
  · obtain ⟨none_, homes⟩ := State.asHolder_new (s.grantFor w) stranger
    have grant : s.grantFor w = s.wctFor w := by rw [State.grantFor, none_]; rfl
    rw [grant] at answered homes homes'
    refine ⟨?_, _, Nat.le_succ _, by rw [grant]; exact answered⟩
    have line : homeOf (updHome s (w.addr / 128) fun h => { h with holders := h.holders ++ [(w.core, s.wctFor w)] })
      (w.addr / 128) = _ := homeOf_updHome form _ _
    rw [grant]
    unfold homeOf at line ⊢
    rw [homes', homes, line]
    exact List.mem_append_right _ (List.mem_singleton_self _)
  · have grant : s.grantFor w = v := by rw [State.grantFor, known]; rfl
    rw [grant] at answered homes' ⊢
    exact ⟨homes'.trans (by rw [State.asHolder_known v known]), _, Nat.le_succ _, answered⟩

/-! ## Partials folded at home, recalls, evictions (09 R191, R203; 13 R290) -/

/-- A partial folded into a line that is not poisoned changes memory there, and no record of partials or of lines. -/
theorem foldPartial_folds {s : State} {p : Partial} (good : poisoned s p.addr = false) :
    (foldPartial s p).mem = foldAt s.mem p.addr p.op p.width p.val.toNat 0 ∧ (foldPartial s p).partials = s.partials ∧
      (foldPartial s p).homes = s.homes := by
  obtain ⟨_, _, _, _, _, _, _, touched⟩ := homeTouch_eq s p.ctx (coreDie p.core) (p.addr / 128) true
  unfold foldPartial
  rw [if_neg (by simp [good])]
  dsimp only
  rw [touched]
  obtain ⟨_, _, woken⟩ := wakeSpin_eq { homeTouch s p.ctx (coreDie p.core) (p.addr / 128) true with
    mem := foldAt s.mem p.addr p.op p.width p.val.toNat 0 } (p.addr / 128)
  rw [touched] at woken
  refine ⟨(congrArg State.mem woken).trans rfl, (congrArg State.partials woken).trans rfl, (congrArg State.homes woken).trans rfl⟩

/-- The state once a partial has come home: folded, and on no list any more. -/
def State.partialHome (s : State) (id : Nat) (p : Partial) : State :=
  { foldPartial s p with partials := Table.del s.partials id }

theorem State.partialHome_folds {s : State} {p : Partial} (id : Nat) (good : poisoned s p.addr = false) :
    (s.partialHome id p).mem = foldAt s.mem p.addr p.op p.width p.val.toNat 0 ∧
      (s.partialHome id p).partials = Table.del s.partials id ∧ (s.partialHome id p).homes = s.homes := by
  obtain ⟨mem, -, homes⟩ := foldPartial_folds good
  exact ⟨mem, rfl, homes⟩

/-- A partial that came home first of its core's on the line is folded (09 R203). -/
theorem partial_takes_effect {s : State} {id : Nat} {p : Partial} (here : Table.look s.partials id = some p)
    (sent : p.sent = true)
    (first : ∀ e ∈ s.partials, e.1 < id → e.2.sent = true → e.2.core = p.core → e.2.addr / 128 ≠ p.addr / 128)
    (free : (homeOf s (p.addr / 128)).hold = none) (good : poisoned s p.addr = false)
    (arrived : underWay s 0 id (p.addr / 128) (coreDie p.core) (homeDie s p.ctx p.addr) = false) :
    Happens (.partialFold id) s fun t =>
      t.mem = foldAt s.mem p.addr p.op p.width p.val.toNat 0 ∧ t.partials = Table.del s.partials id := by
  have earliest : (s.partials.any fun e =>
      e.1 < id && e.2.sent && decide (e.2.core = p.core ∧ e.2.addr / 128 = p.addr / 128)) = false := by
    rw [List.any_eq_false]
    intro e mem before
    simp only [Bool.and_eq_true, decide_eq_true_eq] at before
    exact first e mem before.1.1 before.1.2 before.2.1 before.2.2
  obtain ⟨mem, partials, -⟩ := State.partialHome_folds id good
  refine ⟨_, rfl, ?_⟩
  simp only [here, sent, earliest, free, arrived, Bool.not_true, Bool.false_eq_true, Option.isSome_none, or_self, if_false]
  split <;> exact ⟨mem, partials⟩

/-- A recall folds a line's one partial and ends every permission (09 R203). -/
theorem recallLine_one {s : State} {line id : Nat} {p : Partial} (form : Table.wf s.homes HomeLine.blank = true)
    (held : (homeOf s line).holders ≠ []) (one : partialsOf s line = [(id, p)]) (good : poisoned s p.addr = false) :
    homeOf (recallLine s line) line = { homeOf s line with holders := [], recalling := false, hold := none } ∧
      (recallLine s line).mem = foldAt s.mem p.addr p.op p.width p.val.toNat 0 ∧
      (recallLine s line).partials = Table.del s.partials id := by
  obtain ⟨h, ways⟩ := foldl_needWay_eq (lineDie s line) (homeOf s line).holders s
  have one' : partialsOf { s with held := h } line = [(id, p)] := one
  obtain ⟨mem, partials, homes⟩ := State.partialHome_folds (s := { s with held := h }) id good
  have recalled : recallLine s line = updHome (State.partialHome { s with held := h } id p) line
      fun h => { h with holders := [], recalling := false, hold := none } := by
    unfold recallLine
    dsimp only
    rw [if_neg (fun none_ => held none_.1), ways, one']
    simp [dedup, choose, one', State.partialHome]
  have same : homeOf (State.partialHome { s with held := h } id p) line = homeOf s line :=
    congrArg (fun t => Table.rd t HomeLine.blank line) homes
  rw [recalled]
  refine ⟨?_, mem, partials⟩
  rw [homeOf_updHome (by rw [homes]; exact form), same]

theorem evictLine_takes_effect (s : State) (core line : Nat) :
    (∀ e ∈ (evictLine s core line).l1, ¬(e.1 / 2 ^ 48 = core ∧ e.1 % 2 ^ 48 / 128 = line)) ∧
      (∀ e ∈ (evictLine s core line).partials, e.2.core = core → e.2.addr / 128 = line → e.2.sent = true) ∧
      (evictLine s core line).mem = (l1WriteBack s core fun k _ => decide (k / 128 = line)).2.mem := by
  refine ⟨fun e mem there => ?_, fun e mem own there => ?_, ?_⟩
  · have kept := (List.mem_filter.1 mem).2
    simp only [there.1, there.2, decide_true, Bool.and_self, Bool.not_true, Bool.false_eq_true] at kept
  · obtain ⟨x, -, rfl⟩ := List.mem_map.1 mem
    by_cases hit : x.2.core = core ∧ x.2.addr / 128 = line
    · rw [if_pos hit]
    · rw [if_neg hit] at own there
      exact absurd ⟨own, there⟩ hit
  · unfold evictLine
    rfl

/-- Settles O31, event by event at a line's home. -/
theorem homeEventsTakeEffect : Obligations.HomeEventsTakeEffect := by
  unfold Obligations.HomeEventsTakeEffect
  refine ⟨fun s id w bs here kind may clear good form arrived => store_applied here may clear arrived kind good form,
    fun s id op lane n f b c w here kind may clear arrived => atomic_applied here may clear arrived kind,
    fun s id v fid w g x here applied group fibre mine arrived => ack_takes_effect here applied group fibre mine arrived,
    fun s id ty n f b w here kind may form room fresh arrived => grant_takes_effect here kind may form room fresh arrived,
    fun s id p here sent first free good arrived => partial_takes_effect here sent first free good arrived,
    fun s line recalling form open_ id p held one good => ?_, fun s line op held form => ?_,
    fun s core line => ⟨_, rfl, evictLine_takes_effect s core line⟩⟩
  · exact ⟨_, congrArg Host.Outcome.next (if_pos ⟨recalling, by simp [open_]⟩), recallLine_one form held one good⟩
  · exact ⟨_, congrArg Host.Outcome.next (if_pos (by rw [held]; rfl)), homeOf_updHome form .., rfl⟩

end Sys2Proof.Machine
end

section
/-! SUPPORT. A state in which CWB writes a page back though none of its range's pieces is served (10 R215; 11 R249): a range
entry that begins amid a 64 KiB page. -/

namespace Sys2Proof.Machine

/-- A range entry over all but the first 4 KiB of the first page, with STATE 3, scope 2, WR and CACHE. -/
def gapRange : RangeEntry :=
  { base := 0x1000, limit := 0x10000, offset := 0, attr := BitVec.ofNat 64 (3 * 2 ^ 61 + 2 ^ 59 + 2 ^ 57 + 2 * 2 ^ 54) }

/-- A group whose S2 holds the length of the first 8 KiB. -/
def gapGroup : Group := { placedGroup 0 with s := [(2, 0x2000)] }

/-- That group, its fibre issuing, its core holding one dirty byte of the range entry's page. -/
def gapState : State :=
  { placeWord State.reset 0 with
      cur := some (0, 0), groups := [(0, gapGroup)], rangeTlb := [(0, 0, [gapRange])]
      l1 := [(0x1000, { val := 5, scope := 1, expiry := 0, dirty := true, owner := none, ctx := 0, served := 0 })] }

/-- Its issuing fibre. -/
def gapIss : Iss := { gid := 0, fid := 0, g := gapGroup, f := placedFibre 0, k := placedKernel, b := placedBlock }

theorem gapIss_plain : gapIss.plain gapState := by
  unfold Iss.plain Iss.quiet
  decide +kernel

/-- No page is served at the one address that stands for the range, its first. -/
theorem gapIss_nothingServed : gapIss.nothingServed gapState
    (rangePieces (gapIss.g.readPair (0 : BitVec 6).toNat).toNat (gapIss.g.readS (2 : BitVec 6).toNat).toNat) := by
  unfold Iss.nothingServed
  decide +kernel

/-- Whether the byte of the first core's L1 at an address is dirty after a meaning. -/
def dirtyAfter (o : Out) (a : Nat) : Option Bool :=
  match o with
  | .next t => (Table.look t.l1 a).map (·.dirty)
  | _ => none

/-- CWB writes the byte back, for its own 4 KiB is served. -/
theorem cwb_gap_cleans : dirtyAfter (exec (.cwb 0 2) gapState) 0x1000 = some false := by decide +kernel

/-- Refutes O17: the statement asks whether a page is served at one address of each 64 KiB, and CWB asks it of each 4 KiB. No
hypothesis says that range entries begin at a multiple of 64 KiB: in the state above CWB should leave its core's L1 as it is,
and cleans a byte of it. -/
theorem not_orderingWordsPassOrTrap : ¬ Obligations.OrderingWordsPassOrTrap := by
  unfold Obligations.OrderingWordsPassOrTrap
  rintro ⟨passes, -⟩
  obtain ⟨-, -, -, -, cached⟩ := passes gapState gapIss 0 2 gapIss_plain rfl
  obtain ⟨⟨t, ran, -, -, l1⟩, -, -⟩ := cached rfl (fun _ _ => rfl) gapIss_nothingServed
  have cleaned : dirtyAfter (.next t) 0x1000 = some false := (congrArg (dirtyAfter · 0x1000) ran).symm.trans cwb_gap_cleans
  have kept : dirtyAfter (.next t) 0x1000 = some true := by
    unfold dirtyAfter
    dsimp only
    rw [l1]
    rfl
  exact absurd (kept.symm.trans cleaned) (by decide)

end Sys2Proof.Machine
end

section
/-! SUPPORT. A state in which an aligned store meets a poisoned line though the line of its first byte is sound (10 R215, R225;
11 R233): a range entry whose OFFSET is no multiple of 128. -/

namespace Sys2Proof.Machine

/-- A range entry over the first page, one byte up, with STATE 3, scope 2, WR and CACHE. -/
def skewRange : RangeEntry :=
  { base := 0, limit := 0x10000, offset := 1, attr := BitVec.ofNat 64 (3 * 2 ^ 61 + 2 ^ 59 + 2 ^ 57 + 2 * 2 ^ 54) }

/-- A fibre of lane 0 alone. -/
def loneFibre : Fibre := { placedFibre 0 with p0 := 1 }

/-- A group of that fibre, whose V0 holds in lane 0 the address of the last word of the first line. -/
def skewGroup : Group := { placedGroup 0 with v := [(0, 124)], fibres := [(0, loneFibre)] }

/-- That group, its fibre issuing, under the range entry, the second line of memory poisoned. -/
def skewState : State :=
  { placeWord State.reset 0 with
      cur := some (0, 0), groups := [(0, skewGroup)], rangeTlb := [(0, 0, [skewRange])], poison := [1] }

/-- Its issuing fibre. -/
def skewIss : Iss := { gid := 0, fid := 0, g := skewGroup, f := loneFibre, k := placedKernel, b := placedBlock }

/-- The page of the store's address. -/
def skewPage : Pg := { st := 3, leaf := skewRange.attr.toNat, sz := 16, va := 0, leafAddr := none, range := some 1 }

theorem skewIss_modified : skewIss.modified skewState Mods.plain := by
  unfold Iss.modified Iss.quiet
  decide +kernel

theorem skewIss_lanes : skewIss.memoryLanes Mods.plain = [0] := by decide +kernel

theorem skewIss_address : skewIss.globalAddress Mods.plain (.v 0) 0 4 0 = 124 := by decide +kernel

/-- The page lets the store through, as the line of its first byte says. -/
theorem skewIss_reaches : skewIss.reaches skewState true 124 skewPage := by
  unfold Iss.reaches
  decide +kernel

/-- What the fibre has buffered after a meaning. -/
def bufferAfter (o : Out) : Option (List BufEntry) :=
  match o with
  | .next t => (fibreAt t 0 0).map (·.buffer)
  | _ => none

/-- The store's last byte lies in the poisoned line, and nothing is buffered. -/
theorem st32_skew_unbuffered : bufferAfter (exec (.st32 (.v 4) (.v 0) 0) skewState) = some [] := by decide +kernel

theorem bufferAfter_put (t : State) (g : Group) (f : Fibre) :
    bufferAfter (.next (skewIss.put t (skewIss.withFibre g f))) = some f.buffer := by
  have group : groupAt (skewIss.put t (skewIss.withFibre g f)) 0 = some (skewIss.withFibre g f) := groupAt_put t skewIss _
  have fibre : Table.look (skewIss.withFibre g f).fibres 0 = some f := look_withFibre skewIss g f
  unfold bufferAfter fibreAt
  dsimp only
  rw [group, Option.bind_some, fibre, Option.map_some]

/-- Refutes O19: the statement asks whether the line of a lane's first byte is poisoned, and no hypothesis keeps a range entry's
OFFSET to multiples of 128, with which an aligned access lies in one line. In the state above the store should be buffered, and
its last byte meets the poisoned line. -/
theorem not_laneStoresAreTaken : ¬ Obligations.LaneStoresAreTaken := by
  unfold Obligations.LaneStoresAreTaken
  rintro ⟨buffers, -, -⟩
  have lanes (l : Nat) (mem : l ∈ skewIss.memoryLanes Mods.plain) : let va := skewIss.globalAddress Mods.plain (.v 0) 0 4 l
      va % 4 = 0 ∧ skewIss.unlocked skewState false true va 4 ∧ skewIss.reaches skewState true va skewPage := by
    rw [skewIss_lanes, List.mem_singleton] at mem
    rw [mem, skewIss_address]
    exact ⟨rfl, nofun, skewIss_reaches⟩
  obtain ⟨taken, -⟩ := buffers skewState skewIss Mods.plain (.st32 (.v 4) (.v 0) 0) (.v 4) (.v 0) 0 4 (fun _ => skewPage)
    skewIss_modified rfl (by unfold Mods.memory; decide) rfl (by unfold Iss.fieldsReady; decide +kernel) lanes
  have buffered := (congrArg bufferAfter (taken (by decide +kernel))).trans (bufferAfter_put ..)
  have same := Option.some.inj (buffered.symm.trans st32_skew_unbuffered)
  rw [skewIss_lanes] at same
  exact absurd same (by simp [skewIss, loneFibre, placedFibre, entryOf])

end Sys2Proof.Machine
end

section
/-! SUPPORT. What a commit, a write-back and a prefetch leave of the groups (09 R191, R197 to R203; 11 R240 to R250): every
register, and of each fibre all but its completion times and what it waits for. -/

namespace Sys2Proof.Machine

/-! ## The relation -/

/-- What a fibre shows beside its completion times and its wait (07 R153; 09 R197; 17 R360). -/
def Fibre.face (f : Fibre) : Fibre := { f with state := .ready, wct := [], readySince := none, due := false }

/-- A group's registers. -/
def Group.files (g : Group) : Table Word × Table Word × Table Word × Table Mask × Table Word := (g.v, g.o, g.s, g.p, g.acc)

/-- A group's fibres by what they show. -/
def Group.faces (g : Group) : Table Fibre := g.fibres.map fun e => (e.1, e.2.face)

/-- That an operation from `s` to `t` leaves the partitions, the contexts, and of each group what it shows. -/
structure KeepsFaces (s t : State) : Prop where
  partitions : t.partitions = s.partitions
  contexts : t.contexts = s.contexts
  groups : ∀ n, (groupAt t n).map (fun g => (g.files, g.faces)) = (groupAt s n).map fun g => (g.files, g.faces)

theorem KeepsFaces.refl (s : State) : KeepsFaces s s := ⟨rfl, rfl, fun _ => rfl⟩

theorem KeepsFaces.trans {s t u : State} (a : KeepsFaces s t) (b : KeepsFaces t u) : KeepsFaces s u :=
  ⟨b.partitions.trans a.partitions, b.contexts.trans a.contexts, fun n => (b.groups n).trans (a.groups n)⟩

/-- The operation made last, and what came before it. -/
theorem KeepsFaces.after {s t u : State} (b : KeepsFaces t u) (a : KeepsFaces s t) : KeepsFaces s u := a.trans b

theorem KeepsFaces.of_eq {s t : State} (partitions : t.partitions = s.partitions) (contexts : t.contexts = s.contexts)
    (groups : t.groups = s.groups) : KeepsFaces s t :=
  ⟨partitions, contexts, fun n => by unfold groupAt; rw [groups]⟩

theorem KeepsFaces.ite {s a b : State} {c : Prop} [Decidable c] (ha : KeepsFaces s a) (hb : KeepsFaces s b) :
    KeepsFaces s (if c then a else b) := by
  split
  · exact ha
  · exact hb

theorem KeepsFaces.foldl {β : Type} {f : State → β → State} (hf : ∀ s b, KeepsFaces s (f s b)) (bs : List β) (s : State) :
    KeepsFaces s (bs.foldl f s) := by
  induction bs generalizing s with
  | nil => exact .refl s
  | cons b bs ih => exact (hf s b).trans (ih _)

/-- A fold whose accumulator carries something beside the state. -/
theorem KeepsFaces.foldl_snd {α β : Type} {f : α × State → β → α × State} (hf : ∀ acc b, KeepsFaces acc.2 (f acc b).2)
    (bs : List β) (acc : α × State) : KeepsFaces acc.2 (bs.foldl f acc).2 := by
  induction bs generalizing acc with
  | nil => exact .refl _
  | cons b bs ih => exact (hf acc b).trans (ih _)

/-- A change of every group under its own key that leaves what it shows. -/
theorem KeepsFaces.of_map {s t : State} {h : Nat × Group → Nat × Group} (partitions : t.partitions = s.partitions)
    (contexts : t.contexts = s.contexts) (groups : t.groups = s.groups.map h)
    (keeps : ∀ e, (h e).1 = e.1 ∧ (h e).2.files = e.2.files ∧ (h e).2.faces = e.2.faces) : KeepsFaces s t := by
  refine ⟨partitions, contexts, fun n => ?_⟩
  unfold groupAt
  rw [groups, look_map _ _ fun e => (keeps e).1, Option.map_map]
  cases Table.look s.groups n with
  | none => rfl
  | some g => exact congrArg some (Prod.ext (keeps (n, g)).2.1 (keeps (n, g)).2.2)

theorem keepsFaces_updGroup {f : Group → Group} (keeps : ∀ g, (f g).files = g.files ∧ (f g).faces = g.faces) (s : State)
    (gid : Nat) : KeepsFaces s (updGroup s gid f) := by
  refine ⟨rfl, rfl, fun n => ?_⟩
  unfold groupAt updGroup
  rw [Table.look_upd]
  split
  · rw [Option.map_map]
    refine congrArg (fun h => (Table.look s.groups n).map h) (funext fun g => ?_)
    exact Prod.ext (keeps g).1 (keeps g).2
  · rfl

/-- Fibres changed one by one under their keys show what they showed where each does. -/
theorem faces_of_map {g : Group} {fs : Table Fibre} {h : Nat × Fibre → Nat × Fibre} (fibres : fs = g.fibres.map h)
    (keeps : ∀ e, (h e).1 = e.1 ∧ (h e).2.face = e.2.face) : fs.map (fun e => (e.1, e.2.face)) = g.faces := by
  rw [fibres, List.map_map]
  exact List.map_congr_left fun e _ => Prod.ext (keeps e).1 (keeps e).2

/-! ## Homes (09 R186 to R203; 10 R225) -/

theorem keepsFaces_homeTouch (s : State) (ctx requester line : Nat) (write : Bool) :
    KeepsFaces s (homeTouch s ctx requester line write) := by
  obtain ⟨_, _, _, _, _, _, _, touched⟩ := homeTouch_eq s ctx requester line write
  rw [touched]
  exact .of_eq rfl rfl rfl

theorem keepsFaces_needWay (s : State) (src dest : Nat) : KeepsFaces s (needWay s src dest) :=
  .ite (.of_eq rfl rfl rfl) (.refl s)

theorem keepsFaces_needHome (s : State) (ctx die line : Nat) : KeepsFaces s (needHome s ctx die line) := by
  have way : KeepsFaces s (needWay s die (homeDie s ctx (line * 128))) := keepsFaces_needWay _ _ _
  unfold needHome
  dsimp only
  generalize needWay s die (homeDie s ctx (line * 128)) = t at way ⊢
  split <;> split <;> exact way.trans (.of_eq rfl rfl rfl)

theorem keepsFaces_choose (s : State) (n : Nat) : KeepsFaces s (choose s n).2 := by
  obtain ⟨c, made⟩ := choose_eq s n
  rw [made]
  exact .of_eq rfl rfl rfl

theorem keepsFaces_keepHelps (s : State) (hs : List (Nat × Nat)) : KeepsFaces s (keepHelps s hs) :=
  .ite (.refl s) (.of_map rfl rfl rfl fun _ => ⟨rfl, rfl, rfl⟩)

/-- A wake changes of a spinning fibre what it waits for (17 R360). -/
theorem keepsFaces_wakeSpin (s : State) (line : Nat) : KeepsFaces s (wakeSpin s line) := by
  have kept := keepsFaces_keepHelps s (s.helps.filter fun h => h.2 ≠ line)
  unfold wakeSpin
  generalize keepHelps s (s.helps.filter fun h => h.2 ≠ line) = t at kept ⊢
  refine kept.trans (.of_map rfl rfl rfl fun e => ?_)
  split
  · refine ⟨rfl, rfl, ?_⟩
    refine faces_of_map (g := e.2) rfl fun x => ?_
    split
    · exact ⟨rfl, rfl⟩
    · exact ⟨rfl, rfl⟩
  · exact ⟨rfl, rfl, rfl⟩

theorem keepsFaces_writeLeaf (s : State) (ctx a leaf : Nat) : KeepsFaces s (writeLeaf s ctx a leaf) := by
  have written (u : State) (m : List Host.Cell) : KeepsFaces u { u with mem := m } := .of_eq rfl rfl rfl
  exact (keepsFaces_homeTouch _ _ _ _ _).trans (written _ _)

theorem keepsFaces_dropTlb (s : State) (ctx va size : Nat) : KeepsFaces s (dropTlb s ctx va size) := .of_eq rfl rfl rfl

theorem keepsFaces_clearPoison (s : State) (ls : List Nat) : KeepsFaces s (clearPoison s ls) := by
  have mended (ps ms : List Nat) : KeepsFaces s { s with poison := ps, mended := ms } := .of_eq rfl rfl rfl
  unfold clearPoison
  split
  · exact .refl s
  · refine (mended _ _).trans (.foldl (fun s x => ?_) _ _)
    split
    · exact (keepsFaces_writeLeaf _ _ _ _).trans (keepsFaces_dropTlb _ _ _ _)
    · exact .refl s

theorem keepsFaces_foldPartial (s : State) (p : Partial) : KeepsFaces s (foldPartial s p) := by
  have written (u : State) (m : List Host.Cell) (line : Nat) : KeepsFaces u (wakeSpin { u with mem := m } line) :=
    KeepsFaces.trans (t := { u with mem := m }) (.of_eq rfl rfl rfl) (keepsFaces_wakeSpin _ _)
  unfold foldPartial
  split
  · exact .refl s
  · exact (keepsFaces_homeTouch _ _ _ _ _).trans (written _ _ _)

theorem keepsFaces_updHome (s : State) (line : Nat) (f : HomeLine → HomeLine) : KeepsFaces s (updHome s line f) :=
  .of_eq rfl rfl rfl

theorem keepsFaces_recallLine (s : State) (line : Nat) : KeepsFaces s (recallLine s line) := by
  have ended (u : State) (ps : Table Partial) : KeepsFaces u { u with partials := ps } := .of_eq rfl rfl rfl
  have folded (es : List (Nat × Partial)) (u : State) : KeepsFaces u (es.foldl (fun s e =>
      { foldPartial s e.2 with partials := Table.del s.partials e.1 }) u) := by
    refine .foldl (fun s e => ?_) es u
    exact (keepsFaces_foldPartial s e.2).trans (ended _ _)
  have ways (cs : List (Nat × Nat)) (d : Nat) (u : State) : KeepsFaces u (cs.foldl (fun s c =>
      needWay (needWay s d (coreDie c.1)) (coreDie c.1) d) u) := by
    refine .foldl (fun s c => ?_) cs u
    exact (keepsFaces_needWay _ _ _).trans (keepsFaces_needWay _ _ _)
  unfold recallLine
  dsimp only
  split
  · exact .refl s
  · refine .trans ?_ (keepsFaces_updHome _ _ _)
    refine .trans ?_ (.foldl (fun _ _ => folded _ _) _ _)
    exact (ways _ _ s).trans (keepsFaces_choose _ _)

/-- A line's home asked, its line recalled and touched. -/
theorem keepsFaces_homeAccess (s : State) (ctx die l : Nat) (w : Bool) :
    KeepsFaces s (homeTouch (recallLine (needHome s ctx die l) l) ctx die l w) :=
  (keepsFaces_needHome _ _ _ _).trans ((keepsFaces_recallLine _ _).trans (keepsFaces_homeTouch _ _ _ _ _))

/-! ## L1 caches (09 R191, R203) -/

theorem keepsFaces_l1Forget (s : State) (ck k n : Nat) : KeepsFaces s (l1Forget s ck k n) := .of_eq rfl rfl rfl

theorem keepsFaces_acquireL1 (s : State) (ck sc : Nat) : KeepsFaces s (acquireL1 s ck sc) := .of_eq rfl rfl rfl

theorem keepsFaces_l1Touch (s : State) (ck gid k : Nat) : KeepsFaces s (l1Touch s ck gid k) := .of_eq rfl rfl rfl

theorem keepsFaces_l1WriteBack (s : State) (ck : Nat) (p : Nat → L1Byte → Bool) : KeepsFaces s (l1WriteBack s ck p).2 := by
  have bytes (es : List (Nat × L1Byte)) (u : State) : KeepsFaces u (es.foldl (fun s e =>
      { s with mem := Memory.write s.mem (e.1 % 2 ^ 48) e.2.val
               l1 := Table.ins s.l1 e.1 { e.2 with dirty := false } }) u) := by
    refine .foldl (fun s e => ?_) es u
    exact .of_eq rfl rfl rfl
  unfold l1WriteBack
  refine KeepsFaces.foldl_snd (fun acc line => ?_) _ (0, s)
  exact (keepsFaces_homeAccess acc.2 _ _ line _).trans ((bytes _ _).trans (keepsFaces_wakeSpin _ _))

theorem keepsFaces_evictLine (s : State) (ck line : Nat) : KeepsFaces s (evictLine s ck line) := by
  have written := keepsFaces_l1WriteBack s ck fun k _ => decide (k / 128 = line)
  unfold evictLine
  dsimp only
  generalize l1WriteBack s ck (fun k _ => decide (k / 128 = line)) = r at written ⊢
  exact written.trans (.of_eq rfl rfl rfl)

theorem keepsFaces_l1Room (s : State) (ck line : Nat) : KeepsFaces s (l1Room s ck line) :=
  .ite (.refl s) ((keepsFaces_choose _ _).trans (keepsFaces_evictLine _ _ _))

theorem keepsFaces_l1Store (s : State) (ck gid ctx scope k : Nat) (bs : List Byte) :
    KeepsFaces s (l1Store s ck gid ctx scope k bs) := by
  refine .foldl (fun s line => ?_) _ s
  have touched : KeepsFaces s (l1Touch (l1Room s ck line) ck gid (line * 128)) :=
    (keepsFaces_l1Room _ _ _).trans (keepsFaces_l1Touch _ _ _ _)
  dsimp only
  generalize l1Touch (l1Room s ck line) ck gid (line * 128) = t at touched ⊢
  exact touched.trans (.of_eq rfl rfl rfl)

theorem keepsFaces_l1Load (s : State) (ck ctx k n : Nat) : KeepsFaces s (l1Load s ck ctx k n).2 :=
  .foldl (fun s _ => .ite (.refl s) (keepsFaces_homeAccess _ _ _ _ _)) _ s

theorem keepsFaces_captureBefore (s : State) (gid : Nat) (fibs : List Nat) (ck ctx k n : Nat) :
    KeepsFaces s (captureBefore s gid fibs ck ctx k n) := by
  unfold captureBefore
  exact .ite ((keepsFaces_l1Load s _ _ _ _).trans (.of_eq rfl rfl rfl)) (.refl s)

theorem keepsFaces_foldInL1 (s : State) (ck ctx k : Nat) (op : AtomOp) (ty w : Nat) (b : DWord) :
    KeepsFaces s (foldInL1 s ck ctx k op ty w b) := by
  have added (t : State) (ps : Table Partial) : KeepsFaces t { (freshId t).2 with partials := ps } := .of_eq rfl rfl rfl
  unfold foldInL1
  dsimp only
  split
  · exact .of_eq rfl rfl rfl
  · exact .after (added _ _) (.after (keepsFaces_l1Room _ _ _) (.of_eq rfl rfl rfl))

/-! ## Translation (10 R211 to R216) -/

theorem keepsFaces_touchWalk (s : State) (ctx die a : Nat) : KeepsFaces s (touchWalk s ctx die a) :=
  .foldl (fun _ _ => (keepsFaces_needWay _ _ _).trans (keepsFaces_homeTouch _ _ _ _ _)) _ s

theorem keepsFaces_translate (s : State) (ck ctx a : Nat) : KeepsFaces s (translate s ck ctx a).2 := by
  have ranges : KeepsFaces s (withRanges s ck ctx) := .ite (.refl s) (.of_eq rfl rfl rfl)
  unfold translate
  dsimp only
  split
  · exact .refl s
  · refine ranges.trans ?_
    split
    · exact .refl _
    · split
      · exact .refl _
      · split
        · exact (keepsFaces_touchWalk _ _ _ _).trans (.of_eq rfl rfl rfl)
        · exact keepsFaces_touchWalk _ _ _ _

/-! ## The sending of a region buffer (11 R236 to R245) -/

/-- A completion time noted for some fibres (09 R197). -/
theorem keepsFaces_noteWct (s : State) (gid : Nat) (fibs : List Nat) (scope w : Nat) :
    KeepsFaces s (noteWct s gid fibs scope w) := by
  unfold noteWct
  refine keepsFaces_updGroup (fun g => ?_) s gid
  refine ⟨rfl, ?_⟩
  refine faces_of_map (g := g) rfl fun e => ?_
  split
  · exact ⟨rfl, rfl⟩
  · exact ⟨rfl, rfl⟩

theorem keepsFaces_addWrite (s : State) (w : Write) : KeepsFaces s (addWrite s w) := .of_eq rfl rfl rfl

theorem keepsFaces_sendStore (s : State) (gid : Nat) (fibs : List Nat) (ck ctx va : Nat) (bs : List Byte) :
    KeepsFaces s (sendStore s gid fibs ck ctx va bs) := by
  unfold sendStore
  dsimp only
  refine .after (.ite ?_ ?_) (keepsFaces_translate s ck ctx va)
  · refine .after (keepsFaces_noteWct _ _ _ _ _) (.after (.ite (keepsFaces_clearPoison _ _) (.refl _)) ?_)
    exact (keepsFaces_captureBefore _ _ _ _ _ _ _).trans (keepsFaces_l1Store _ _ _ _ _ _ _)
  · exact (keepsFaces_l1Forget _ _ _ _).trans (keepsFaces_addWrite _ _)

theorem keepsFaces_sendReduce (s : State) (gid : Nat) (fibs : List Nat) (ck ctx va : Nat) (op : AtomOp) (ty w : Nat)
    (b : DWord) : KeepsFaces s (sendReduce s gid fibs ck ctx va op ty w b) := by
  unfold sendReduce
  dsimp only
  refine .after (.ite ?_ (.ite ?_ ?_)) (keepsFaces_translate s ck ctx va)
  · refine .after (keepsFaces_noteWct _ _ _ _ _) (.after (keepsFaces_l1Store _ _ _ _ _ _ _) ?_)
    exact (keepsFaces_captureBefore _ _ _ _ _ _ _).trans (keepsFaces_l1Load _ _ _ _ _)
  · exact (keepsFaces_l1Forget _ _ _ _).trans (keepsFaces_addWrite _ _)
  · split
    · exact (keepsFaces_foldInL1 _ _ _ _ _ _ _ _).trans (keepsFaces_noteWct _ _ _ _ _)
    · exact keepsFaces_addWrite _ _

theorem keepsFaces_sendEntry (s : State) (gid : Nat) (fibs : List Nat) (ck ctx : Nat) (ws : List BufWrite) :
    KeepsFaces s (sendEntry s gid fibs ck ctx ws) := by
  have stored (rs : List (Nat × List Byte)) :
      KeepsFaces s (rs.foldl (fun s r => sendStore s gid fibs ck ctx r.1 r.2) s) :=
    .foldl (fun s r => keepsFaces_sendStore s gid fibs ck ctx r.1 r.2) rs s
  unfold sendEntry
  refine .after (.foldl (fun s w => ?_) _ _) (stored _)
  cases w with
  | store va bs => exact .refl s
  | reduce va op ty n b => exact keepsFaces_sendReduce _ _ _ _ _ _ _ _ _ _

/-! ## Prefetch and write-back (11 R249, R250) -/

theorem keepsFaces_countEvent (s : State) (gid code n : Nat) : KeepsFaces s (countEvent s gid code n) := by
  unfold countEvent
  split
  · exact .refl s
  · split
    · exact .refl s
    · refine .ite ?_ (.refl s)
      refine keepsFaces_updGroup (fun g => ?_) s gid
      exact ⟨rfl, rfl⟩

theorem keepsFaces_flagUp (s : State) (gid k : Nat) : KeepsFaces s (flagUp s gid k) := by
  unfold flagUp
  refine .ite (.refl s) ?_
  refine keepsFaces_updGroup (fun g => ?_) s gid
  exact ⟨rfl, rfl⟩

theorem keepsFaces_launchOp (s : State) (i : Iss) (o : Op) : KeepsFaces s (launchOp s i o).2 := by
  have touched : KeepsFaces s (o.pieces.foldl (fun s p =>
      if p.scope ≤ 1 ∧ p.cache then (linesOf p.addr p.n).foldl (fun s l => l1Touch s i.ck i.gid (l * 128)) s else s) s) := by
    refine .foldl (fun s p => .ite ?_ (.refl s)) _ _
    exact .foldl (fun _ _ => keepsFaces_l1Touch _ _ _ _) _ _
  have counted (u : State) (c : Prop) [Decidable c] (n : Nat) : KeepsFaces u (if c then u else countEvent u i.gid 3 n) :=
    .ite (.refl u) (keepsFaces_countEvent _ _ _ _)
  have entered (u : State) (os : Table Op) : KeepsFaces u { (freshId u).2 with ops := os } := .of_eq rfl rfl rfl
  unfold launchOp
  dsimp only
  refine .after (keepsFaces_flagUp _ _ _) (.after (entered _ _) (.after (counted _ _ _) ?_))
  exact touched

theorem keepsFaces_servedParts (s : State) (i : Iss) (lo n : Nat) : KeepsFaces s (servedParts s i lo n).2 := by
  unfold servedParts
  refine KeepsFaces.foldl_snd (fun acc pc => ?_) _ ([], s)
  have there := keepsFaces_translate acc.2 i.ck i.k.ctx (pc.1 % 2 ^ 64)
  dsimp only
  split <;> exact there

theorem keepsFaces_prefetch (s : State) (i : Iss) (parts : List (Pg × Nat × Nat)) : KeepsFaces s (prefetch s i parts) :=
  .ite (.refl s) (keepsFaces_launchOp _ _ _)

theorem keepsFaces_touches (i : Iss) (xs : List (Nat × Nat × Nat)) (s : State) :
    KeepsFaces s (xs.foldl (fun s x => homeTouch s i.k.ctx i.g.die (x.2.1 / 128) false) s) :=
  .foldl (fun _ _ => keepsFaces_homeTouch _ _ _ _ _) xs s

end Sys2Proof.Machine
end

section
/-! Words that commit a region, wait for write-backs and prefetch pass, whatever is buffered (09 R197, R198; 11 R240, R241,
R248 to R250): a commit, a write-back and a prefetch leave the issuing fibre where it is, and no register changes. -/

namespace Sys2Proof.Machine

/-! ## Where the issuing fibre stands -/

/-- In `t` the partitions and the contexts are those of `s`, and the issuing fibre shows what `x` shows, in a group with the
registers at issue. -/
structure Iss.shows (s : State) (i : Iss) (x : Fibre) (t : State) : Prop where
  partitions : t.partitions = s.partitions
  contexts : t.contexts = s.contexts
  fibre : ∃ g f, Table.look t.groups i.gid = some g ∧ Table.look g.fibres i.fid = some f ∧ f.face = x.face ∧ g.files = i.g.files

theorem shows_issuing {s : State} {i : Iss} (h : issuing s = some i) : i.shows s i.f s := by
  obtain ⟨-, group, fibre, -, -⟩ := issuing_parts h
  exact ⟨rfl, rfl, i.g, i.f, group, fibre, rfl, rfl⟩

section
variable {s t u : State} {i : Iss} {x : Fibre} (here : i.shows s x t)
include here

theorem Iss.shows.keeps (kept : KeepsFaces t u) : i.shows s x u := by
  obtain ⟨partitions, contexts, g, f, group, fibre, face, files⟩ := here
  refine ⟨kept.partitions.trans partitions, kept.contexts.trans contexts, ?_⟩
  have same := kept.groups i.gid
  unfold groupAt at same
  rw [group, Option.map_some] at same
  obtain ⟨g', group', pair⟩ := Option.map_eq_some_iff.mp same
  obtain ⟨files', faces'⟩ := Prod.ext_iff.mp pair
  have shown := congrArg (Table.look · i.fid) faces'
  dsimp only at shown
  unfold Group.faces at shown
  rw [look_map g'.fibres i.fid (h := fun e => (e.1, e.2.face)) fun _ => rfl,
    look_map g.fibres i.fid (h := fun e => (e.1, e.2.face)) fun _ => rfl, fibre, Option.map_some] at shown
  obtain ⟨f', fibre', face'⟩ := Option.map_eq_some_iff.mp shown
  exact ⟨g', f', group', fibre', face'.trans face, files'.trans files⟩

/-- A change of the issuing fibre that what it shows decides. -/
theorem Iss.shows.updFibre {c : Fibre → Fibre} {y : Fibre} (decided : ∀ f, f.face = x.face → (c f).face = y.face) :
    i.shows s y (Machine.updFibre t i.gid i.fid c) := by
  obtain ⟨partitions, contexts, g, f, group, fibre, face, files⟩ := here
  refine ⟨partitions, contexts, { g with fibres := Table.upd g.fibres i.fid c }, c f, ?_, ?_, decided f face, files⟩
  · exact (Table.look_upd ..).trans ((if_pos rfl).trans (by rw [group]; rfl))
  · exact (Table.look_upd ..).trans ((if_pos rfl).trans (by rw [fibre]; rfl))

/-- A wait begun is no part of what the fibre shows (07 R153). -/
theorem Iss.shows.waitOn (w : Wait) : i.shows s x (Machine.waitOn t i.gid i.fid w) := here.updFibre fun _ face => face

/-- Outside a chain the fibre passes its word with no trap after it (04 R96; 18 R386). -/
theorem Iss.shows.finish (h : i.plain s) : Machine.finish t i = i.onward t := by
  obtain ⟨-, chain, quiet⟩ := h
  have outside : i.f.midChain = false := by simp [Fibre.midChain, chain]
  have pending (u : State) : raisePending u i = u := by
    unfold raisePending
    split
    · rfl
    · exact if_pos (.inl (by rw [outside]; rfl))
  unfold Machine.finish
  rw [pending]
  exact stepTrap_quiet here.partitions here.contexts quiet

/-- Past its word the fibre stands with what it showed before, its address moved. -/
theorem Iss.shows.movedPast (commits : Bool) (pc : x.pc = i.f.pc) (p0 : x.p0 = i.f.p0) (stack : x.stack = i.f.stack)
    (committed : commits = true → x.buffer = [] ∧ x.fresh = true) : i.movedPast (i.onward t) commits := by
  obtain ⟨-, -, g, f, group, fibre, face, files⟩ := here
  have pc' : f.pc = x.pc := congrArg (·.pc) face
  have p0' : f.p0 = x.p0 := congrArg (·.p0) face
  have stack' : f.stack = x.stack := congrArg (·.stack) face
  have buffer' : f.buffer = x.buffer := congrArg (·.buffer) face
  have fresh' : f.fresh = x.fresh := congrArg (·.fresh) face
  refine ⟨{ g with fibres := Table.upd g.fibres i.fid fun f => moveOn f (f.pc + 4) }, moveOn f (f.pc + 4), ?_, ?_, ?_,
    p0'.trans p0, stack'.trans stack, ?_, fun c => ?_⟩
  · exact (Table.look_upd ..).trans ((if_pos rfl).trans (by rw [group]; rfl))
  · exact (Table.look_upd ..).trans ((if_pos rfl).trans (by rw [fibre]; rfl))
  · exact congrArg (· + 4) (pc'.trans pc)
  · simpa [Group.files] using files
  · exact ⟨buffer'.trans (committed c).1, fresh'.trans (committed c).2⟩

end

/-! ## Commits and write-backs -/

section
variable {s : State} {i : Iss}

/-- After a commit the fibre stands where it stood, its region buffer empty (11 R240). -/
theorem shows_commitNow (h : issuing s = some i) : i.shows s i.f.recommitted (commitNow s i.gid i.fid) := by
  obtain ⟨-, group, fibre, kernel, -⟩ := issuing_parts h
  have sent : i.shows s i.f (i.f.buffer.foldl (fun s e => sendEntry s i.gid [i.fid] (coreKey i.g.die i.g.core) i.k.ctx e.writes) s) := by
    refine (shows_issuing h).keeps (.foldl (fun s e => ?_) _ _)
    exact keepsFaces_sendEntry _ _ _ _ _ _
  simp only [commitNow, groupAt, kernelAt, group, fibre, kernel]
  exact sent.updFibre (c := Fibre.recommitted) fun f face => congrArg Fibre.recommitted face

/-- A write-back, its wait begun or not, and the word passed (11 R249). -/
theorem movedPast_writeBackWait (h : i.plain s) {t : State} (here : i.shows s i.f.recommitted t) (p : Nat → Bool) :
    i.movedPast (writeBackWait t i p) true := by
  have passes {u : State} (there : i.shows s i.f.recommitted u) : i.movedPast (finish u i) true := by
    rw [there.finish h]
    exact there.movedPast true rfl rfl rfl fun _ => ⟨rfl, rfl⟩
  have noted (u : State) (w : Nat) : KeepsFaces u (updGroup u i.gid fun g => { g with wctMax := max g.wctMax w }) := by
    refine keepsFaces_updGroup (fun g => ?_) u i.gid
    exact ⟨rfl, rfl⟩
  have written (w : Nat) := (here.keeps (keepsFaces_l1WriteBack t i.ck fun k b => b.ctx = i.k.ctx && p k)).keeps (noted _ w)
  unfold writeBackWait
  dsimp only
  split
  · exact passes (written _)
  · exact passes ((written _).waitOn _)

/-- A prefetch leaves the fibre where it stood, and the word is passed (11 R250). -/
theorem movedPast_prefetched (h : i.plain s) {t : State} (kept : KeepsFaces s t) : i.movedPast (finish t i) false := by
  have there := (shows_issuing h.1).keeps kept
  rw [there.finish h]
  exact there.movedPast false rfl rfl rfl nofun

end

/-! ## Commit points that nothing stops (11 R240) -/

section
variable {s : State} {i : Iss} (clear : bufferConflict s i.ck i.k.ctx i.g.block i.f = none)
include clear

theorem committing_clear (act : State → State) : committing s i act = act (commitNow s i.gid i.fid) := by
  unfold committing
  rw [clear]

theorem releasing_clear {sc : Nat} (done : releasePending (commitNow s i.gid i.fid) i.gid i.fid sc = false) (act : State → State) :
    releasing s i sc act = act (commitNow s i.gid i.fid) := by
  unfold releasing
  rw [committing_clear clear, done]
  rfl

end

/-! ## The words -/

section
variable {s : State} {i : Iss} (h : i.plain s)
include h

theorem finish_kept {t : State} (kept : KeepsFaces s t) : finish t i = i.onward t := ((shows_issuing h.1).keeps kept).finish h

theorem finish_committed {t : State} (kept : KeepsFaces (commitNow s i.gid i.fid) t) : finish t i = i.onward t :=
  ((shows_commitNow h.1).keeps kept).finish h

theorem fence_acquires : exec (.fence 2) s = .next (i.onward (acquireL1 s i.ck 4)) :=
  (uniform_runs_free h _ rfl).trans (congrArg Host.Outcome.next (finish_kept h (keepsFaces_acquireL1 _ _ _)))

theorem pref_passes {a b : BitVec 6} (even : evenReg a = true) (ready : i.settled (pairRegs a ++ [b.toNat])) :
    ∃ t, exec (.pref a b) s = .next t ∧ i.movedPast t false :=
  ⟨_, uniform_runs h _ even ready,
    movedPast_prefetched h ((keepsFaces_servedParts _ _ _ _).trans (keepsFaces_prefetch _ _ _))⟩

theorem prefHome_passes {a b : BitVec 6} (even : evenReg a = true) (ready : i.settled (pairRegs a ++ [b.toNat])) :
    ∃ t, exec (.prefHome a b) s = .next t ∧ i.movedPast t false :=
  ⟨_, uniform_runs h _ even ready,
    movedPast_prefetched h ((keepsFaces_servedParts _ _ _ _).trans (keepsFaces_touches _ _ _))⟩

variable (clear : bufferConflict s i.ck i.k.ctx i.g.block i.f = none)
include clear

theorem region_commits : exec .region s = .next (i.onward (commitNow s i.gid i.fid)) := by
  refine (uniform_runs_free h _ rfl).trans (congrArg Host.Outcome.next ?_)
  rw [committing_clear clear, finish_committed h (.refl _)]

theorem fence_releases (done : releasePending (commitNow s i.gid i.fid) i.gid i.fid 4 = false) :
    exec (.fence 1) s = .next (i.onward (commitNow s i.gid i.fid)) ∧
      exec (.fence 3) s = .next (i.onward (acquireL1 (commitNow s i.gid i.fid) i.ck 4)) := by
  constructor
  · refine (uniform_runs_free h _ rfl).trans (congrArg Host.Outcome.next ?_)
    exact (releasing_clear clear done _).trans (finish_committed h (.refl _))
  · refine (uniform_runs_free h _ rfl).trans (congrArg Host.Outcome.next ?_)
    exact (releasing_clear clear done _).trans (finish_committed h (keepsFaces_acquireL1 _ _ _))

theorem cwbAll_passes : ∃ t, exec .cwbAll s = .next t ∧ i.movedPast t true := by
  refine ⟨_, uniform_runs_free h _ rfl, ?_⟩
  rw [committing_clear clear]
  exact movedPast_writeBackWait h (shows_commitNow h.1) _

theorem cwb_passes {a b : BitVec 6} (even : evenReg a = true) (ready : i.settled (pairRegs a ++ [b.toNat])) :
    ∃ t, exec (.cwb a b) s = .next t ∧ i.movedPast t true := by
  refine ⟨_, uniform_runs h _ even ready, ?_⟩
  rw [committing_clear clear]
  exact movedPast_writeBackWait h ((shows_commitNow h.1).keeps (keepsFaces_servedParts _ _ _ _)) _

end

/-- Settles O16: the sending of a buffer, a write-back and a prefetch change of the issuing fibre at most its completion times
and its wait, and no register; so each word passes from where it was issued. -/
theorem commitAndCacheWordsComplete : Obligations.CommitAndCacheWordsComplete := by
  unfold Obligations.CommitAndCacheWordsComplete
  intro s i a b h clear
  refine ⟨region_commits h clear, fence_acquires h, fence_releases h clear, cwbAll_passes h clear, fun even ready => ?_⟩
  have pair : evenReg a = true := decide_eq_true even
  exact ⟨cwb_passes h clear pair ready, pref_passes h pair ready, prefHome_passes h pair ready⟩

end Sys2Proof.Machine
end
